-- ==== Sys2Proof/Word.lean ====
section
/-! DEFINITION. The word types of the EGF-416: bytes, identifiers, sequences, serials. -/

namespace Sys2Proof

/-- One byte of a frame, a message or a page. -/
abbrev Byte := BitVec 8

/-- A CAN identifier: 11 bits in BASE format, 29 bits in EXTENDED format (R1). -/
abbrev Ident := BitVec 29

/-- A ring sequence or a ring time: 32 bits, wrapping (R121). -/
abbrev Word32 := BitVec 32

/-- A component serial of 6 bytes, first byte most significant (R57). -/
abbrev Serial := BitVec 48

/-- The upper limit of a 16-bit count. -/
abbrev max16 : Nat := 65535

/-- The upper limit of a 32-bit count. -/
abbrev max32 : Nat := 4294967295

/-- The value one above the 32-bit range, which a numbering takes once its last number has been given
(EXHAUSTED: R65, R102, R136). -/
abbrev exhausted : Nat := 4294967296

end Sys2Proof
end

