-- ==== Sys2Proof/Syntax.lean ====
section
/-! DEFINITION. The commands of the EGF-416: one constructor of `Instr` per row of spec/opcode_table.json. -/

namespace Sys2Proof

/-- The two CAN ports (00_scope, Ports and lines). -/
inductive PortId where
  | a
  | b
  deriving DecidableEq, Repr, Inhabited

/-- The frame formats of R1: BASE with an 11-bit identifier, EXTENDED with a 29-bit identifier. -/
inductive Format where
  | base
  | extended
  deriving DecidableEq, Repr, Inhabited

/-- A CAN data frame: format, identifier and 0 to 8 data bytes (R1). -/
structure Frame where
  format : Format
  ident : Ident
  data : List Byte
  deriving DecidableEq, Repr, Inhabited

/-- The two request channels of the Management Link (R172). -/
inductive Channel where
  | fleet
  | service
  deriving DecidableEq, Repr, Inhabited

/-- Where a whole request message comes from: the Fleet channel (port B alone), or the Service channel with the
port it came in on and the level of the SVC line at the moment of its admission (R172, R176). -/
inductive Source where
  | fleet
  | service (port : PortId) (svc : Bool)
  deriving DecidableEq, Repr, Inhabited

/-- Where a frame of the Management Link can stand when its 1,000 ms timeout expires (R178): held back as a BUSY
answer not yet offered, waiting at its port, or in its port's transmitter. -/
inductive FramePlace where
  | held (ch : Channel) (port : PortId)
  | waiting (ch : Channel) (port : PortId)
  | transmitter (port : PortId)
  deriving DecidableEq, Repr, Inhabited

/-- The query setup as it travels in Install Component (R191): flags, query identifier, query bytes, reply
identifier, serial offset. -/
structure QueryArgs where
  flags : Byte
  queryIdent : Word32
  queryBytes : BitVec 64
  replyIdent : Word32
  offset : Byte
  deriving DecidableEq, Repr, Inhabited

/-- The arguments of Install Component in layout order (R62, R191). -/
structure InstallArgs where
  slot : Byte
  kind : Byte
  flags : Byte
  identity : Serial
  query : QueryArgs
  events : Word32
  time : Word32
  wear : Word32
  deriving DecidableEq, Repr, Inhabited

/-- The arguments of Probe in layout order (R72, R191). -/
structure ProbeArgs where
  flags : Byte
  ident : Word32
  length : Byte
  data : BitVec 64
  replyIdent : Word32
  timeout : BitVec 16
  deriving DecidableEq, Repr, Inhabited

/-- The commands: events on the ports, lines, timers, storage bus and supply, and the management requests, each as
a whole message. An argument has the width of its field in the request's layout (R191). -/
inductive Instr where
  /-- DATA_FRAME_RECEIVED (R1): an undamaged data frame, with the level of the SVC line as it arrives. -/
  | dataFrameReceived (port : PortId) (frame : Frame) (svc : Bool)
  /-- DAMAGED_FRAME_RECEIVED (R1). -/
  | damagedFrameReceived (port : PortId)
  /-- REMOTE_REQUEST_FRAME (R1). -/
  | remoteRequestFrame (port : PortId)
  /-- TRANSMISSION_FAILED (R2). -/
  | transmissionFailed (port : PortId)
  /-- TRANSMISSION_SUCCEEDED (R2). -/
  | transmissionSucceeded (port : PortId)
  /-- BUS_OFF_RECOVERY_EXPIRY (R2). -/
  | busOffRecoveryExpiry (port : PortId)
  /-- FRESHNESS_DEADLINE_EXPIRY (R13), of one signal. -/
  | freshnessDeadlineExpiry (signal : Fin 48)
  /-- WINDOW_A_EXPIRY (R46). -/
  | windowAExpiry
  /-- WINDOW_B_EXPIRY (R47). -/
  | windowBExpiry
  /-- INTERVAL_EXPIRY (R85). -/
  | intervalExpiry
  /-- EVALUATION_EXPIRY (R93). -/
  | evaluationExpiry
  /-- IGN_LINE_CHANGE (R34): the line's new level. -/
  | ignLineChange (level : Bool)
  /-- IGN_DEBOUNCE_EXPIRY (R34). -/
  | ignDebounceExpiry
  /-- QUIET_PERIOD_EXPIRY (R35). -/
  | quietPeriodExpiry
  /-- DEVICE_CLOCK_TICK (R37). -/
  | deviceClockTick
  /-- CAPT_LINE_FALL (R138). -/
  | captLineFall
  /-- CAPT_DRIVE_TIMER_EXPIRY (R141). -/
  | captDriveTimerExpiry
  /-- POST_TIMEOUT_EXPIRY (R144). -/
  | postTimeoutExpiry
  /-- AGE_DEADLINE_EXPIRY (R124). -/
  | ageDeadlineExpiry
  /-- REPLY_TIMEOUT (R67). -/
  | replyTimeout
  /-- GAP_TIMER_EXPIRY (R174), of one channel. -/
  | gapTimerExpiry (ch : Channel)
  /-- RESPONSE_TIMEOUT (R178), of the frame at one place. -/
  | responseTimeout (place : FramePlace)
  /-- STATUS_TIMER_EXPIRY (R184). -/
  | statusTimerExpiry
  /-- SCAN_TIMER_EXPIRY (R189), of the scan of one channel. -/
  | scanTimerExpiry (ch : Channel)
  /-- UNKNOWN_REQUEST (R176): a whole message with its code and the bytes after it. -/
  | unknownRequest (src : Source) (code : Byte) (args : List Byte)
  /-- READ_DECODER_STATE, dsta (R22). -/
  | readDecoderState (src : Source) (area : Byte) (first : Byte)
  /-- SET_MODE, mode (R24). -/
  | setMode (src : Source) (target : Byte)
  /-- WRITE_TABLE, twr (R29). -/
  | writeTable (src : Source) (table : Byte) (item : Byte) (contents : List Byte)
  /-- READ_TABLE, trd (R30). -/
  | readTable (src : Source) (table : Byte) (item : Byte)
  /-- SET_CLOCK, clk (R37). -/
  | setClock (src : Source) (value : Word32)
  /-- READ_MODE_STATE, msta (R38). -/
  | readModeState (src : Source)
  /-- RESTART, rst (R39). -/
  | restart (src : Source)
  /-- CLEAR_ALL, clra (R40). -/
  | clearAll (src : Source)
  /-- READ_LIVE_VALUES, live (R56). -/
  | readLiveValues (src : Source)
  /-- INSTALL_COMPONENT, inst (R62). -/
  | installComponent (src : Source) (args : InstallArgs)
  /-- REMOVE_COMPONENT, rmv (R64). -/
  | removeComponent (src : Source) (slot : Byte)
  /-- VERIFY_NOW, vrfy (R71); 0xFF is ALL. -/
  | verifyNow (src : Source) (slot : Byte)
  /-- PROBE, prb (R72). -/
  | probe (src : Source) (args : ProbeArgs)
  /-- CONFIRM_CHANGE, cfrm (R73). -/
  | confirmChange (src : Source) (slot : Byte) (events time wear : Word32)
  /-- ADOPT_IDENTITY, adpt (R74). -/
  | adoptIdentity (src : Source) (slot : Byte)
  /-- DISMISS_MISMATCH, dism (R75). -/
  | dismissMismatch (src : Source) (slot : Byte)
  /-- READ_SLOT, slot (R76). -/
  | readSlot (src : Source) (slot : Byte)
  /-- READ_SPECTRUM, spec (R100). -/
  | readSpectrum (src : Source) (slot : Byte)
  /-- OPEN_HIRE, hopn (R105). -/
  | openHire (src : Source) (contract : Word32)
  /-- READ_OPEN_HIRE, hrd (R106). -/
  | readOpenHire (src : Source)
  /-- CLOSE_HIRE, hcls (R107). -/
  | closeHire (src : Source)
  /-- COLLECT_HIRE, hcol (R112). -/
  | collectHire (src : Source)
  /-- READ_FORWARDING_COUNTERS, fwdc (R135). -/
  | readForwardingCounters (src : Source)
  /-- CAPTURE_NOW, capn (R147). -/
  | captureNow (src : Source) (pre post : BitVec 16)
  /-- LOCK_CAPTURE, clck (R148). -/
  | lockCapture (src : Source) (number : Word32)
  /-- UNLOCK_CAPTURE, culk (R148). -/
  | unlockCapture (src : Source) (number : Word32)
  /-- RELEASE_CAPTURE, crel (R149). -/
  | releaseCapture (src : Source) (number : Word32)
  /-- READ_DIRECTORY, cdir (R150). -/
  | readDirectory (src : Source)
  /-- CHECKPOINT_NOW, ckpt (R169). -/
  | checkpointNow (src : Source)
  /-- STORAGE_STATUS, stst (R170). -/
  | storageStatus (src : Source)
  /-- READ_CONDITIONS, cond (R181). -/
  | readConditions (src : Source)
  /-- ACKNOWLEDGE_CONDITIONS, cack (R182). -/
  | acknowledgeConditions (src : Source) (numbers : List Byte)
  /-- SET_CONDITION_MASK, cmsk (R183). -/
  | setConditionMask (src : Source) (mask : BitVec 16)
  /-- DESCRIBE, desc (R185). -/
  | describe (src : Source)
  /-- READ_RECORDS, rrec (R186). -/
  | readRecords (src : Source) (area : Byte) (number : Word32) (frameIndex count : BitVec 16)
  /-- SCAN_ARCHIVE, scan (R188). -/
  | scanArchive (src : Source) (start : Word32) (count : BitVec 16) (field sense : Byte) (value : Word32)
  /-- PAGE_WRITE_COMPLETE (R153): the read-back, equal to what was written or not. -/
  | pageWriteComplete (equal : Bool)
  /-- PAGE_READ_COMPLETE (R153). -/
  | pageReadComplete
  /-- STORAGE_ANSWER_TIMEOUT (R153). -/
  | storageAnswerTimeout
  /-- PFW_ASSERTED (R161). -/
  | pfwAsserted
  /-- PFW_WITHDRAWN (R162). -/
  | pfwWithdrawn
  /-- SUPPLY_LOSS (R162). -/
  | supplyLoss
  /-- SUPPLY_ON (R163). -/
  | supplyOn
  deriving DecidableEq, Repr, Inhabited

end Sys2Proof
end

