-- ==== Sys2Proof/Decode.lean ====
section
/-! DEFINITION. The command that a word spells by the opcode table's bits. -/

namespace Sys2Proof

/-- The command of a word of the opcode table. No row of spec/opcode_table.json gives bits (a request travels as a
message of R191, not as a word), so no word spells a command (log 30). -/
def decodeTableWord (_nbits _w : Nat) : Option Instr := none

end Sys2Proof
end

