-- ==== Sys2Proof/Config.lean ====
section
/-! DEFINITION. What is fixed at manufacture and the values the spec leaves open: opaque constants, with no body. -/

namespace Sys2Proof.Config

/-- The vendor code of Describe (R185): fixed at manufacture, its value not stated. DESIGN CHOICE (log 10): 16 bits. -/
opaque vendorCode : BitVec 16

/-- The part code of Describe (R185): fixed at manufacture, its value not stated. DESIGN CHOICE (log 10): 16 bits. -/
opaque partCode : BitVec 16

/-- The revision of Describe (R185): fixed at manufacture, its value not stated. DESIGN CHOICE (log 10): 8 bits. -/
opaque revision : BitVec 8

/-- The part's own 6-byte serial of Describe (R185). -/
opaque partSerial : Serial

/-- FREE VALUE (log 7): the bytes that a failed or abandoned page write leaves in its page. The argument counts the
bytes left so, from `Medium.fresh`. -/
opaque freeByte : Nat → Byte

/-- FREE VALUES (log 32): the kind, by its number, and the identity that a usage entry added from a short checkpoint gets
when its slot is EMPTY, of which R165 states nothing. The arguments are the hire's number and the slot's. -/
opaque unstatedKind : Nat → Nat → BitVec 3

opaque unstatedSerial : Nat → Nat → Option Serial

end Sys2Proof.Config
end

