-- ==== Sys2Proof/Machine/State.lean ====
section
/-! DEFINITION. The state of the EGF-416, block by block, as plain data, and its state after reset. -/

namespace Sys2Proof.Machine

/-! ## Ports and transmitters (chapters 1 and 7) -/

/-- Port states (1.1). -/
inductive PortState where
  | running
  | busOff
  | listening
  deriving DecidableEq, Repr, Inhabited

/-- Who made a frame that waits for a transmitter or stands in one (R128, R130). `orphan` is a query's frame that CLEAR
ALL left in the port A queue or transmitter when it made the Probe Unit IDLE (R77, R134). -/
inductive TxSource where
  | response (ch : Channel)
  | busy (ch : Channel)
  | status
  | forward
  | probe
  | orphan
  deriving DecidableEq, Repr, Inhabited

/-- A frame offered to a transmitter, with what remains of its 1,000 ms response timeout where it has one (R178). -/
structure TxFrame where
  frame : Frame
  source : TxSource
  timeout : Option Nat
  deriving DecidableEq, Repr, Inhabited

/-- A Port Controller (1.1) and its transmitter (7.3). -/
structure Port where
  state : PortState := .running
  received : Nat := 0
  receiveErrors : Nat := 0
  errorLevel : Nat := 0
  busOffs : Nat := 0
  /-- The 200 ms recovery timer (R2). -/
  recovery : Option Nat := none
  tx : Option TxFrame := none
  deriving DecidableEq, Repr, Inhabited

/-! ## Tables (chapters 1, 2 and 5) -/

/-- A Frame Table entry in use (R4); the period in ms. -/
structure FrameEntry where
  port : PortId
  format : Format
  ident : Ident
  forward : Bool
  period : Nat
  deriving DecidableEq, Repr, Inhabited

/-- A Signal Table entry in use (R8). -/
structure SignalEntry where
  frame : Nat
  start : Nat
  length : Nat
  highFirst : Bool
  signed : Bool
  multiplier : Nat
  shift : Nat
  offset : Int
  minimum : Int
  maximum : Int
  deriving DecidableEq, Repr, Inhabited

/-- A Role Map entry (R15). -/
structure RoleEntry where
  primary : Option Nat := none
  backup : Option Nat := none
  deriving DecidableEq, Repr, Inhabited

/-- A Bin Table row (R82). -/
structure BinRow where
  load : Vector Int 7
  speed : Vector Int 7
  temperature : Vector Int 3
  deriving DecidableEq, Repr, Inhabited

/-- A Weight Table row (R83). -/
structure WeightRow where
  cells : Vector Nat 64
  factors : Vector Nat 4
  deriving DecidableEq, Repr, Inhabited

/-- The capture settings of one abuse kind (R114). -/
structure AbuseCapture where
  capture : Bool := false
  drive : Bool := false
  pre : Nat := 512
  post : Nat := 511
  deriving DecidableEq, Repr, Inhabited

/-- The Limit Table (R42, R80, R114, R126, R138), each field at its stated default. -/
structure Limits where
  crank : Nat := 60
  stall : Nat := 300
  run : Nat := 400
  windowA : Nat := 30
  windowB : Nat := 20
  motion : Nat := 10
  slip : Nat := 40
  referenceTorque : Nat := 1000
  maximumAge : Nat := 500
  overspeedSpeed : Nat := 2300
  overspeedDuration : Nat := 2
  coldCoolant : Int := 40
  coldTorque : Nat := 70
  coldDuration : Nat := 10
  luggingSpeed : Nat := 900
  luggingTorque : Nat := 90
  luggingDuration : Nat := 5
  hotEnergy : Nat := 60000
  abuse : Vector AbuseCapture 4 := Vector.replicate 4 {}
  captTrigger : Bool := true
  captPre : Nat := 512
  captPost : Nat := 511
  deriving DecidableEq, Repr, Inhabited

/-- One complete table set: the seven tables of 2.4. -/
structure TableSet where
  frames : Vector (Option FrameEntry) 64
  signals : Vector (Option SignalEntry) 48
  roles : Vector RoleEntry 10
  bins : Vector BinRow 8
  weights : Vector WeightRow 8
  ratios : Vector Nat 19
  limits : Limits
  deriving DecidableEq, Repr, Inhabited

/-- The edges of the empty set for one kind (R33). -/
def BinRow.empty : BinRow where
  load := #v[1000, 2000, 3000, 4000, 5000, 6000, 7000]
  speed := #v[1000, 2000, 3000, 4000, 5000, 6000, 7000]
  temperature := #v[40, 70, 100]

/-- The empty set (R33). -/
def TableSet.empty : TableSet where
  frames := Vector.replicate 64 none
  signals := Vector.replicate 48 none
  roles := Vector.replicate 10 {}
  bins := Vector.replicate 8 BinRow.empty
  weights := Vector.replicate 8 { cells := Vector.replicate 64 0, factors := Vector.replicate 4 16 }
  ratios := Vector.replicate 19 100
  limits := {}

/-! ## Matcher, decoder and Role Selector (chapter 1) -/

/-- The Frame Matcher's counts (R4). -/
structure Matcher where
  counts : Vector Nat 64 := Vector.replicate 64 0
  unmatchedA : Nat := 0
  unmatchedB : Nat := 0
  deriving DecidableEq, Repr, Inhabited

/-- Signal states (R8). -/
inductive SignalStatus where
  | neverSeen
  | fresh
  | stale
  deriving DecidableEq, Repr, Inhabited

/-- Signal qualities (R11). -/
inductive Quality where
  | usable
  | shortFrame
  | notAvailable
  | errorIndicated
  | outOfRange
  deriving DecidableEq, Repr, Inhabited

/-- What the decoder keeps for one Signal Table entry (R8). -/
structure Signal where
  status : SignalStatus := .neverSeen
  value : Option Int := none
  quality : Option Quality := none
  nonUsable : Nat := 0
  deadline : Option Nat := none
  deriving DecidableEq, Repr, Inhabited

/-- The selected source of a role (R15). The usable flag is set exactly while it is not `none` (R15). -/
inductive RoleSource where
  | none
  | primary
  | backup
  deriving DecidableEq, Repr, Inhabited

/-- What the Role Selector keeps for one role (R15). -/
structure Role where
  source : RoleSource := .none
  value : Option Int := Option.none
  returns : Nat := 0
  deriving DecidableEq, Repr, Inhabited

/-! ## Engine Start Detector (chapter 3) -/

/-- Engine states (chapter 3). -/
inductive EngineState where
  | stopped
  | cranking
  | catching
  | running
  | unknown
  deriving DecidableEq, Repr, Inhabited

/-- The attempt record (R44); `openedAt` in the part's milliseconds. -/
structure Attempt where
  openedAt : Nat
  coolant : Option Int
  starterSeen : Bool
  duration : Option Nat
  deriving DecidableEq, Repr, Inhabited

/-- The Engine Start Detector (chapter 3). -/
structure Detector where
  engine : EngineState := .stopped
  attempt : Option Attempt := none
  windowA : Option Nat := none
  windowB : Option Nat := none
  firstRun : Bool := true
  deriving DecidableEq, Repr, Inhabited

/-! ## Clutch Monitor and Wear Engine (chapter 5) -/

/-- The engagement record (R91). -/
structure Engagement where
  slipTime : Nat := 0
  energy : Nat := 0
  saturated : Bool := false
  startSpeed : Option Int := none
  below : Nat := 0
  deriving DecidableEq, Repr, Inhabited

/-- The Clutch Monitor (5.6). -/
structure Clutch where
  timer : Option Nat := none
  engagement : Option Engagement := none
  carry : Nat := 0
  deriving DecidableEq, Repr, Inhabited

/-- The Wear Engine's working state (chapter 5). -/
structure Wear where
  timer : Option Nat := none
  running : Vector Bool 12 := Vector.replicate 12 false
  countdown : Nat := 0
  deriving DecidableEq, Repr, Inhabited

/-! ## Component Register (chapter 4) -/

/-- Component kinds (R58). -/
inductive Kind where
  | engine
  | starter
  | clutch
  | gearbox
  | retarder
  | driveshaft
  | axle
  | pto
  deriving DecidableEq, Repr, Inhabited

/-- Verification statuses (R57). -/
inductive Verification where
  | notApplicable
  | pending
  | verified
  | unverified
  deriving DecidableEq, Repr, Inhabited

/-- A query setup (R57, R58). -/
structure QuerySetup where
  queryFormat : Format
  queryIdent : Ident
  queryBytes : List Byte
  replyFormat : Format
  replyIdent : Ident
  offset : Nat
  deriving DecidableEq, Repr, Inhabited

/-- A held pool (R57, R60). -/
structure Pool where
  events : Nat := 0
  time : Nat := 0
  units : Nat := 0
  residue : Nat := 0
  unobserved : Nat := 0
  deriving DecidableEq, Repr, Inhabited

/-- What a HELD slot carries besides: the reported serial and the pool (R57). -/
structure Hold where
  reported : Serial
  pool : Pool := {}
  deriving DecidableEq, Repr, Inhabited

/-- The record of an occupied slot (R57): COUNTING while `hold` is absent, HELD while it is present. -/
structure Component where
  kind : Kind
  identity : Option Serial
  verification : Verification
  query : Option QuerySetup
  hold : Option Hold
  installClock : Nat
  events : Nat
  time : Nat
  units : Nat
  residue : Nat
  unbinned : Nat
  saturated : Bool
  unobserved : Nat
  /-- The hours reference V0, T0 of the ENGINE kind (R97). -/
  reference : Option (Nat × Nat)
  regressed : Bool
  uncertain : Nat
  failedStarts : Nat
  abuse : Vector Nat 4
  cells : Vector Nat 64
  generation : Nat
  silent : Nat
  deriving DecidableEq, Repr, Inhabited

/-- The verification in hand (R67): its slot and the attempt that is being made or comes next. -/
structure InHand where
  slot : Nat
  attempt : Nat
  deriving DecidableEq, Repr, Inhabited

/-- A Service probe (R72). -/
structure ProbeRequest where
  frame : Frame
  replyFormat : Format
  replyIdent : Ident
  timeout : Nat
  deriving DecidableEq, Repr, Inhabited

/-- The query the Probe Unit serves (R67): for a probe or for a verification attempt, whether its frame has left the
transmitter, and what remains of its reply timeout. -/
structure Query where
  forProbe : Bool
  replyFormat : Format
  replyIdent : Ident
  sent : Bool
  timer : Nat
  deriving DecidableEq, Repr, Inhabited

/-- The Component Register and its Probe Unit (chapter 4). The unit is IDLE while `query` is absent. -/
structure Register where
  slots : Vector (Option Component) 12 := Vector.replicate 12 none
  pollQueue : List Nat := []
  inHand : Option InHand := none
  waitingProbe : Option ProbeRequest := none
  query : Option Query := none
  nextArchive : Nat := 1
  deriving DecidableEq, Repr, Inhabited

/-! ## Hire Accounting and the abuse monitor (chapter 6) -/

/-- Capture causes; the first four are the abuse kinds (R136). -/
inductive Cause where
  | overspeed
  | coldLoad
  | lugging
  | hotEngagement
  | captLine
  | request
  deriving DecidableEq, Repr, Inhabited

/-- A usage entry (R103). -/
structure Usage where
  slot : Nat
  kind : Kind
  serial : Option Serial
  events : Nat := 0
  time : Nat := 0
  units : Nat := 0
  residue : Nat := 0
  held : Bool := false
  unobserved : Nat := 0
  deriving DecidableEq, Repr, Inhabited

/-- An abuse entry (R102). -/
structure AbuseEntry where
  kind : Cause
  clock : Nat
  slot : Option Nat
  magnitude : Int
  capture : Option Nat
  deriving DecidableEq, Repr, Inhabited

/-- The close fields of a hire record (R102). -/
structure HireClose where
  clock : Nat
  sync : Bool
  cause : Channel
  deriving DecidableEq, Repr, Inhabited

/-- A hire record (R102). -/
structure HireRecord where
  number : Nat
  contract : Nat
  openClock : Nat
  openSync : Bool
  openChannel : Channel
  usage : List Usage
  abuse : Vector Nat 4
  abuseList : List AbuseEntry
  overflow : Bool
  close : Option HireClose
  deriving DecidableEq, Repr, Inhabited

/-- The episode record of one interval kind (R113). -/
structure Episode where
  run : Nat := 0
  marked : Bool := false
  extreme : Option Int := none
  /-- Hire number and list position of the mark made in this episode. -/
  mark : Option (Nat × Nat) := none
  deriving DecidableEq, Repr, Inhabited

/-- Hire Accounting (chapter 6). -/
structure Hire where
  current : Option HireRecord := none
  closing : Option HireRecord := none
  nextNumber : Nat := 1
  newest : Nat := 0
  queue : List Nat := []
  dropped : Bool := false
  overspeed : Episode := {}
  coldLoad : Episode := {}
  lugging : Episode := {}
  deriving DecidableEq, Repr, Inhabited

/-! ## The Traffic Ring and Forwarder (chapter 7) -/

/-- A ring record (R121); the port is A. `receivedAt` is the model's own: the part's milliseconds at receipt, from
which the age is worked out (log 18). -/
structure RingRecord where
  sequence : Word32
  arrival : Word32
  frame : Frame
  forward : Bool
  sent : Bool
  receivedAt : Nat
  deriving DecidableEq, Repr, Inhabited

/-- The Traffic Ring, the Forwarder, the port B arbiter's waiting frames and the port A transmit queue (chapter 7).
`records` stands oldest first. -/
structure Ring where
  records : List RingRecord := []
  next : Word32 := 0
  time : Word32 := 0
  pointer : Word32 := 0
  age : Option Nat := none
  forwarded : Nat := 0
  expired : Nat := 0
  overrun : Nat := 0
  waitingService : Option TxFrame := none
  waitingFleet : Option TxFrame := none
  waitingStatus : Option TxFrame := none
  queueA : List TxFrame := []
  deriving DecidableEq, Repr, Inhabited

/-! ## The Capture Unit (chapter 8) -/

/-- States of a directory entry that is not FREE (R136). -/
inductive CaptureState where
  | opened
  | complete
  | truncated
  | failed
  deriving DecidableEq, Repr, Inhabited

/-- A directory entry that is not FREE (R136). -/
structure CaptureEntry where
  number : Nat
  cause : Cause
  clock : Nat
  sync : Bool
  ringTime : Word32
  seq : Word32
  preAsked : Nat
  postAsked : Nat
  available : Nat
  stored : Nat
  lost : Nat
  state : CaptureState
  locked : Bool
  read : Bool
  deriving DecidableEq, Repr, Inhabited

/-- A trigger record (R137). `takenAt` is the model's own: the part's milliseconds at the trigger, from which the time
that remains of the post timeout is worked out (R141). -/
structure Trigger where
  cause : Cause
  clock : Nat
  sync : Bool
  ringTime : Word32
  seq : Word32
  preAsked : Nat
  postAsked : Nat
  available : Nat
  drive : Bool
  mark : Option (Nat × Nat)
  takenAt : Nat
  deriving DecidableEq, Repr, Inhabited

/-- The copier of the OPEN capture (R142): its entry, cursor, window end and page buffer, whether the frame page of
the buffer is requested, and whether the final header write is. `takenAt` is the model's own: the part's milliseconds at
the trigger, from which a stored frame's time is worked out (R193, log 18). -/
structure Copier where
  entry : Nat
  takenAt : Nat
  cursor : Word32
  windowEnd : Word32
  buffer : List RingRecord
  pageAsked : Bool
  finalAsked : Bool
  deriving DecidableEq, Repr, Inhabited

/-- The Capture Unit (chapter 8). -/
structure Capture where
  entries : Vector (Option CaptureEntry) 8 := Vector.replicate 8 none
  queue : List Trigger := []
  copier : Option Copier := none
  postTimeout : Option Nat := none
  driveTimer : Option Nat := none
  nextNumber : Nat := 1
  missed : Nat := 0
  deriving DecidableEq, Repr, Inhabited

/-! ## The Mode Controller (chapter 2) -/

/-- Operating modes (chapter 2). -/
inductive Mode where
  | setup
  | paused
  | active
  deriving DecidableEq, Repr, Inhabited

/-- Table save states (chapter 2). -/
inductive SaveState where
  | idle
  | saving (target : Mode)
  | resaving
  deriving DecidableEq, Repr, Inhabited

/-- The last validation result (chapter 2): none, PASSED, or a failure reason by its order number in R31 with its item
index. -/
inductive Validation where
  | none
  | passed
  | failed (reason : Nat) (index : Nat)
  deriving DecidableEq, Repr, Inhabited

/-- The Mode Controller (chapter 2). `clockPhase` is the model's own: the milliseconds to the next second of the
Device Clock (log 24). `sleepWait` is present while the sleep-entry checkpoint is awaited, and tells whether a wake
cause arrived meanwhile (R35). -/
structure ModeCtl where
  mode : Mode := .setup
  active : TableSet := TableSet.empty
  pendingSet : TableSet := TableSet.empty
  passAll : Bool := false
  save : SaveState := .idle
  savePage : Nat := 0
  validation : Validation := .none
  ignition : Bool := false
  debounce : Option Nat := Option.none
  quiet : Option Nat := Option.none
  asleep : Bool := false
  clock : Nat := 0
  clockPhase : Nat := 1000
  sync : Bool := false
  sleepWait : Option Bool := Option.none
  deriving DecidableEq, Repr, Inhabited

/-! ## The Management Link (chapter 10) -/

/-- Channel states (chapter 10). -/
inductive ChannelState where
  | idle
  | receiving
  | processing
  | responding
  deriving DecidableEq, Repr, Inhabited

/-- A BUSY answer not yet offered to its port (R175): the request code and what remains of its 1,000 ms. -/
structure Busy where
  code : Byte
  timeout : Nat
  deriving DecidableEq, Repr, Inhabited

/-- A request channel (chapter 10). `outbox` holds the data bytes of the response frames not yet offered, `offered`
tells that a response frame was offered and has not left, `restartAfter` that the response is RESTART's DONE (R178). -/
structure Chan where
  state : ChannelState := .idle
  buffer : List Byte := []
  length : Nat := 0
  expected : Nat := 0
  gap : Option Nat := none
  port : PortId := .b
  busyA : Option Busy := none
  busyB : Option Busy := none
  outbox : List (List Byte) := []
  offered : Bool := false
  restartAfter : Bool := false
  abandoned : Nat := 0
  badSegments : Nat := 0
  busyAnswers : Nat := 0
  abandonedResponses : Nat := 0
  deriving DecidableEq, Repr, Inhabited

/-- The Management Link (chapter 10). The five latched conditions are held here; a standing condition is in the set
while its cause holds (R180), so it is worked out from the cause. -/
structure Link where
  fleet : Chan := {}
  service : Chan := {}
  foreign : Nat := 0
  tableInvalid : Bool := false
  roleLost : Bool := false
  supplyGap : Bool := false
  forwardOverrun : Bool := false
  captureReady : Bool := false
  /-- The condition mask: bit c − 1 masks condition c (R183). -/
  mask : BitVec 10 := 0
  statusTimer : Option Nat := none
  deriving DecidableEq, Repr, Inhabited

/-! ## The Storage Controller (chapter 9) -/

/-- Checkpoint states (chapter 9). -/
inductive CheckpointState where
  | idle
  | waiting
  | writing
  deriving DecidableEq, Repr, Inhabited

/-- The causes of a full checkpoint (R157); RESTORE is the cause of R168. -/
inductive CheckpointCause where
  | period
  | sleep
  | modeChange
  | install
  | archive
  | resolution
  | openHire
  | restart
  | clearAll
  | restore
  | request
  deriving DecidableEq, Repr, Inhabited

/-- Who waits for a full checkpoint (R158). -/
inductive Waiter where
  | sleep
  | restart
  | clearAll
  | checkpointNow (ch : Channel)
  deriving DecidableEq, Repr, Inhabited

/-- The content of a full checkpoint (R157). -/
structure Snapshot where
  slots : Vector (Option Component) 12
  hire : Option HireRecord
  queue : List Nat
  dropped : Bool
  nextHire : Nat
  newestHire : Nat
  nextArchive : Nat
  nextCapture : Nat
  /-- For each directory entry its capture number (0 for a FREE entry), locked flag and read flag. -/
  captures : Vector (Nat × Bool × Bool) 8
  mode : Mode
  clock : Nat
  sync : Bool
  deriving DecidableEq, Repr, Inhabited

/-- A short checkpoint's entry for an occupied slot (R160). -/
structure ShortSlot where
  kind : Kind
  installClock : Nat
  generation : Nat
  events : Nat
  time : Nat
  units : Nat
  residue : Nat
  unbinned : Nat
  unobserved : Nat
  pool : Option Pool
  deriving DecidableEq, Repr, Inhabited

/-- A short checkpoint's usage entry (R160). -/
structure ShortUsage where
  slot : Nat
  events : Nat
  time : Nat
  units : Nat
  residue : Nat
  unobserved : Nat
  held : Bool
  deriving DecidableEq, Repr, Inhabited

/-- A short checkpoint's open hire (R160). -/
structure ShortHire where
  number : Nat
  contract : Nat
  openClock : Nat
  openSync : Bool
  openChannel : Channel
  usage : List ShortUsage
  deriving DecidableEq, Repr, Inhabited

/-- The content of a short checkpoint (R160). -/
structure ShortImage where
  slots : Vector (Option ShortSlot) 12
  hire : Option ShortHire
  nextHire : Nat
  clock : Nat
  deriving DecidableEq, Repr, Inhabited

/-- The full checkpoint state (R158): `page` pages of the one being written are verified. -/
structure FullCheckpoint where
  state : CheckpointState := .idle
  pending : Bool := false
  cause : CheckpointCause := .request
  pendingCause : CheckpointCause := .request
  page : Nat := 0
  sequence : Nat := 0
  position : Nat := 0
  image : Option Snapshot := none
  waiters : List Waiter := []
  nextWaiters : List Waiter := []
  deriving DecidableEq, Repr, Inhabited

/-- The short checkpoint state (chapter 9): `page` pages of the one being written are verified. -/
structure ShortCheckpoint where
  state : CheckpointState := .idle
  followUp : Bool := false
  page : Nat := 0
  sequence : Nat := 0
  position : Nat := 0
  image : Option ShortImage := none
  deriving DecidableEq, Repr, Inhabited

/-- The archive causes (R65). -/
inductive ArchiveCause where
  | removed
  | changed
  deriving DecidableEq, Repr, Inhabited

/-- The content of a component archive record (R65). -/
structure ArchiveRecord where
  number : Nat
  cause : ArchiveCause
  clock : Nat
  successor : Serial
  slot : Nat
  component : Component
  deriving DecidableEq, Repr, Inhabited

/-- A multi-page operation of the archive level (R156, R171): a component record for Remove or Confirm Change with, for
the latter, the new component's starting figures and the abuse marks made during the write (R73); the closing hire's
record; or CLEAR ALL's invalidation, whose page list is drawn up at its first grant. -/
inductive ArchiveJob where
  | component (record : ArchiveRecord) (events time units : Nat) (marks : Vector Nat 4)
  | hire (ch : Channel)
  | invalidate (pages : Option (List Nat))
  deriving DecidableEq, Repr, Inhabited

/-- A single-page operation of the capture level (R155). -/
inductive CaptureJob where
  | openHeader (entry : Nat)
  | framePage (entry : Nat)
  | finalHeader (entry : Nat)
  | release (entry : Nat) (number : Nat) (ch : Channel)
  deriving DecidableEq, Repr, Inhabited

/-- A reader's work (R112, R186, R187, R188). `out` holds the entries so far, `dropped` the dropped flag as it stood
before the request. -/
inductive ReaderTask where
  | collect (number : Nat) (dropped : Bool)
  | components (next remaining : Nat) (out : List Byte)
  | hires (next remaining : Nat) (out : List Byte)
  | frames (number index remaining : Nat) (out : List Byte)
  | scan (next remaining : Nat) (field sense value : Nat) (skipped : Nat) (timer : Nat)
  deriving DecidableEq, Repr, Inhabited

/-- A reader (R156): its channel, its work, and the pages of the read in hand taken so far, with whether one of them
was invalid in the medium (log 7). -/
structure Reader where
  ch : Channel
  task : ReaderTask
  page : Nat
  buffer : List Byte
  spoiled : Bool
  deriving DecidableEq, Repr, Inhabited

/-- Who owns the transaction on the storage bus (R155). -/
inductive Owner where
  | restore
  | short
  | full
  | table (resave : Bool)
  | archive
  | capture
  | reader (ch : Channel)
  deriving DecidableEq, Repr, Inhabited

/-- The transaction on the storage bus (R153): a write of the bytes given or a read, of one page, at its first or
second attempt, with what remains of the attempt's 20 ms (log 15). -/
structure Transaction where
  owner : Owner
  page : Nat
  write : Option (List Byte)
  attempt : Nat
  timer : Nat
  deriving DecidableEq, Repr, Inhabited

/-- The last restore record (chapter 9). -/
structure RestoreRecord where
  taken : Option Nat := none
  shorts : Nat := 0
  folded : Nat := 0
  recovered : Nat := 0
  deriving DecidableEq, Repr, Inhabited

/-- The Storage Controller (chapter 9). -/
structure Storage where
  fault : Bool := false
  writes : Nat := 0
  retries : Nat := 0
  failures : Nat := 0
  bus : Option Transaction := none
  full : FullCheckpoint := {}
  short : ShortCheckpoint := {}
  archive : List ArchiveJob := []
  archivePage : Nat := 0
  captureJobs : List CaptureJob := []
  readers : List Reader := []
  nextSequence : Nat := 1
  writePosition : Nat := 0
  newest : Option (Nat × Nat) := none
  last : RestoreRecord := {}
  deriving DecidableEq, Repr, Inhabited

/-- What the restore reads next (R163, R166, R167). -/
inductive RestoreItem where
  | image (page : Nat)
  | ringHeader (position : Nat)
  | ringBody (position page count : Nat)
  | component (page : Nat)
  | hire (page : Nat)
  | captureHeader (entry : Nat)
  deriving DecidableEq, Repr, Inhabited

/-- The restore in progress (9.5): the item it reads, the valid checkpoints found (sequence, position), the end of the
one with the highest sequence, and what it has to settle at its end. -/
structure Restore where
  item : RestoreItem := .image 0
  imageValid : Bool := false
  fulls : List (Nat × Nat) := []
  shorts : List (Nat × Nat) := []
  highest : Option (Nat × Nat) := none
  fullFound : Bool := false
  fullIsRestart : Bool := false
  recreate : Option ShortHire := none
  captures : Vector (Nat × Bool × Bool) 8 := Vector.replicate 8 (0, false, false)
  deriving DecidableEq, Repr, Inhabited

/-! ## The whole -/

/-- The input lines as they stand (00_scope, Ports and lines). CAPT's level is not kept: its falls are commands. -/
structure Lines where
  ign : Bool := false
  svc : Bool := false
  pfw : Bool := false
  deriving DecidableEq, Repr, Inhabited

/-- The part's working state, lost with the supply, but for the levels of the lines. `now` is the model's own count of
milliseconds since supply-on or RESTART. -/
structure Part where
  powered : Bool := true
  lines : Lines := {}
  restore : Option Restore := none
  now : Nat := 0
  portA : Port := {}
  portB : Port := {}
  matcher : Matcher := {}
  signals : Vector Signal 48 := Vector.replicate 48 {}
  roles : Vector Role 10 := Vector.replicate 10 {}
  detector : Detector := {}
  clutch : Clutch := {}
  wear : Wear := {}
  register : Register := {}
  hire : Hire := {}
  ring : Ring := {}
  capture : Capture := {}
  modeCtl : ModeCtl := {}
  link : Link := {}
  storage : Storage := {}
  deriving DecidableEq, Repr, Inhabited

/-- The storage medium (R152): cells in canonical form (address 256 × page + offset, rising, no entry 0xFF, which is
what the medium is delivered with, R194); and the model's own: the pages whose last write failed or was abandoned, and
the count of free bytes drawn (log 7). -/
structure Medium where
  cells : List Host.Cell := []
  spoiled : List Nat := []
  fresh : Nat := 0
  deriving DecidableEq, Repr, Inhabited

/-- The block: the waiting commands, the storage medium and the part's working state. -/
structure State where
  pending : List Instr := []
  medium : Medium := {}
  part : Part := {}
  deriving DecidableEq, Repr, Inhabited

/-- Why a step stops with a fault. -/
inductive Fault where
  /-- Raised by PAGE_WRITE_COMPLETE and PAGE_READ_COMPLETE when the transaction in progress names a page beyond page 4,095,
  which R152 says does not exist. Safe: no run from reset holds such a transaction. -/
  | noSuchPage
  deriving DecidableEq, Repr, Inhabited

/-- Why a step has no meaning for a command. -/
inductive Refusal where
  /-- An arm of exec that has no meaning yet. Safe. -/
  | notModelled (mnemonic : String)
  /-- Raised by DATA_FRAME_RECEIVED for an operand that is no CAN frame: more than 8 data bytes, or a BASE identifier of
  more than 11 bits (R1). Safe: no bus carries it. -/
  | notAFrame
  deriving DecidableEq, Repr, Inhabited

/-- The working state at supply-on, before the restore: every block at its supply-on values. -/
def Part.supplyOn : Part := {}

/-- The working state of a part with no supply. -/
def Part.unpowered : Part := { powered := false }

/-- The working state of a new part right after the restore at supply-on (log 1): invalid table image, so the empty set,
pass-all and SETUP (R33); no valid checkpoint, so a clear counting state (R163); TABLE_INVALID raised (R167); the timers
of the awake part started (R84, R91, R184); and the restore's full checkpoint WAITING (R168, R171). -/
def Part.newPart : Part where
  clutch := { timer := some 100 }
  wear := { timer := some 1000 }
  modeCtl := { passAll := true }
  link := { tableInvalid := true, statusTimer := some 1000 }
  storage := { full := { state := .waiting, cause := .restore } }

/-- The machine right after reset: a new part whose restore at supply-on has just ended. -/
def State.reset : State where
  part := Part.newPart

end Sys2Proof.Machine
end

