-- ==== Sys2Proof/Machine/Ops.lean ====
section
/-! DEFINITION. The shared operations: counts and wear arithmetic, bytes and check words, the storage medium, ring
sequences, access to ports, channels and roles, responses, and the request for a full checkpoint. -/

namespace Sys2Proof.Machine

/-! ## Counts -/

/-- A count that saturates at its limit (00_scope, Conventions). -/
def addSat (limit a b : Nat) : Nat := min limit (a + b)

/-- The greatest whole-unit wear figure (R88). -/
abbrev wearLimit : Nat := 99999999

/-- Counts to a wear unit (R83). -/
abbrev wearUnit : Nat := 16000

/-- The wear arithmetic of R88: units, residue, and whether the units would have passed their limit. -/
def addWear (units residue counts : Nat) : Nat × Nat × Bool :=
  let total := residue + counts
  let whole := units + total / wearUnit
  if whole > wearLimit then (wearLimit, wearUnit - 1, true) else (whole, total % wearUnit, false)

/-! ## Bytes, most significant first (R190) -/

/-- `n` bytes of a number, most significant first. -/
def beBytes : Nat → Nat → List Byte
  | 0, _ => []
  | n + 1, v => BitVec.ofNat 8 (v / 256 ^ n) :: beBytes n v

/-- The number that bytes spell, most significant first. -/
def ofBe (bs : List Byte) : Nat := bs.foldl (fun a b => a * 256 + b.toNat) 0

/-- `n` bytes of an integer in two's complement, most significant first. -/
def intBytes (n : Nat) (v : Int) : List Byte := beBytes n (v % (256 ^ n : Nat)).toNat

/-- The integer that bytes spell in two's complement. -/
def ofBeSigned (bs : List Byte) : Int :=
  let v := ofBe bs
  if 2 * v < 256 ^ bs.length then v else (v : Int) - (256 ^ bs.length : Nat)

/-- The bytes of `bs` from an offset. -/
def bytesAt (bs : List Byte) (offset length : Nat) : List Byte := (bs.drop offset).take length

/-- The unsigned field of `bs` at an offset. -/
def natAt (bs : List Byte) (offset length : Nat) : Nat := ofBe (bytesAt bs offset length)

/-- The signed field of `bs` at an offset. -/
def intAt (bs : List Byte) (offset length : Nat) : Int := ofBeSigned (bytesAt bs offset length)

/-- The byte of `bs` at an offset, 0 beyond its end. -/
def byteAt (bs : List Byte) (offset : Nat) : Byte := bs.getD offset 0

/-- A flag byte: bit 0 is the first of the list (R190). -/
def flagByte (bits : List Bool) : Byte :=
  BitVec.ofNat 8 (bits.foldr (fun b acc => 2 * acc + b.toNat) 0)

/-- One yes-or-no result (R190). -/
def yesNo (b : Bool) : List Byte := [flagByte [b]]

/-- A result that may be absent: a flag byte, then its bytes, 0 when absent (R190). -/
def optional (n : Nat) (v : Option Int) : List Byte :=
  yesNo v.isSome ++ intBytes n (v.getD 0)

/-- `bs` cut or filled with zeros to `n` bytes. -/
def padTo (n : Nat) (bs : List Byte) : List Byte := bs.take n ++ List.replicate (n - bs.length) 0

/-! ## The check word (R194) -/

/-- One bit of the CRC with generator 0x04C11DB7. -/
def crcShift (c : Nat) : Nat :=
  if c < 2147483648 then c * 2 else Nat.xor (c * 2 % 4294967296) 0x04C11DB7

/-- One byte of the CRC, most significant bit first (log 9). -/
def crcByte (c : Nat) (b : Byte) : Nat :=
  crcShift (crcShift (crcShift (crcShift (crcShift (crcShift (crcShift (crcShift
    (Nat.xor c (b.toNat * 16777216)))))))))

/-- The CRC of bytes from a register value. A register value lies below 2^32, so the test always passes: it makes the
value be worked out byte by byte when Lean's kernel evaluates a check word. -/
def crcLoop : List Byte → Nat → Nat
  | [], c => c
  | b :: bs, c => if c < 4294967296 then crcLoop bs (crcByte c b) else 0

/-- The check word of bytes: initial value 0xFFFFFFFF, result inverted. -/
def crc32 (bs : List Byte) : Nat := 4294967295 - crcLoop bs 4294967295

/-- Bytes closed by their check word in the last four, computed with those taken as 0. -/
def sealRecord (size : Nat) (content : List Byte) : List Byte :=
  let body := padTo (size - 4) content
  body ++ beBytes 4 (crc32 (body ++ [0, 0, 0, 0]))

/-- Whether the last four bytes are the check word of the record. -/
def recordValid (size : Nat) (bs : List Byte) : Bool :=
  bs.length == size && sealRecord size (bs.take (size - 4)) == bs

/-! ## The storage medium (R152) -/

/-- Bytes to a page (R152). -/
abbrev pageSize : Nat := 256

/-- Pages of the medium (R152). -/
abbrev pageCount : Nat := 4096

/-- What an unlisted address reads as: the medium is delivered filled with 0xFF (R194). -/
abbrev blankByte : Byte := 0xFF

/-- The canonical form of the cells: addresses strictly rising, none beyond the medium, no entry that reads as an
unlisted address does. -/
abbrev cellsCanonical (cells : List Host.Cell) : Prop :=
  cells.Pairwise (fun x y => x.1 < y.1) ∧ ∀ c ∈ cells, c.1 < pageCount * pageSize ∧ c.2 ≠ blankByte

/-- The medium is in its canonical form. -/
abbrev Medium.wf (m : Medium) : Prop := cellsCanonical m.cells

/-- The byte at an address. -/
def cellsRead : List Host.Cell → Nat → Byte
  | [], _ => blankByte
  | (k, v) :: rest, a => if k = a then v else cellsRead rest a

/-- The cells with one byte written, in canonical form. -/
def cellsWrite : List Host.Cell → Nat → Byte → List Host.Cell
  | [], a, v => if v = blankByte then [] else [(a, v)]
  | (k, w) :: rest, a, v =>
    if a < k then
      if v = blankByte then (k, w) :: rest else (a, v) :: (k, w) :: rest
    else if a = k then
      if v = blankByte then rest else (a, v) :: rest
    else (k, w) :: cellsWrite rest a v

/-- The cells with bytes written from an address upward. -/
def cellsWriteAll : List Host.Cell → Nat → List Byte → List Host.Cell
  | cells, _, [] => cells
  | cells, a, b :: rest => cellsWriteAll (cellsWrite cells a b) (a + 1) rest

/-- The byte of the medium at an address. -/
def Medium.byte (m : Medium) (a : Nat) : Byte := cellsRead m.cells a

/-- The contents of a page. -/
def Medium.page (m : Medium) (page : Nat) : List Byte :=
  (List.range pageSize).map fun i => m.byte (pageSize * page + i)

/-- The contents of consecutive pages. -/
def Medium.pages (m : Medium) (page : Nat) : Nat → List Byte
  | 0 => []
  | n + 1 => m.page page ++ m.pages (page + 1) n

/-- Whether a page among consecutive ones is invalid because its last write failed or was abandoned (log 7). -/
def Medium.anySpoiled (m : Medium) (page count : Nat) : Bool :=
  m.spoiled.any fun q => decide (page ≤ q) && decide (q < page + count)

/-- A verified page write: the page holds the bytes written, and is valid again (R152, R153). -/
def Medium.writePage (m : Medium) (page : Nat) (bytes : List Byte) : Medium :=
  { m with
    cells := cellsWriteAll m.cells (pageSize * page) (padTo pageSize bytes)
    spoiled := m.spoiled.filter (· ≠ page) }

/-- A page whose write failed or was abandoned: it is invalid and holds free bytes (R153, R161, log 7). A page beyond the
medium does not exist (R152). -/
def Medium.spoilPage (m : Medium) (page : Nat) : Medium :=
  if pageCount ≤ page then m
  else
    { cells := cellsWriteAll m.cells (pageSize * page)
        ((List.range pageSize).map fun i => Config.freeByte (m.fresh + i))
      spoiled := page :: m.spoiled.filter (· ≠ page)
      fresh := m.fresh + pageSize }

/-! ## The areas of the medium (R152) -/

/-- First page of the checkpoint ring's position. -/
def ringPage (position : Nat) : Nat := 32 + position

/-- Pages of the checkpoint ring. -/
abbrev ringPages : Nat := 480

/-- Pages of a full and of a short checkpoint. -/
abbrev fullPages : Nat := 20

abbrev shortPages : Nat := 4

/-- First page of the component archive record numbered n: ring position (n − 1) mod 64 (R65). -/
def componentPage (n : Nat) : Nat := 512 + 4 * ((n - 1) % 64)

/-- First page of the hire archive record numbered n: ring position (n − 1) mod 320 (R111). -/
def hirePage (n : Nat) : Nat := 768 + 4 * ((n - 1) % 320)

/-- Header page of a capture entry; its frame pages follow (R136). -/
def capturePage (entry : Nat) : Nat := 2048 + 256 * entry

/-! ## Ring sequences (R121) -/

/-- The signed distance of a sequence from the next sequence. -/
def Ring.distance (r : Ring) (q : Word32) : Int := (q - r.next).toInt

/-- Records held. -/
def Ring.fill (r : Ring) : Nat := r.records.length

/-- The oldest present sequence: the next sequence less the fill. -/
def Ring.oldest (r : Ring) : Word32 := r.next - BitVec.ofNat 32 r.fill

/-- The record of a sequence, if present. -/
def Ring.find (r : Ring) (q : Word32) : Option RingRecord := r.records.find? (·.sequence == q)

/-! ## Ports and channels of the working state -/

/-- A port. -/
def Part.port (p : Part) : PortId → Port
  | .a => p.portA
  | .b => p.portB

/-- The part with a port changed. -/
def Part.setPort (p : Part) (id : PortId) (q : Port) : Part :=
  match id with
  | .a => { p with portA := q }
  | .b => { p with portB := q }

/-- A channel. -/
def Part.chan (p : Part) : Channel → Chan
  | .fleet => p.link.fleet
  | .service => p.link.service

/-- The part with a channel changed. -/
def Part.setChan (p : Part) (ch : Channel) (c : Chan) : Part :=
  match ch with
  | .fleet => { p with link := { p.link with fleet := c } }
  | .service => { p with link := { p.link with service := c } }

/-- The part with its storage controller changed. -/
def Part.setStorage (p : Part) (st : Storage) : Part := { p with storage := st }

/-- The part runs: the supply is on and no restore is running (9.5). -/
def Part.live (p : Part) : Bool := p.powered && p.restore.isNone

/-- The part is AWAKE and runs. -/
def Part.awake (p : Part) : Bool := p.live && !p.modeCtl.asleep

/-- A handler of a running, AWAKE part: nothing otherwise. -/
def whenAwake (f : Part → Part) (p : Part) : Part := if p.awake then f p else p

/-! ## Roles (R15) -/

/-- Role numbers (R15). -/
abbrev roleEngineSpeed : Nat := 0
abbrev roleTorque : Nat := 1
abbrev roleCoolant : Nat := 2
abbrev roleInputSpeed : Nat := 3
abbrev roleOutputSpeed : Nat := 4
abbrev roleGear : Nat := 5
abbrev roleRetarder : Nat := 6
abbrev rolePto : Nat := 7
abbrev roleStarter : Nat := 8
abbrev roleHours : Nat := 9

/-- A role as it stands. -/
def Part.role (p : Part) (r : Nat) : Role := p.roles[r]?.getD {}

/-- The usable flag: set while the selected source is PRIMARY or BACKUP (R15). -/
def Role.usable (r : Role) : Bool := r.source != .none

/-- The value of a role while it is usable. -/
def Part.usableValue (p : Part) (r : Nat) : Option Int :=
  if (p.role r).usable then (p.role r).value else none

/-- A usable role's value, taken as 0 when negative, as a torque on a load axis is (R79). -/
def nonNegative (v : Int) : Int := max v 0

/-! ## Slots -/

/-- The record in a slot, absent when EMPTY. -/
def Part.slot (p : Part) (n : Nat) : Option Component := (p.register.slots[n]?).join

/-- The part with a slot changed. -/
def Part.setSlot (p : Part) (n : Nat) (c : Option Component) : Part :=
  { p with register := { p.register with slots := p.register.slots.setIfInBounds n c } }

/-- The slot numbers, ascending. -/
def slotNumbers : List Nat := List.range 12

/-- The lowest slot holding a kind. -/
def Part.slotOfKind (p : Part) (k : Kind) : Option Nat :=
  slotNumbers.find? fun n => (p.slot n).any (·.kind == k)

/-- A continuous kind is credited by the interval, an event kind (STARTER, CLUTCH) per event (R58). -/
def Kind.continuous : Kind → Bool
  | .starter | .clutch => false
  | _ => true

/-- Kind numbers (R58). -/
def Kind.num : Kind → Nat
  | .engine => 0
  | .starter => 1
  | .clutch => 2
  | .gearbox => 3
  | .retarder => 4
  | .driveshaft => 5
  | .axle => 6
  | .pto => 7

/-! ## Responses (R173, R178) -/

/-- The NEXT segments of the bytes left, from a sequence; the first argument bounds their number. -/
def nextSegments : Nat → Nat → List Byte → List (List Byte)
  | 0, _, _ => []
  | _, _, [] => []
  | n + 1, s, bs => (BitVec.ofNat 8 (0x20 + s % 16) :: bs.take 7) :: nextSegments n (s + 1) (bs.drop 7)

/-- A message cut into the data bytes of its frames: one SINGLE up to 7 bytes, else a FIRST and its NEXTs. -/
def segments (msg : List Byte) : List (List Byte) :=
  if msg.length ≤ 7 then [BitVec.ofNat 8 msg.length :: msg]
  else
    (BitVec.ofNat 8 (0x10 + msg.length / 256) :: BitVec.ofNat 8 msg.length :: msg.take 6) ::
      nextSegments msg.length 1 (msg.drop 6)

/-- A response is formed: its channel goes to RESPONDING with the frames to offer (R178). -/
def respond (ch : Channel) (msg : List Byte) (p : Part) : Part :=
  p.setChan ch { p.chan ch with state := .responding, outbox := segments msg, offered := false }

/-- Status codes (R191). -/
abbrev stDone : Byte := 0x00
abbrev stBusy : Byte := 0x01
abbrev stMalformed : Byte := 0x10
abbrev stUnknownRequest : Byte := 0x11
abbrev stNotPermitted : Byte := 0x12
abbrev stServiceLineOff : Byte := 0x13
abbrev stWrongMode : Byte := 0x14
abbrev stEngineRunning : Byte := 0x15
abbrev stBadArgument : Byte := 0x16
abbrev stSlotEmpty : Byte := 0x20
abbrev stSlotOccupied : Byte := 0x21
abbrev stKindLimit : Byte := 0x22
abbrev stNotHeld : Byte := 0x23
abbrev stHireOpen : Byte := 0x24
abbrev stNoHire : Byte := 0x25
abbrev stLocked : Byte := 0x26
abbrev stNotReady : Byte := 0x27
abbrev stStorageFault : Byte := 0x28
abbrev stValidationFailed : Byte := 0x29

/-! ## Full checkpoint requests (R158) -/

/-- The cause a joined checkpoint carries: RESTART stays or wins, otherwise the first stays (log 16). -/
def joinCause (old new : CheckpointCause) : CheckpointCause := if new = .restart then .restart else old

/-- A request for a full checkpoint is taken by the full checkpoint state (R158); a waiter is answered by the first
checkpoint whose snapshot is taken after its request. -/
def requestFull (cause : CheckpointCause) (waiter : Option Waiter) (p : Part) : Part :=
  let f := p.storage.full
  let f' : FullCheckpoint :=
    match f.state with
    | .idle => { f with state := .waiting, cause, waiters := waiter.toList }
    | .waiting => { f with cause := joinCause f.cause cause, waiters := f.waiters ++ waiter.toList }
    | .writing =>
      { f with
        pending := true
        pendingCause := if f.pending then joinCause f.pendingCause cause else cause
        nextWaiters := f.nextWaiters ++ waiter.toList }
  p.setStorage { p.storage with full := f' }

end Sys2Proof.Machine
end

