-- ==== Sys2Proof/Machine/Operands.lean ====
section
/-! DEFINITION. The operands: enumeration numbers (R190), identifiers and their ranges, the table items that travel in
Write Table and Read Table (R192) with their field ranges (R29), and the query setup (R191). A reader of a request's
fields answers the index of the first argument at fault where there is one (R176). -/

namespace Sys2Proof.Machine

/-! ## Enumerations (R190) -/

def Mode.num : Mode → Nat
  | .setup => 0
  | .paused => 1
  | .active => 2

def Mode.ofNat? : Nat → Option Mode
  | 0 => some .setup
  | 1 => some .paused
  | 2 => some .active
  | _ => none

def EngineState.num : EngineState → Nat
  | .stopped => 0
  | .cranking => 1
  | .catching => 2
  | .running => 3
  | .unknown => 4

def Kind.ofNat? : Nat → Option Kind
  | 0 => some .engine
  | 1 => some .starter
  | 2 => some .clutch
  | 3 => some .gearbox
  | 4 => some .retarder
  | 5 => some .driveshaft
  | 6 => some .axle
  | 7 => some .pto
  | _ => none

def Verification.num : Verification → Nat
  | .notApplicable => 0
  | .pending => 1
  | .verified => 2
  | .unverified => 3

def Verification.ofNat? : Nat → Option Verification
  | 0 => some .notApplicable
  | 1 => some .pending
  | 2 => some .verified
  | 3 => some .unverified
  | _ => none

def Cause.num : Cause → Nat
  | .overspeed => 0
  | .coldLoad => 1
  | .lugging => 2
  | .hotEngagement => 3
  | .captLine => 4
  | .request => 5

def Cause.ofNat? : Nat → Option Cause
  | 0 => some .overspeed
  | 1 => some .coldLoad
  | 2 => some .lugging
  | 3 => some .hotEngagement
  | 4 => some .captLine
  | 5 => some .request
  | _ => none

def CaptureState.num : CaptureState → Nat
  | .opened => 1
  | .complete => 2
  | .truncated => 3
  | .failed => 4

def CaptureState.ofNat? : Nat → Option CaptureState
  | 1 => some .opened
  | 2 => some .complete
  | 3 => some .truncated
  | 4 => some .failed
  | _ => none

def channelNum : Channel → Nat
  | .fleet => 0
  | .service => 1

def channelOfBool (service : Bool) : Channel := if service then .service else .fleet

def ArchiveCause.num : ArchiveCause → Nat
  | .removed => 0
  | .changed => 1

def ArchiveCause.ofNat? : Nat → Option ArchiveCause
  | 0 => some .removed
  | 1 => some .changed
  | _ => none

def PortState.num : PortState → Nat
  | .running => 0
  | .busOff => 1
  | .listening => 2

def SignalStatus.num : SignalStatus → Nat
  | .neverSeen => 0
  | .fresh => 1
  | .stale => 2

def Quality.num : Quality → Nat
  | .usable => 0
  | .shortFrame => 1
  | .notAvailable => 2
  | .errorIndicated => 3
  | .outOfRange => 4

def RoleSource.num : RoleSource → Nat
  | .none => 0
  | .primary => 1
  | .backup => 2

def SaveState.num : SaveState → Nat
  | .idle => 0
  | .saving _ => 1
  | .resaving => 2

/-- The last validation result (R190). -/
def Validation.num : Validation → Nat
  | .none => 0
  | .passed => 11
  | .failed reason _ => reason

/-- The item index of the last validation result, a result that is absent with none and PASSED (R190). DEDUCED (log 12). -/
def Validation.item? : Validation → Option Nat
  | .failed _ index => Option.some index
  | .none | .passed => Option.none

def CheckpointState.num : CheckpointState → Nat
  | .idle => 0
  | .waiting => 1
  | .writing => 2

/-- The cause byte of a full checkpoint's header (log 8). -/
def CheckpointCause.num : CheckpointCause → Nat
  | .period => 0
  | .sleep => 1
  | .modeChange => 2
  | .install => 3
  | .archive => 4
  | .resolution => 5
  | .openHire => 6
  | .restart => 7
  | .clearAll => 8
  | .restore => 9
  | .request => 10

/-! ## Identifiers (R1, R4) -/

/-- The five management identifiers of 10.1. -/
abbrev idFleetRequest : Nat := 0x6E0
abbrev idFleetResponse : Nat := 0x6E8
abbrev idStatus : Nat := 0x6E9
abbrev idServiceRequest : Nat := 0x6F0
abbrev idServiceResponse : Nat := 0x6F8

/-- A number is one of the five management identifiers. -/
def isManagementIdent (n : Nat) : Bool :=
  n == idFleetRequest || n == idFleetResponse || n == idStatus || n == idServiceRequest || n == idServiceResponse

/-- A BASE frame on a management identifier is a management frame; an EXTENDED one never is (R1). -/
def isReserved (format : Format) (ident : Nat) : Bool := format == .base && isManagementIdent ident

/-- The greatest identifier of a format (R4). -/
def identLimit : Format → Nat
  | .base => 0x7FF
  | .extended => 0x1FFFFFFF

def formatOfBool (ext : Bool) : Format := if ext then .extended else .base

def isExtended (f : Format) : Bool := f == .extended

/-- The frame is one a CAN bus can carry (R1). -/
def frameOk (f : Frame) : Bool := decide (f.data.length ≤ 8) && decide (f.ident.toNat ≤ identLimit f.format)

/-- A frame as a result travels: flags, identifier, length, 8 data bytes (R190). -/
def frameResult (f : Frame) : List Byte :=
  [flagByte [isExtended f.format]] ++ beBytes 4 f.ident.toNat ++ beBytes 1 f.data.length ++ padTo 8 f.data

/-! ## Field readers -/

/-- A check on an argument: the index of the argument when it fails. -/
def require (ok : Bool) (index : Nat) : Except Nat Unit := if ok then .ok () else .error index

/-- An undefined bit of a flag byte must be 0: the byte has no bit from `defined` upward (R190). -/
def flagsOk (b : Byte) (defined : Nat) : Bool := decide (b.toNat < 2 ^ defined)

/-! ## Table items (R192) -/

/-- Bytes to an item of each table, in table-number order (R191, R192). -/
def itemLength : Nat → Nat
  | 0 => 7
  | 1 => 21
  | 2 => 2
  | 3 => 68
  | 4 => 132
  | 5 => 2
  | 6 => 55
  | _ => 0

/-- Number of items of each table (R29). -/
def itemCount : Nat → Nat
  | 0 => 64
  | 1 => 48
  | 2 => 10
  | 3 => 8
  | 4 => 8
  | 5 => 19
  | 6 => 1
  | _ => 0

def encodeFrameEntry : Option FrameEntry → List Byte
  | none => List.replicate 7 0
  | some e =>
    [flagByte [true, e.port == .b, isExtended e.format, e.forward]] ++ beBytes 4 e.ident.toNat ++ beBytes 2 e.period

/-- A Frame Table entry from its bytes; its fields are arguments 2 to 4 (R4, R29, R190). -/
def readFrameEntry (bs : List Byte) : Except Nat (Option FrameEntry) := do
  let flags := byteAt bs 0
  require (flagsOk flags 4) 2
  if !flags.getLsbD 0 then
    return none
  let format := formatOfBool (flags.getLsbD 2)
  require (decide (natAt bs 1 4 ≤ identLimit format)) 3
  require (decide (10 ≤ natAt bs 5 2) && decide (natAt bs 5 2 ≤ 10000)) 4
  return some
    { port := if flags.getLsbD 1 then .b else .a
      format
      ident := BitVec.ofNat 29 (natAt bs 1 4)
      forward := flags.getLsbD 3
      period := natAt bs 5 2 }

/-- A plausible limit: one sign byte, then a 4-byte magnitude (R190). -/
def encodeSigned5 (v : Int) : List Byte := beBytes 1 (if v < 0 then 1 else 0) ++ beBytes 4 v.natAbs

/-- A plausible limit from its bytes (R190, log 27). -/
def readSigned5 (bs : List Byte) : Int :=
  if byteAt bs 0 = 1 then -(natAt bs 1 4 : Int) else natAt bs 1 4

def encodeSignalEntry : Option SignalEntry → List Byte
  | none => List.replicate 21 0
  | some e =>
    [flagByte [true, e.highFirst, e.signed]] ++ beBytes 1 e.frame ++ beBytes 1 e.start ++ beBytes 1 e.length ++
      beBytes 2 e.multiplier ++ beBytes 1 e.shift ++ intBytes 4 e.offset ++ encodeSigned5 e.minimum ++
      encodeSigned5 e.maximum

/-- A Signal Table entry from its bytes; its fields are arguments 2 to 10 (R8, R29, R190). -/
def readSignalEntry (bs : List Byte) : Except Nat (Option SignalEntry) := do
  let flags := byteAt bs 0
  require (flagsOk flags 3) 2
  if !flags.getLsbD 0 then
    return none
  require (decide (natAt bs 2 1 ≤ 63)) 4
  require (decide (1 ≤ natAt bs 3 1) && decide (natAt bs 3 1 ≤ 32)) 5
  require (decide (1 ≤ natAt bs 4 2)) 6
  require (decide (natAt bs 6 1 ≤ 16)) 7
  require (decide (-1000000 ≤ intAt bs 7 4) && decide (intAt bs 7 4 ≤ 1000000)) 8
  require (flagsOk (byteAt bs 11) 1) 9
  require (flagsOk (byteAt bs 16) 1) 10
  return some
    { frame := natAt bs 1 1
      start := natAt bs 2 1
      length := natAt bs 3 1
      highFirst := flags.getLsbD 1
      signed := flags.getLsbD 2
      multiplier := natAt bs 4 2
      shift := natAt bs 6 1
      offset := intAt bs 7 4
      minimum := readSigned5 (bytesAt bs 11 5)
      maximum := readSigned5 (bytesAt bs 16 5) }

/-- An index that may be absent is 0xFF when absent (R190). -/
def encodeIndex (i : Option Nat) : List Byte := beBytes 1 (i.getD 255)

def readIndex (b : Byte) : Option Nat := if b = 0xFF then none else some b.toNat

def encodeRoleEntry (e : RoleEntry) : List Byte := encodeIndex e.primary ++ encodeIndex e.backup

/-- A Role Map item from its bytes; its fields are arguments 2 and 3 (R15, R29). -/
def readRoleEntry (bs : List Byte) : Except Nat RoleEntry := do
  let primary := readIndex (byteAt bs 0)
  let backup := readIndex (byteAt bs 1)
  require (primary.all (· < 48)) 2
  require (backup.all (· < 48)) 3
  return { primary, backup }

/-- A vector read from consecutive fields of one width. -/
def natsAt (bs : List Byte) (offset width n : Nat) : Vector Nat n :=
  Vector.ofFn fun i => natAt bs (offset + width * i) width

def intsAt (bs : List Byte) (offset width n : Nat) : Vector Int n :=
  Vector.ofFn fun i => intAt bs (offset + width * i) width

def encodeInts (width : Nat) (vs : List Int) : List Byte := vs.flatMap (intBytes width)

def encodeNats (width : Nat) (vs : List Nat) : List Byte := vs.flatMap (beBytes width)

def encodeBinRow (r : BinRow) : List Byte :=
  encodeInts 4 r.load.toList ++ encodeInts 4 r.speed.toList ++ encodeInts 4 r.temperature.toList

/-- A Bin Table item from its bytes: every edge lies in its range (R29, R82). -/
def readBinRow (bs : List Byte) : Except Nat BinRow :=
  .ok { load := intsAt bs 0 4 7, speed := intsAt bs 28 4 7, temperature := intsAt bs 56 4 3 }

def encodeWeightRow (r : WeightRow) : List Byte := encodeNats 2 r.cells.toList ++ encodeNats 1 r.factors.toList

/-- A Weight Table item from its bytes: weights are arguments 2 to 65, factors 66 to 69 (R29, R83). -/
def readWeightRow (bs : List Byte) : Except Nat WeightRow :=
  let cells : Vector Nat 64 := natsAt bs 0 2 64
  let factors : Vector Nat 4 := natsAt bs 128 1 4
  match cells.toList.findIdx? (fun w => decide (w > 4095)) with
  | some i => .error (2 + i)
  | none =>
    match factors.toList.findIdx? (fun f => decide (f > 63)) with
    | some i => .error (66 + i)
    | none => .ok { cells, factors }

/-- A gear ratio from its bytes (R29, R81). -/
def readRatio (bs : List Byte) : Except Nat Nat := do
  require (decide (100 ≤ natAt bs 0 2) && decide (natAt bs 0 2 ≤ 2000)) 2
  return natAt bs 0 2

def encodeAbuseCapture (a : AbuseCapture) : List Byte :=
  [flagByte [a.capture, a.drive]] ++ beBytes 2 a.pre ++ beBytes 2 a.post

def readAbuseCapture (bs : List Byte) : AbuseCapture where
  capture := (byteAt bs 0).getLsbD 0
  drive := (byteAt bs 0).getLsbD 1
  pre := natAt bs 1 2
  post := natAt bs 3 2

def encodeLimits (l : Limits) : List Byte :=
  beBytes 2 l.crank ++ beBytes 2 l.stall ++ beBytes 2 l.run ++ beBytes 1 l.windowA ++ beBytes 1 l.windowB ++
    beBytes 1 l.motion ++ beBytes 2 l.slip ++ beBytes 2 l.referenceTorque ++ beBytes 2 l.maximumAge ++
    beBytes 2 l.overspeedSpeed ++ beBytes 1 l.overspeedDuration ++ intBytes 1 l.coldCoolant ++ beBytes 1 l.coldTorque ++
    beBytes 2 l.coldDuration ++ beBytes 2 l.luggingSpeed ++ beBytes 1 l.luggingTorque ++ beBytes 1 l.luggingDuration ++
    beBytes 4 l.hotEnergy ++ l.abuse.toList.flatMap encodeAbuseCapture ++ yesNo l.captTrigger ++ beBytes 2 l.captPre ++
    beBytes 2 l.captPost

/-- A number lies in a range. -/
def inRange (low high v : Int) : Bool := decide (low ≤ v) && decide (v ≤ high)

/-- The ranges of one abuse kind's capture settings; its fields are arguments from `first` (R114). -/
def requireAbuse (bs : List Byte) (first : Nat) : Except Nat Unit := do
  require (flagsOk (byteAt bs 0) 2) first
  require (decide (natAt bs 1 2 ≤ 2048)) (first + 1)
  require (inRange 1 2047 (natAt bs 3 2)) (first + 2)

/-- The Limit Table from its bytes; its fields are arguments 2 to 34. The stall threshold's upper limit here is the range
of ENGINE_SPEED (R29, R42, R80, R114, R126, R138). -/
def readLimits (bs : List Byte) : Except Nat Limits := do
  require (inRange 20 300 (natAt bs 0 2)) 2
  require (inRange 100 8000 (natAt bs 2 2)) 3
  require (inRange 200 1200 (natAt bs 4 2)) 4
  require (inRange 5 60 (natAt bs 6 1)) 5
  require (inRange 5 100 (natAt bs 7 1)) 6
  require (inRange 1 100 (natAt bs 8 1)) 7
  require (inRange 10 500 (natAt bs 9 2)) 8
  require (inRange 100 10000 (natAt bs 11 2)) 9
  require (inRange 10 5000 (natAt bs 13 2)) 10
  require (inRange 1000 8000 (natAt bs 15 2)) 11
  require (inRange 1 60 (natAt bs 17 1)) 12
  require (inRange (-40) 120 (intAt bs 18 1)) 13
  require (inRange 0 125 (natAt bs 19 1)) 14
  require (inRange 1 600 (natAt bs 20 2)) 15
  require (inRange 300 3000 (natAt bs 22 2)) 16
  require (inRange 0 125 (natAt bs 24 1)) 17
  require (inRange 1 60 (natAt bs 25 1)) 18
  require (inRange 1000 16777215 (natAt bs 26 4)) 19
  requireAbuse (bytesAt bs 30 5) 20
  requireAbuse (bytesAt bs 35 5) 23
  requireAbuse (bytesAt bs 40 5) 26
  requireAbuse (bytesAt bs 45 5) 29
  require (flagsOk (byteAt bs 50) 1) 32
  require (decide (natAt bs 51 2 ≤ 2048)) 33
  require (inRange 1 2047 (natAt bs 53 2)) 34
  return {
    crank := natAt bs 0 2
    stall := natAt bs 2 2
    run := natAt bs 4 2
    windowA := natAt bs 6 1
    windowB := natAt bs 7 1
    motion := natAt bs 8 1
    slip := natAt bs 9 2
    referenceTorque := natAt bs 11 2
    maximumAge := natAt bs 13 2
    overspeedSpeed := natAt bs 15 2
    overspeedDuration := natAt bs 17 1
    coldCoolant := intAt bs 18 1
    coldTorque := natAt bs 19 1
    coldDuration := natAt bs 20 2
    luggingSpeed := natAt bs 22 2
    luggingTorque := natAt bs 24 1
    luggingDuration := natAt bs 25 1
    hotEnergy := natAt bs 26 4
    abuse := Vector.ofFn fun i => readAbuseCapture (bytesAt bs (30 + 5 * i) 5)
    captTrigger := (byteAt bs 50).getLsbD 0
    captPre := natAt bs 51 2
    captPost := natAt bs 53 2 }

/-- One item of a table set as its bytes (R30, R192). -/
def TableSet.itemBytes (t : TableSet) (table item : Nat) : List Byte :=
  match table with
  | 0 => encodeFrameEntry (t.frames[item]?).join
  | 1 => encodeSignalEntry (t.signals[item]?).join
  | 2 => encodeRoleEntry (t.roles[item]?.getD {})
  | 3 => encodeBinRow (t.bins[item]?.getD BinRow.empty)
  | 4 => encodeWeightRow (t.weights[item]?.getD { cells := Vector.replicate 64 0, factors := Vector.replicate 4 16 })
  | 5 => beBytes 2 (t.ratios[item]?.getD 100)
  | 6 => encodeLimits t.limits
  | _ => []

/-- The set with one item replaced by the item its bytes give, or the index of the argument at fault (R29). -/
def TableSet.withItem (t : TableSet) (table item : Nat) (bs : List Byte) : Except Nat TableSet :=
  match table with
  | 0 => (readFrameEntry bs).map fun e => { t with frames := t.frames.setIfInBounds item e }
  | 1 => (readSignalEntry bs).map fun e => { t with signals := t.signals.setIfInBounds item e }
  | 2 => (readRoleEntry bs).map fun e => { t with roles := t.roles.setIfInBounds item e }
  | 3 => (readBinRow bs).map fun r => { t with bins := t.bins.setIfInBounds item r }
  | 4 => (readWeightRow bs).map fun r => { t with weights := t.weights.setIfInBounds item r }
  | 5 => (readRatio bs).map fun r => { t with ratios := t.ratios.setIfInBounds item r }
  | 6 => (readLimits bs).map fun l => { t with limits := l }
  | _ => .error 0

/-! ## Query setups (R191) -/

/-- The 18 bytes of a query setup. -/
def encodeQuery (q : QuerySetup) : List Byte :=
  [flagByte [isExtended q.queryFormat, isExtended q.replyFormat]] ++ beBytes 4 q.queryIdent.toNat ++
    padTo 8 q.queryBytes ++ beBytes 4 q.replyIdent.toNat ++ beBytes 1 q.offset

/-- A query setup from its 18 bytes. -/
def readQuery (bs : List Byte) : QuerySetup where
  queryFormat := formatOfBool ((byteAt bs 0).getLsbD 0)
  queryIdent := BitVec.ofNat 29 (natAt bs 1 4)
  queryBytes := bytesAt bs 5 8
  replyFormat := formatOfBool ((byteAt bs 0).getLsbD 1)
  replyIdent := BitVec.ofNat 29 (natAt bs 13 4)
  offset := natAt bs 17 1

/-- The checks of R62 on the bytes of a query setup that a request gives. -/
def queryOk (bs : List Byte) : Bool :=
  let queryFormat := formatOfBool ((byteAt bs 0).getLsbD 0)
  let replyFormat := formatOfBool ((byteAt bs 0).getLsbD 1)
  flagsOk (byteAt bs 0) 2 &&
    decide (natAt bs 1 4 ≤ identLimit queryFormat) && !isReserved queryFormat (natAt bs 1 4) &&
    decide (natAt bs 13 4 ≤ identLimit replyFormat) && !isReserved replyFormat (natAt bs 13 4) &&
    decide (natAt bs 17 1 ≤ 2)

/-- The kinds that may carry a query setup (R58). -/
def Kind.mayQuery : Kind → Bool
  | .engine | .gearbox | .retarder => true
  | _ => false

/-- Slots at most of a kind (R58). -/
def Kind.limit : Kind → Nat
  | .driveshaft | .pto => 2
  | .axle => 3
  | _ => 1

/-- The lengths a message of each code may have, lowest and highest; none for an unknown code (R191). -/
def codeLength : Nat → Option (Nat × Nat)
  | 0x01 | 0x02 | 0x05 | 0x06 | 0x10 | 0x21 | 0x22 | 0x23 | 0x28 | 0x34 | 0x38 | 0x39 | 0x48 => some (1, 1)
  | 0x03 | 0x11 | 0x12 | 0x14 | 0x16 | 0x17 | 0x18 => some (2, 2)
  | 0x07 | 0x09 | 0x4A => some (3, 3)
  | 0x04 | 0x20 | 0x30 | 0x31 | 0x32 | 0x33 => some (5, 5)
  | 0x08 => some (5, 135)
  | 0x13 => some (40, 40)
  | 0x15 => some (14, 14)
  | 0x19 => some (21, 21)
  | 0x40 => some (10, 10)
  | 0x41 => some (13, 13)
  | 0x49 => some (2, 11)
  | _ => none

/-- The message's length fits its code; a code the part does not know passes (R176, R191). Write Table's length must be 3
plus the item length of its table, for tables 0 to 6. -/
def lengthFits (msg : List Byte) : Bool :=
  match codeLength (byteAt msg 0).toNat with
  | none => true
  | some (low, high) =>
    decide (low ≤ msg.length) && decide (msg.length ≤ high) &&
      (byteAt msg 0 != 0x08 || decide (6 < (byteAt msg 1).toNat) ||
        msg.length == 3 + itemLength (byteAt msg 1).toNat)

end Sys2Proof.Machine
end

