-- ==== Sys2Proof/Machine/Layouts.lean ====
section
/-! DEFINITION. The layouts of stored records (R193, R194) and of what the medium holds besides: the table image, the
checkpoints and the capture headers, whose byte layouts are the model's (log 8). -/

namespace Sys2Proof.Machine

/-! ## The slot block (R194) -/

def serialBytes (s : Option Serial) : List Byte := beBytes 6 ((s.map BitVec.toNat).getD 0)

def serialAt (bs : List Byte) (offset : Nat) : Serial := BitVec.ofNat 48 (natAt bs offset 6)

def poolBytes (p : Pool) : List Byte :=
  beBytes 4 p.events ++ beBytes 4 p.time ++ beBytes 4 p.units ++ beBytes 2 p.residue ++ beBytes 4 p.unobserved

def poolAt (bs : List Byte) (offset : Nat) : Pool where
  events := natAt bs offset 4
  time := natAt bs (offset + 4) 4
  units := natAt bs (offset + 8) 4
  residue := natAt bs (offset + 12) 2
  unobserved := natAt bs (offset + 14) 4

/-- The count at offset 70: uncertain resumes of an ENGINE, failed starts of a STARTER. -/
def Component.kindCount (c : Component) : Nat :=
  match c.kind with
  | .engine => c.uncertain
  | .starter => c.failedStarts
  | _ => 0

/-- The slot block up to its spectrum generation: offsets 0 to 80. `pool` tells whether the block gives the held pool. An own
time T0 above 4,294,967,295 is taken modulo 2^32 in its 4 bytes. DESIGN CHOICE (log 35). -/
def slotBlockHead (slot : Nat) (c : Component) (pool : Bool) : List Byte :=
  beBytes 1 slot ++ beBytes 1 (if c.hold.isSome then 2 else 1) ++ beBytes 1 c.kind.num ++
    [flagByte [c.identity.isSome, c.query.isSome, c.hold.isSome, c.hold.isSome && pool, c.reference.isSome, c.regressed,
      c.saturated]] ++
    beBytes 1 c.verification.num ++ beBytes 1 c.silent ++ serialBytes c.identity ++
    (c.query.map encodeQuery).getD (List.replicate 18 0) ++ serialBytes (c.hold.map (·.reported)) ++
    beBytes 4 c.installClock ++ beBytes 4 c.events ++ beBytes 4 c.time ++ beBytes 4 c.units ++ beBytes 2 c.residue ++
    beBytes 4 c.unbinned ++ beBytes 4 c.unobserved ++ beBytes 4 ((c.reference.map (·.1)).getD 0) ++
    beBytes 4 ((c.reference.map (·.2)).getD 0) ++ beBytes 2 c.kindCount ++ encodeNats 2 c.abuse.toList ++
    beBytes 1 c.generation

/-- The slot block of 355 bytes of an occupied slot, with its held pool or without. -/
def slotBlock (slot : Nat) (c : Component) (pool : Bool) : List Byte :=
  slotBlockHead slot c pool ++ encodeNats 4 c.cells.toList ++
    poolBytes (if pool then (c.hold.map (·.pool)).getD {} else {})

/-- The slot block of a slot, occupied or EMPTY. -/
def slotBlockOf (slot : Nat) : Option Component → List Byte
  | some c => slotBlock slot c true
  | none => beBytes 1 slot ++ List.replicate 354 0

/-- The slot record from its block: absent for EMPTY or for numbers that name no state, kind or status. -/
def readSlotBlock (bs : List Byte) : Option Component := do
  let kind ← Kind.ofNat? (natAt bs 2 1)
  let verification ← Verification.ofNat? (natAt bs 4 1)
  let flags := byteAt bs 3
  if byteAt bs 1 ≠ 1 ∧ byteAt bs 1 ≠ 2 then
    none
  else
    some
      { kind
        identity := if flags.getLsbD 0 then some (serialAt bs 6) else none
        verification
        query := if flags.getLsbD 1 then some (readQuery (bytesAt bs 12 18)) else none
        hold := if byteAt bs 1 = 2 then some { reported := serialAt bs 30, pool := poolAt bs 337 } else none
        installClock := natAt bs 36 4
        events := natAt bs 40 4
        time := natAt bs 44 4
        units := natAt bs 48 4
        residue := natAt bs 52 2
        unbinned := natAt bs 54 4
        saturated := flags.getLsbD 6
        unobserved := natAt bs 58 4
        reference := if flags.getLsbD 4 then some (natAt bs 62 4, natAt bs 66 4) else none
        regressed := flags.getLsbD 5
        uncertain := if kind = .engine then natAt bs 70 2 else 0
        failedStarts := if kind = .starter then natAt bs 70 2 else 0
        abuse := natsAt bs 72 2 4
        generation := natAt bs 80 1
        cells := natsAt bs 81 4 64
        silent := natAt bs 5 1 }

/-! ## The hire record (R194) -/

def usageBytes (u : Usage) : List Byte :=
  beBytes 1 u.slot ++ beBytes 1 u.kind.num ++ [flagByte [u.serial.isSome, u.held]] ++ serialBytes u.serial ++
    beBytes 4 u.events ++ beBytes 4 u.time ++ beBytes 4 u.units ++ beBytes 2 u.residue ++ beBytes 4 u.unobserved

def readUsage (bs : List Byte) : Usage where
  slot := natAt bs 0 1
  kind := (Kind.ofNat? (natAt bs 1 1)).getD .engine
  serial := if (byteAt bs 2).getLsbD 0 then some (serialAt bs 3) else none
  held := (byteAt bs 2).getLsbD 1
  events := natAt bs 9 4
  time := natAt bs 13 4
  units := natAt bs 17 4
  residue := natAt bs 21 2
  unobserved := natAt bs 23 4

def abuseEntryBytes (e : AbuseEntry) : List Byte :=
  beBytes 1 e.kind.num ++ yesNo e.capture.isSome ++ encodeIndex e.slot ++ beBytes 4 e.clock ++ intBytes 4 e.magnitude ++
    beBytes 4 (e.capture.getD 0)

def readAbuseEntry (bs : List Byte) : AbuseEntry where
  kind := (Cause.ofNat? (natAt bs 0 1)).getD .overspeed
  capture := if (byteAt bs 1).getLsbD 0 then some (natAt bs 11 4) else none
  slot := readIndex (byteAt bs 2)
  clock := natAt bs 3 4
  magnitude := intAt bs 7 4

/-- The 591 bytes of a hire record's content. -/
def hireContent (h : HireRecord) : List Byte :=
  beBytes 4 h.number ++ beBytes 4 h.contract ++ beBytes 4 h.openClock ++ beBytes 4 ((h.close.map (·.clock)).getD 0) ++
    [flagByte [h.openSync, (h.close.map (·.sync)).getD false, h.openChannel == .service,
      (h.close.map (·.cause)) == some .service, h.overflow]] ++
    beBytes 1 h.usage.length ++ beBytes 1 h.abuseList.length ++ encodeNats 2 h.abuse.toList ++
    padTo 324 (h.usage.flatMap usageBytes) ++ padTo 240 (h.abuseList.flatMap abuseEntryBytes)

/-- A hire record from its content, as an open hire: without close fields. -/
def readOpenHire (bs : List Byte) : HireRecord where
  number := natAt bs 0 4
  contract := natAt bs 4 4
  openClock := natAt bs 8 4
  openSync := (byteAt bs 16).getLsbD 0
  openChannel := channelOfBool ((byteAt bs 16).getLsbD 2)
  usage := (List.range (natAt bs 17 1)).map fun i => readUsage (bytesAt bs (27 + 27 * i) 27)
  abuse := natsAt bs 19 2 4
  abuseList := (List.range (natAt bs 18 1)).map fun i => readAbuseEntry (bytesAt bs (351 + 15 * i) 15)
  overflow := (byteAt bs 16).getLsbD 4
  close := none

/-- Bytes of an archive record: four pages (R65, R111). -/
abbrev archiveSize : Nat := 1024

def hireRecordBytes (h : HireRecord) : List Byte := sealRecord archiveSize (hireContent h)

/-- Bytes of a hire record's content and of a component record's content (R194). -/
abbrev hireContentSize : Nat := 591
abbrev componentContentSize : Nat := 370

/-- The 370 bytes of a component record's content; the held pool is in it when the cause is REMOVED (R65). -/
def componentContent (r : ArchiveRecord) : List Byte :=
  beBytes 4 r.number ++ beBytes 1 r.cause.num ++ beBytes 4 r.clock ++ beBytes 6 r.successor.toNat ++
    slotBlock r.slot r.component (r.cause == .removed)

def componentRecordBytes (r : ArchiveRecord) : List Byte := sealRecord archiveSize (componentContent r)

/-- A component record from its content. -/
def readComponentRecord (bs : List Byte) : Option ArchiveRecord := do
  let cause ← ArchiveCause.ofNat? (natAt bs 4 1)
  let component ← readSlotBlock (bs.drop 15)
  some
    { number := natAt bs 0 4, cause, clock := natAt bs 5 4, successor := serialAt bs 9, slot := natAt bs 15 1,
      component }

/-! ## Checkpoints (R152, R157, R160; byte layout: log 8) -/

/-- The tag bytes of a checkpoint's pages: header and body. -/
abbrev tagHeader : Byte := 0x48
abbrev tagBody : Byte := 0x42

abbrev kindFull : Nat := 0
abbrev kindShort : Nat := 1

/-- A numbering in four bytes: EXHAUSTED, one above the last number, as 0. -/
def numberBytes (n : Nat) : List Byte := beBytes 4 n

def numberAt (bs : List Byte) (offset : Nat) : Nat :=
  if natAt bs offset 4 = 0 then exhausted else natAt bs offset 4

/-- The body pages of a checkpoint: each a tag, the sequence and 251 bytes. -/
def bodyPages (sequence : Nat) : Nat → List Byte → List Byte
  | 0, _ => []
  | n + 1, bs => [tagBody] ++ beBytes 4 sequence ++ padTo 251 (bs.take 251) ++ bodyPages sequence n (bs.drop 251)

/-- All pages of a checkpoint: the header page with sequence, kind, page count and cause, then the body pages, closed by
the check word. -/
def checkpointBytes (kind sequence count cause : Nat) (payload : List Byte) : List Byte :=
  sealRecord (pageSize * count)
    ([tagHeader] ++ beBytes 4 sequence ++ beBytes 1 kind ++ beBytes 1 count ++ beBytes 1 cause ++
      padTo 248 (payload.take 248) ++ bodyPages sequence (count - 1) (payload.drop 248))

/-- The payload of a checkpoint's body pages. -/
def bodyPayload : Nat → List Byte → List Byte
  | 0, _ => []
  | n + 1, bs => bytesAt bs 5 251 ++ bodyPayload n (bs.drop pageSize)

/-- The payload of a checkpoint. -/
def checkpointPayload (count : Nat) (bs : List Byte) : List Byte :=
  bytesAt bs 8 248 ++ bodyPayload (count - 1) (bs.drop pageSize)

/-- Every body page carries its tag and the sequence. -/
def bodyTagsOk (sequence : Nat) : Nat → List Byte → Bool
  | 0, _ => true
  | n + 1, bs => byteAt bs 0 == tagBody && natAt bs 1 4 == sequence && bodyTagsOk sequence n (bs.drop pageSize)

/-- The header fields of a ring page: sequence, kind, page count and cause, when its tag marks it as a header of a
FULL checkpoint of 20 pages or a SHORT one of 4 (R152). -/
def headerOf (page : List Byte) : Option (Nat × Nat × Nat × Nat) :=
  let kind := natAt page 5 1
  let count := natAt page 6 1
  if byteAt page 0 = tagHeader ∧ ((kind = kindFull ∧ count = fullPages) ∨ (kind = kindShort ∧ count = shortPages)) then
    some (natAt page 1 4, kind, count, natAt page 7 1)
  else none

/-- The checkpoint's pages agree with their tags and the check word (R152). -/
def checkpointValid (sequence count : Nat) (bs : List Byte) : Bool :=
  recordValid (pageSize * count) bs && bodyTagsOk sequence (count - 1) (bs.drop pageSize)

def captureFlagBytes (c : Nat × Bool × Bool) : List Byte := beBytes 4 c.1 ++ [flagByte [c.2.1, c.2.2]]

/-- The payload of a full checkpoint (R157). -/
def snapshotPayload (s : Snapshot) : List Byte :=
  (slotNumbers.flatMap fun n => slotBlockOf n (s.slots[n]?).join) ++ yesNo s.hire.isSome ++
    padTo hireContentSize ((s.hire.map hireContent).getD []) ++ beBytes 1 s.queue.length ++
    padTo 32 (encodeNats 4 s.queue) ++ yesNo s.dropped ++ numberBytes s.nextHire ++ beBytes 4 s.newestHire ++
    numberBytes s.nextArchive ++ numberBytes s.nextCapture ++ s.captures.toList.flatMap captureFlagBytes ++
    beBytes 1 s.mode.num ++ beBytes 4 s.clock ++ yesNo s.sync

/-- A full checkpoint's content from its payload: twelve slot blocks, then the rest from offset 4,260. -/
def readSnapshot (bs : List Byte) : Snapshot :=
  let rest := bs.drop 4260
  { slots := Vector.ofFn fun i => readSlotBlock (bytesAt bs (355 * i) 355)
    hire := if (byteAt rest 0).getLsbD 0 then some (readOpenHire (bytesAt rest 1 hireContentSize)) else none
    queue := (List.range (natAt rest 592 1)).map fun i => natAt rest (593 + 4 * i) 4
    dropped := (byteAt rest 625).getLsbD 0
    nextHire := numberAt rest 626
    newestHire := natAt rest 630 4
    nextArchive := numberAt rest 634
    nextCapture := numberAt rest 638
    captures := Vector.ofFn fun i =>
      (natAt rest (642 + 5 * i) 4, (byteAt rest (646 + 5 * i)).getLsbD 0, (byteAt rest (646 + 5 * i)).getLsbD 1)
    mode := (Mode.ofNat? (natAt rest 682 1)).getD .setup
    clock := natAt rest 683 4
    sync := (byteAt rest 687).getLsbD 0 }

/-- One slot's 47 bytes of a short checkpoint. -/
def shortSlotBytes : Option ShortSlot → List Byte
  | none => List.replicate 47 0
  | some s =>
    [flagByte [true, s.pool.isSome]] ++ beBytes 1 s.kind.num ++ beBytes 1 s.generation ++ beBytes 4 s.installClock ++
      beBytes 4 s.events ++ beBytes 4 s.time ++ beBytes 4 s.units ++ beBytes 2 s.residue ++ beBytes 4 s.unbinned ++
      beBytes 4 s.unobserved ++ poolBytes (s.pool.getD {})

def readShortSlot (bs : List Byte) : Option ShortSlot := do
  let kind ← Kind.ofNat? (natAt bs 1 1)
  if (byteAt bs 0).getLsbD 0 then
    some
      { kind
        generation := natAt bs 2 1
        installClock := natAt bs 3 4
        events := natAt bs 7 4
        time := natAt bs 11 4
        units := natAt bs 15 4
        residue := natAt bs 19 2
        unbinned := natAt bs 21 4
        unobserved := natAt bs 25 4
        pool := if (byteAt bs 0).getLsbD 1 then some (poolAt bs 29) else none }
  else none

def shortUsageBytes (u : ShortUsage) : List Byte :=
  beBytes 1 u.slot ++ yesNo u.held ++ beBytes 4 u.events ++ beBytes 4 u.time ++ beBytes 4 u.units ++
    beBytes 2 u.residue ++ beBytes 4 u.unobserved

def readShortUsage (bs : List Byte) : ShortUsage where
  slot := natAt bs 0 1
  held := (byteAt bs 1).getLsbD 0
  events := natAt bs 2 4
  time := natAt bs 6 4
  units := natAt bs 10 4
  residue := natAt bs 14 2
  unobserved := natAt bs 16 4

def shortHireBytes (h : ShortHire) : List Byte :=
  beBytes 4 h.number ++ beBytes 4 h.contract ++ beBytes 4 h.openClock ++
    [flagByte [h.openSync, h.openChannel == .service]] ++ beBytes 1 h.usage.length ++
    padTo 240 (h.usage.flatMap shortUsageBytes)

def readShortHire (bs : List Byte) : ShortHire where
  number := natAt bs 0 4
  contract := natAt bs 4 4
  openClock := natAt bs 8 4
  openSync := (byteAt bs 12).getLsbD 0
  openChannel := channelOfBool ((byteAt bs 12).getLsbD 1)
  usage := (List.range (natAt bs 13 1)).map fun i => readShortUsage (bytesAt bs (14 + 20 * i) 20)

/-- The payload of a short checkpoint (R160). -/
def shortPayload (s : ShortImage) : List Byte :=
  s.slots.toList.flatMap shortSlotBytes ++ yesNo s.hire.isSome ++ padTo 254 ((s.hire.map shortHireBytes).getD []) ++
    numberBytes s.nextHire ++ beBytes 4 s.clock

/-- A short checkpoint's content from its payload. -/
def readShortImage (bs : List Byte) : ShortImage where
  slots := Vector.ofFn fun i => readShortSlot (bytesAt bs (47 * i) 47)
  hire := if (byteAt bs 564).getLsbD 0 then some (readShortHire (bytesAt bs 565 254)) else none
  nextHire := numberAt bs 819
  clock := natAt bs 823 4

/-! ## The table image (R152; byte layout: log 8) -/

/-- Pages of the table image (R27). -/
abbrev imagePages : Nat := 32

/-- The items of one table, in index order. -/
def TableSet.tableBytes (t : TableSet) (table : Nat) : List Byte :=
  (List.range (itemCount table)).flatMap fun i => t.itemBytes table i

/-- The image: every item of the seven tables in order, closed by the check word in page 31. -/
def imageBytes (t : TableSet) : List Byte :=
  sealRecord (pageSize * imagePages) ((List.range 7).flatMap t.tableBytes)

/-- The item of a table in the image. -/
def imageItem (bs : List Byte) (start table item : Nat) : List Byte :=
  bytesAt bs (start + itemLength table * item) (itemLength table)

/-- The table set of an image. -/
def readImage (bs : List Byte) : TableSet where
  frames := Vector.ofFn fun i => ((readFrameEntry (imageItem bs 0 0 i)).toOption).join
  signals := Vector.ofFn fun i => ((readSignalEntry (imageItem bs 448 1 i)).toOption).join
  roles := Vector.ofFn fun i => ((readRoleEntry (imageItem bs 1456 2 i)).toOption).getD {}
  bins := Vector.ofFn fun i => ((readBinRow (imageItem bs 1476 3 i)).toOption).getD BinRow.empty
  weights := Vector.ofFn fun i =>
    ((readWeightRow (imageItem bs 2020 4 i)).toOption).getD
      { cells := Vector.replicate 64 0, factors := Vector.replicate 4 16 }
  ratios := Vector.ofFn fun i => ((readRatio (imageItem bs 3076 5 i)).toOption).getD 100
  limits := ((readLimits (bytesAt bs 3114 55)).toOption).getD {}

/-! ## Capture pages (R136, R193) -/

/-- The content of a capture header page: the directory fields, or state FREE (log 8). -/
def captureHeaderContent : Option CaptureEntry → List Byte
  | none => [0]
  | some e =>
    beBytes 1 e.state.num ++ beBytes 4 e.number ++ beBytes 1 e.cause.num ++ [flagByte [e.sync, e.locked, e.read]] ++
      beBytes 4 e.clock ++ beBytes 4 e.ringTime.toNat ++ beBytes 4 e.seq.toNat ++ beBytes 2 e.preAsked ++
      beBytes 2 e.postAsked ++ beBytes 2 e.available ++ beBytes 2 e.stored ++ beBytes 2 e.lost

/-- A capture header page with its own check word. -/
def captureHeaderBytes (e : Option CaptureEntry) : List Byte := sealRecord pageSize (captureHeaderContent e)

/-- The directory entry of a header page; its locked and read flags are the checkpoint's to give (R151). -/
def readCaptureHeader (bs : List Byte) : Option CaptureEntry := do
  let state ← CaptureState.ofNat? (natAt bs 0 1)
  let cause ← Cause.ofNat? (natAt bs 5 1)
  some
    { number := natAt bs 1 4
      cause
      clock := natAt bs 7 4
      sync := (byteAt bs 6).getLsbD 0
      ringTime := BitVec.ofNat 32 (natAt bs 11 4)
      seq := BitVec.ofNat 32 (natAt bs 15 4)
      preAsked := natAt bs 19 2
      postAsked := natAt bs 21 2
      available := natAt bs 23 2
      stored := natAt bs 25 2
      lost := natAt bs 27 2
      state
      locked := false
      read := false }

/-- The first sequence of an entry's window: S less the available pre (R139). -/
def CaptureEntry.first (e : CaptureEntry) : Word32 := e.seq - BitVec.ofNat 32 e.available

/-- The time field of a stored frame: arrival less trigger time in ms, held within −32,768 to 32,767 (R193). Both are the
part's milliseconds, so that it holds however far the arrival lies back (log 18). -/
def timeOffset (receivedAt takenAt : Nat) : Int := max (-32768) (min 32767 ((receivedAt : Int) - takenAt))

/-- The identifier word of a stored frame: identifier, bit 29 EXTENDED, the two check bits in 31 and 30 (R193). -/
def identWord (f : Frame) (check : Nat) : Nat :=
  f.ident.toNat + (if isExtended f.format then 536870912 else 0) + check * 1073741824

/-- A stored frame record of 16 bytes, with its two check bits (R193); `takenAt` is the moment of the trigger. -/
def frameRecordBytes (e : CaptureEntry) (takenAt : Nat) (r : RingRecord) (check : Nat) : List Byte :=
  beBytes 2 (r.frame.data.length * 4096 + (r.sequence - e.first).toNat % 4096) ++
    intBytes 2 (timeOffset r.receivedAt takenAt) ++ beBytes 4 (identWord r.frame check) ++ padTo 8 r.frame.data

/-- An unused place: length 15 and zero bytes, apart from the check bits (R193). -/
def unusedPlace (check : Nat) : List Byte :=
  beBytes 2 61440 ++ beBytes 2 0 ++ beBytes 4 (check * 1073741824) ++ beBytes 8 0

/-- The 16 places of a frame page, with the check bits of a check word: place k carries bits 31 − 2k and 30 − 2k. -/
def framePlaces (e : CaptureEntry) (takenAt : Nat) (records : List RingRecord) (word : Nat) : List Byte :=
  (List.range 16).flatMap fun k =>
    let check := word / 4 ^ (15 - k) % 4
    match records[k]? with
    | some r => frameRecordBytes e takenAt r check
    | none => unusedPlace check

/-- A frame page: its check word covers the page with the check bits taken as 0 (R193, R194). -/
def framePageBytes (e : CaptureEntry) (takenAt : Nat) (records : List RingRecord) : List Byte :=
  framePlaces e takenAt records (crc32 (framePlaces e takenAt records 0))

/-- The check word a frame page carries. -/
def framePageWord (bs : List Byte) : Nat :=
  (List.range 16).foldl (fun acc k => acc * 4 + natAt bs (16 * k + 4) 4 / 1073741824) 0

/-- A frame page with its check bits taken as 0. -/
def clearCheckBits (bs : List Byte) : List Byte :=
  (List.range 16).flatMap fun k =>
    bytesAt bs (16 * k) 4 ++ beBytes 4 (natAt bs (16 * k + 4) 4 % 1073741824) ++ bytesAt bs (16 * k + 8) 8

def framePageValid (bs : List Byte) : Bool := crc32 (clearCheckBits bs) == framePageWord bs

/-- The 23-byte entry that Read Records makes of a stored frame record (R193). -/
def frameEntryBytes (e : CaptureEntry) (record : List Byte) : List Byte :=
  let word := natAt record 0 2
  let offset := intAt record 2 2
  let ident := natAt record 4 4
  beBytes 1 0 ++ beBytes 4 (e.first + BitVec.ofNat 32 (word % 4096)).toNat ++
    beBytes 4 (e.ringTime + BitVec.ofInt 32 offset).toNat ++
    [flagByte [ident / 536870912 % 2 == 1, offset == -32768]] ++ beBytes 4 (ident % 536870912) ++
    beBytes 1 (word / 4096) ++ bytesAt record 8 8

end Sys2Proof.Machine
end

