-- ==== Sys2Proof/Machine/Flags.lean ====
section
/-! DEFINITION. The condition set with its mask (R180 to R183) and the status frame that shows it (R184, R191). -/

namespace Sys2Proof.Machine

/-- A slot is HELD. -/
def Component.held (c : Component) : Bool := c.hold.isSome

/-- At least one slot is HELD: the cause of IDENTITY_MISMATCH (R70). -/
def Register.anyHeld (r : Register) : Bool := r.slots.toList.any fun s => s.any (·.held)

/-- At least one slot's silent-cycle count is 5 or more: the cause of IDENTITY_SILENT (R70). -/
def Register.anySilent (r : Register) : Bool := r.slots.toList.any fun s => s.any fun c => decide (5 ≤ c.silent)

/-- A condition, by its number, is in the set: a latched one as it was raised, a standing one while its cause holds
(R180). -/
def Part.condition (p : Part) : Nat → Bool
  | 1 => p.storage.fault
  | 2 => p.link.tableInvalid
  | 3 => p.register.anyHeld
  | 4 => p.register.anySilent
  | 5 => p.link.roleLost
  | 6 => p.link.supplyGap
  | 7 => p.link.forwardOverrun
  | 8 => p.link.captureReady
  | 9 => !p.hire.queue.isEmpty
  | 10 => !p.modeCtl.sync
  | _ => false

/-- The condition is standing, not latched (R180). -/
def conditionStanding (c : Nat) : Bool := c == 1 || c == 3 || c == 4 || c == 9 || c == 10

/-- The condition numbers in priority order (R180). -/
def conditionNumbers : List Nat := [1, 2, 3, 4, 5, 6, 7, 8, 9, 10]

/-- The mask's flag of a condition (R183). -/
def Link.masked (l : Link) (c : Nat) : Bool := l.mask.getLsbD (c - 1)

/-- The condition set in priority order. -/
def Part.conditions (p : Part) : List Nat := conditionNumbers.filter p.condition

/-- The conditions in the set that are not masked. -/
def Part.shown (p : Part) : List Nat := p.conditions.filter fun c => !p.link.masked c

/-- Acknowledging a condition clears a latched one; a standing one stays while its cause holds (R182). -/
def Link.acknowledge (l : Link) (c : Nat) : Link :=
  match c with
  | 2 => { l with tableInvalid := false }
  | 5 => { l with roleLost := false }
  | 6 => { l with supplyGap := false }
  | 7 => { l with forwardOverrun := false }
  | 8 => { l with captureReady := false }
  | _ => l

/-- Acknowledging a list of conditions (R182). -/
def Link.acknowledgeAll (l : Link) (cs : List Nat) : Link := cs.foldl Link.acknowledge l

/-- The 8 data bytes of the status frame (R184, R191). -/
def statusBytes (p : Part) : List Byte :=
  beBytes 1 p.modeCtl.mode.num ++
    [flagByte [p.modeCtl.ignition, p.modeCtl.sync, p.hire.current.isSome, p.hire.dropped]] ++
    beBytes 1 p.detector.engine.num ++ beBytes 1 (p.shown.headD 0) ++ beBytes 1 p.shown.length ++
    beBytes 2 ((p.hire.current.map (·.number)).getD 0) ++ beBytes 1 p.hire.queue.length

/-- The status frame on 0x6E9. -/
def statusFrame (p : Part) : Frame where
  format := .base
  ident := 0x6E9
  data := statusBytes p

end Sys2Proof.Machine
end

