-- ==== Sys2Proof/Machine/Register.lean ====
section
/-! DEFINITION. Credits: the Component Register applies a producer's credit to a slot's figures or held pool (R59, R60)
and mirrors it into the open hire (R61, R104); the merge of a pool (R74, R75) and the fold of a spectrum (R99). -/

namespace Sys2Proof.Machine

/-- Where a credit stands in the spectrum (R59). -/
inductive Placement where
  | nowhere
  | cell (index count : Nat)
  | unbinned (count : Nat)
  deriving DecidableEq, Repr

/-- The amounts of a credit (R59). -/
structure Credit where
  events : Nat := 0
  time : Nat := 0
  place : Placement := .nowhere
  wear : Nat := 0
  unobserved : Nat := 0
  deriving DecidableEq, Repr

/-- An addition would carry a 32-bit figure past its limit (R89). -/
def passes (a b : Nat) : Bool := decide (max32 < a + b)

/-- The named cell, or unbinned, rises by the count given for it (R59). -/
def Component.place (c : Component) : Placement → Component
  | .nowhere => c
  | .cell i n =>
    let old := c.cells[i]?.getD 0
    { c with cells := c.cells.setIfInBounds i (addSat max32 old n), saturated := c.saturated || passes old n }
  | .unbinned n =>
    { c with unbinned := addSat max32 c.unbinned n, saturated := c.saturated || passes c.unbinned n }

/-- A credit to the figures of a COUNTING slot, each saturating by itself and setting SATURATED (R59, R88, R89). -/
def Component.creditFigures (c : Component) (a : Credit) : Component :=
  let wear := addWear c.units c.residue a.wear
  ({ c with
      events := addSat max32 c.events a.events
      time := addSat max32 c.time a.time
      units := wear.1
      residue := wear.2.1
      unobserved := addSat max32 c.unobserved a.unobserved
      saturated := c.saturated || passes c.events a.events || passes c.time a.time || wear.2.2 ||
        passes c.unobserved a.unobserved }).place a.place

/-- A credit to the held pool; its cell and unbinned parts are not kept (R60). -/
def Pool.credit (q : Pool) (a : Credit) : Pool :=
  let wear := addWear q.units q.residue a.wear
  { events := addSat max32 q.events a.events
    time := addSat max32 q.time a.time
    units := wear.1
    residue := wear.2.1
    unobserved := addSat max32 q.unobserved a.unobserved }

/-- A credit to a slot's record: to the figures while COUNTING, to the pool while HELD (R59, R60). -/
def Component.credit (c : Component) (a : Credit) : Component :=
  match c.hold with
  | none => c.creditFigures a
  | some h => { c with hold := some { h with pool := h.pool.credit a } }

/-- A new usage entry for a slot (R103). -/
def Usage.new (n : Nat) (c : Component) : Usage := { slot := n, kind := c.kind, serial := c.identity }

/-- A credit handed over to a usage entry: the amounts, the held flag and the identity it carries (R104). -/
def Usage.credit (u : Usage) (c : Component) (a : Credit) : Usage :=
  let wear := addWear u.units u.residue a.wear
  { u with
    serial := c.identity
    events := addSat max32 u.events a.events
    time := addSat max32 u.time a.time
    units := wear.1
    residue := wear.2.1
    held := u.held || c.held
    unobserved := addSat max32 u.unobserved a.unobserved }

/-- A usage list with the entry of a slot changed, or added in slot order when the list has none (R103). -/
def updateUsage (n : Nat) (new : Usage) (f : Usage → Usage) : List Usage → List Usage
  | [] => [f new]
  | u :: rest =>
    if u.slot = n then f u :: rest
    else if n < u.slot then f new :: u :: rest
    else u :: updateUsage n new f rest

/-- Hire Accounting applies a credit to the open hire's entry of the slot (R61, R104). -/
def Hire.credit (h : Hire) (n : Nat) (c : Component) (a : Credit) : Hire :=
  { h with
    current := h.current.map fun r =>
      { r with usage := updateUsage n (Usage.new n c) (fun u => u.credit c a) r.usage } }

/-- A producer's credit to a slot; a credit to an EMPTY slot is not made (R59, R61). -/
def creditSlot (n : Nat) (a : Credit) (p : Part) : Part :=
  match p.slot n with
  | none => p
  | some c => { p.setSlot n (some (c.credit a)) with hire := p.hire.credit n c a }

/-! ## Sums of starting figures and pools (R63, R73, R74) -/

/-- A figure is at its 32-bit limit. -/
def atLimit (v : Nat) : Bool := decide (max32 ≤ v)

/-- What a kind counts in its spectrum and unbinned: seconds for a continuous kind, events for STARTER and CLUTCH. -/
def Kind.share (k : Kind) (events time : Nat) : Nat := if k.continuous then time else events

/-- The sum of a component's figures is at a limit (R63, R73, R74). -/
def Component.anyLimit (c : Component) : Bool :=
  atLimit c.events || atLimit c.time || atLimit c.unbinned || atLimit c.unobserved || decide (wearLimit ≤ c.units)

/-- The pool merges into the figures: sums with carry, unbinned rising by the pool's time or events, SATURATED when a sum
reaches its limit (R74, R75). -/
def Component.mergePool (c : Component) (q : Pool) : Component :=
  let wear := addWear c.units (c.residue + q.residue) (wearUnit * q.units)
  let merged : Component :=
    { c with
      events := addSat max32 c.events q.events
      time := addSat max32 c.time q.time
      units := wear.1
      residue := wear.2.1
      unbinned := addSat max32 c.unbinned (c.kind.share q.events q.time)
      unobserved := addSat max32 c.unobserved q.unobserved }
  { merged with saturated := c.saturated || merged.anyLimit }

/-- A new component's record from its starting figures (R63); the wear residue is 15,999 at the units' limit. -/
def Component.starting (kind : Kind) (identity : Option Serial) (query : Option QuerySetup)
    (events time units clock : Nat) : Component :=
  let fresh : Component :=
    { kind, identity, query
      verification := if query.isSome then .pending else .notApplicable
      hold := none
      installClock := clock
      events, time, units
      residue := if units = wearLimit then wearUnit - 1 else 0
      unbinned := kind.share events time
      saturated := false
      unobserved := 0
      reference := none
      regressed := false
      uncertain := 0
      failedStarts := 0
      abuse := Vector.replicate 4 0
      cells := Vector.replicate 64 0
      generation := 0
      silent := 0 }
  { fresh with saturated := fresh.anyLimit }

/-- The new component of Confirm Change: the starting figures with the pool as its first usage, so with no residue but the
pool's, the successor serial, and the marks counted during the write (R73). -/
def Component.confirmed (old : Component) (successor : Serial) (events time units clock : Nat) (marks : Vector Nat 4) :
    Component :=
  let base := Component.starting old.kind (some successor) old.query events time units clock
  let merged := ({ base with residue := 0 } : Component).mergePool ((old.hold.map (·.pool)).getD {})
  { merged with verification := .verified, abuse := marks }

/-- Sum of a spectrum's cells. -/
def Component.cellSum (c : Component) : Nat := c.cells.toList.sum

/-- The spectrum folds into unbinned and its generation advances (R99). -/
def Component.fold (c : Component) : Component :=
  { c with
    unbinned := addSat max32 c.unbinned c.cellSum
    cells := Vector.replicate 64 0
    generation := (c.generation + 1) % 256 }

/-- The slot becomes EMPTY: its running flag is cleared, its queue entry removed, a verification in hand for it
abandoned (R64, R69, R86). -/
def emptySlot (n : Nat) (p : Part) : Part :=
  let p := p.setSlot n none
  { p with
    register := { p.register with
      pollQueue := p.register.pollQueue.filter (· ≠ n)
      inHand := if p.register.inHand.any (·.slot == n) then none else p.register.inHand }
    wear := { p.wear with running := p.wear.running.setIfInBounds n false } }

/-- A slot joins the poller queue in ascending slot order, at most once; queuing makes a COUNTING slot PENDING (R66). -/
def insertSlot (n : Nat) : List Nat → List Nat
  | [] => [n]
  | k :: rest => if n < k then n :: k :: rest else if n = k then k :: rest else k :: insertSlot n rest

/-- Queue a slot with a query setup for verification; a slot already in the queue is left as it is (R66, R71). -/
def queueVerification (n : Nat) (p : Part) : Part :=
  match p.slot n with
  | some c =>
    if c.query.isSome ∧ n ∉ p.register.pollQueue then
      let p := { p with register := { p.register with pollQueue := insertSlot n p.register.pollQueue } }
      if c.held then p else p.setSlot n (some { c with verification := .pending })
    else p
  | none => p

/-- Queue every slot that has a query setup (R54, R71). -/
def queueAll (p : Part) : Part := slotNumbers.foldl (fun p n => queueVerification n p) p

end Sys2Proof.Machine
end

