-- ==== Sys2Proof/Machine/CaptureUnit.lean ====
section
/-! DEFINITION. The Capture Unit: triggers, the start of a capture, the copier and the close (chapter 8). -/

namespace Sys2Proof.Machine

/-- Frame records to a page, and to an entry (R136). -/
abbrev framesPerPage : Nat := 16
abbrev entryFrames : Nat := 4080

/-- The outcome of a trigger, as Capture Now reports it (R147). -/
inductive TriggerOutcome where
  | started (number : Nat)
  | waiting (position : Nat)
  | missed
  deriving DecidableEq, Repr

/-- A directory entry. -/
def Capture.entry (c : Capture) (e : Nat) : Option CaptureEntry := (c.entries[e]?).join

/-- The entry holding a capture number. -/
def Capture.entryOf (c : Capture) (number : Nat) : Option Nat :=
  (List.range 8).find? fun e => (c.entry e).any (·.number == number)

/-- A change to one entry that is not FREE. -/
def Capture.mapEntry (c : Capture) (e : Nat) (f : CaptureEntry → CaptureEntry) : Capture :=
  { c with entries := c.entries.setIfInBounds e ((c.entry e).map f) }

/-- A capture is OPEN (R136). -/
def Capture.anyOpen (c : Capture) : Bool := c.entries.toList.any fun e => e.any (·.state == .opened)

/-- The cursor has passed the window end (R142), in the ring's order of sequences (R121). -/
def Copier.passed (k : Copier) (r : Ring) : Bool := decide (r.distance k.windowEnd < r.distance k.cursor)

/-- The copier takes records from the ring into the buffer in sequence order while it may (R142); the first argument
bounds the records taken by the buffer's size. -/
def copierTake : Nat → Ring → Copier → Copier
  | 0, _, k => k
  | n + 1, r, k =>
    if k.pageAsked || decide (framesPerPage ≤ k.buffer.length) || k.passed r then k
    else
      match r.find k.cursor with
      | none => k
      | some rec => copierTake n r { k with buffer := k.buffer ++ [rec], cursor := k.cursor + 1 }

/-- The capture-level operation that the copier asks for after taking records: a frame page when the buffer is full or
the window is done with, the final header when nothing is left to write (R142, R145). -/
def copierAsk (k : Copier) (r : Ring) : Option CaptureJob :=
  if k.pageAsked || k.finalAsked then none
  else if decide (framesPerPage ≤ k.buffer.length) || (k.passed r && !k.buffer.isEmpty) then some (.framePage k.entry)
  else if k.passed r then some (.finalHeader k.entry)
  else none

/-- The state the entry takes at its close: TRUNCATED when a frame was lost, else COMPLETE (R145). -/
def CaptureEntry.finalState (e : CaptureEntry) : CaptureState := if 0 < e.lost then .truncated else .complete

/-- A capture-level operation waits at the arbiter. -/
def askCapture (j : CaptureJob) (p : Part) : Part :=
  p.setStorage { p.storage with captureJobs := p.storage.captureJobs ++ [j] }

/-- The copier goes on after any event that may let it: takes records, then asks for a page or the final header. -/
def copierRun (p : Part) : Part :=
  match p.capture.copier with
  | none => p
  | some k =>
    let k := copierTake framesPerPage p.ring k
    match copierAsk k p.ring with
    | none => { p with capture := { p.capture with copier := some k } }
    | some j =>
      let k := match j with
        | .framePage _ => { k with pageAsked := true }
        | _ => { k with finalAsked := true }
      askCapture j { p with capture := { p.capture with copier := some k } }

/-- A trigger with the drive flag has the part pull CAPT low for 50 ms and restarts a running drive timer; a capture without
the flag leaves the timer as it is (R141). DESIGN CHOICE (log 37). -/
def driveCapt (drive : Bool) (c : Capture) : Capture := if drive then { c with driveTimer := some 50 } else c

/-- The window end is cut to the ring's next sequence less 1, unless it already stands lower (R144). -/
def cutWindow (r : Ring) (k : Copier) : Copier :=
  if r.distance (r.next - 1) < r.distance k.windowEnd then { k with windowEnd := r.next - 1 } else k

/-- The entry a capture chooses: the lowest FREE one, else the unlocked closed one with the lowest capture number
(R141). -/
def Capture.choose (c : Capture) : Option Nat :=
  match (List.range 8).find? fun e => (c.entry e).isNone with
  | some e => some e
  | none =>
    let usable := (List.range 8).filter fun e => (c.entry e).any fun x => !x.locked && x.state != .opened
    usable.foldl (fun best e =>
      match best with
      | none => some e
      | some b =>
        if ((c.entry e).map (·.number)).getD 0 < ((c.entry b).map (·.number)).getD 0 then some e else some b) none

/-- The entry a trigger's capture fills (R141). -/
def Trigger.entry (t : Trigger) (number lost : Nat) : CaptureEntry where
  number := number
  cause := t.cause
  clock := t.clock
  sync := t.sync
  ringTime := t.ringTime
  seq := t.seq
  preAsked := t.preAsked
  postAsked := t.postAsked
  available := t.available
  stored := 0
  lost := lost
  state := .opened
  locked := false
  read := false

/-- Hire Accounting writes a capture number into the abuse entry a mark reference names, provided the open hire has that
number (R118). -/
def Hire.nameCapture (h : Hire) (mark : Option (Nat × Nat)) (number : Nat) : Hire :=
  match mark with
  | none => h
  | some (hireNumber, position) =>
    { h with
      current := h.current.map fun r =>
        if r.number = hireNumber then
          { r with abuseList := r.abuseList.modify position fun e => { e with capture := some number } }
        else r }

/-- A trigger is missed (R140, R141). -/
def missTrigger (p : Part) : Part :=
  { p with capture := { p.capture with missed := addSat max16 p.capture.missed 1 } }

/-- What remains of the 10 s from the trigger (R141). -/
def Trigger.remaining (t : Trigger) (now : Nat) : Nat := 10000 - (now - t.takenAt)

/-- A capture starts for a trigger in an entry (R141, R143): the entry is filled as OPEN, frames of the window that have
left the ring are lost, the post timeout starts with what remains of it, and the header page is asked for. -/
def startIn (e : Nat) (t : Trigger) (p : Part) : Part :=
  let r := p.ring
  let number := p.capture.nextNumber
  let first := t.seq - BitVec.ofNat 32 t.available
  let windowEnd := t.seq + BitVec.ofNat 32 t.postAsked - 1
  let late := r.distance first < r.distance r.oldest
  let span := (r.distance windowEnd - r.distance first + 1).toNat
  let lost := if late then min (r.distance r.oldest - r.distance first).toNat span else 0
  let copier : Copier :=
    { entry := e, takenAt := t.takenAt, cursor := if late then r.oldest else first, windowEnd, buffer := [], pageAsked := false,
      finalAsked := false }
  let left := t.remaining p.now
  let capture := driveCapt t.drive
    { p.capture with
      entries := p.capture.entries.setIfInBounds e (some (t.entry number lost))
      nextNumber := number + 1
      copier := some (if left = 0 then cutWindow r copier else copier)
      postTimeout := if left = 0 then none else some left }
  copierRun (askCapture (.openHeader e) { p with capture, hire := p.hire.nameCapture t.mark number })

/-- A trigger's capture starts, or is missed when the numbers are EXHAUSTED or every entry is locked (R141). -/
def startCapture (t : Trigger) (p : Part) : Part × TriggerOutcome :=
  if p.capture.nextNumber = exhausted then (missTrigger p, .missed)
  else
    match p.capture.choose with
    | none => (missTrigger p, .missed)
    | some e => (startIn e t p, .started p.capture.nextNumber)

/-- The trigger record of this moment (R137, R139): the available pre is the smallest of the pre asked, the ring's fill
and 4,080 less the post asked. -/
def triggerRecord (cause : Cause) (pre post : Nat) (drive : Bool) (mark : Option (Nat × Nat)) (p : Part) : Trigger where
  cause := cause
  clock := p.modeCtl.clock
  sync := p.modeCtl.sync
  ringTime := p.ring.time
  seq := p.ring.next
  preAsked := pre
  postAsked := post
  available := min pre (min p.ring.fill (entryFrames - post))
  drive := drive
  mark := mark
  takenAt := p.now

/-- A trigger is taken (R140): it starts at once, joins the queue of two, or is missed. -/
def takeTrigger (t : Trigger) (p : Part) : Part × TriggerOutcome :=
  if !p.capture.anyOpen then startCapture t p
  else if p.capture.queue.length < 2 then
    ({ p with capture := { p.capture with queue := p.capture.queue ++ [t] } }, .waiting (p.capture.queue.length + 1))
  else (missTrigger p, .missed)

/-- The pending triggers start one at a time after a close: the first that is not missed (R145). -/
def startPending : List Trigger → Part → Part
  | [], p => { p with capture := { p.capture with queue := [] } }
  | t :: rest, p =>
    match startCapture t p with
    | (p', .started _) => { p' with capture := { p'.capture with queue := rest } }
    | (p', _) => startPending rest p'

/-- The capture in an entry has closed with a state: the copier and the post timeout stop, CAPTURE_READY is raised and
the next pending trigger starts (R145, R146). -/
def closeCapture (e : Nat) (state : CaptureState) (p : Part) : Part :=
  let capture := p.capture.mapEntry e fun x => { x with state }
  startPending p.capture.queue
    { p with
      capture := { capture with copier := none, postTimeout := none }
      link := { p.link with captureReady := true } }

/-- A capture-level operation belongs to the copier. -/
def CaptureJob.ofCopier : CaptureJob → Bool
  | .release .. => false
  | _ => true

/-- A page of the OPEN capture failed: it closes as FAILED and the copier's operations leave the arbiter (R146, R156). -/
def failCapture (e : Nat) (p : Part) : Part :=
  closeCapture e .failed
    (p.setStorage { p.storage with captureJobs := p.storage.captureJobs.filter fun j => !j.ofCopier })

/-- The writer replaced the record of a sequence: at the copy cursor the frame is lost, and the cursor moves to the oldest
present record; a frame beyond the window end is not counted (R143). -/
def copierLoses (replaced : Word32) (p : Part) : Part :=
  match p.capture.copier with
  | some k =>
    if k.cursor = replaced then
      let counted :=
        if k.passed p.ring then p.capture else p.capture.mapEntry k.entry fun x => { x with lost := x.lost + 1 }
      { p with capture := { counted with copier := some { k with cursor := k.cursor + 1 } } }
    else p
  | none => p

end Sys2Proof.Machine
end

