-- ==== Sys2Proof/Machine/TrafficRing.lean ====
section
/-! DEFINITION. The Traffic Ring's writer and the Forwarder's pointer (7.1, 7.2). -/

namespace Sys2Proof.Machine

/-- Records the ring holds at most (R121). -/
abbrev ringCapacity : Nat := 4096

/-- A record is waiting while its forward flag is set and its sent flag clear (R123); the pointer has not passed it. -/
def RingRecord.waiting (r : RingRecord) : Bool := r.forward && !r.sent

/-- The pointer's search from a sequence (R124): over records not waiting, and over waiting ones whose age has already
reached the maximum age, which expire at once. The answer is where the pointer stands, its age deadline and the records
expired. -/
def seekPointer (ring : Ring) (start : Word32) (maximumAge now : Nat) : List RingRecord → Nat → Word32 × Option Nat × Nat
  | [], expired => (ring.next, none, expired)
  | rec :: rest, expired =>
    if ring.distance rec.sequence < ring.distance start || !rec.waiting then
      seekPointer ring start maximumAge now rest expired
    else if maximumAge ≤ now - rec.receivedAt then seekPointer ring start maximumAge now rest (expired + 1)
    else (rec.sequence, some (maximumAge - (now - rec.receivedAt)), expired)

/-- The pointer moves to the oldest waiting record from a sequence, or to the next sequence; its age deadline starts
(R124). -/
def movePointer (start : Word32) (p : Part) : Part :=
  let found := seekPointer p.ring start p.modeCtl.active.limits.maximumAge p.now p.ring.records 0
  { p with
    ring := { p.ring with
      pointer := found.1, age := found.2.1, expired := addSat max32 p.ring.expired found.2.2 } }

/-- The record at the pointer, while one is waiting there. -/
def Ring.pointerRecord (r : Ring) : Option RingRecord := (r.find r.pointer).filter (·.waiting)

/-- The record the writer makes of a frame (R122). -/
def Part.newRecord (p : Part) (f : Frame) (forward : Bool) : RingRecord where
  sequence := p.ring.next
  arrival := p.ring.time
  frame := f
  forward := forward
  sent := false
  receivedAt := p.now

/-- The ring with a record written: at the next sequence, replacing the oldest when full (R122). -/
def Ring.push (r : Ring) (rec : RingRecord) : Ring :=
  { r with
    records := (if r.fill < ringCapacity then r.records else r.records.drop 1) ++ [rec]
    next := r.next + 1 }

/-- The record that the writer replaces: the oldest, when the ring is full. -/
def Ring.replaced (r : Ring) : Option RingRecord := if r.fill < ringCapacity then none else r.records.head?

/-- The replaced record is a waiting one, so the one the pointer names: an overrun (R123). -/
def Ring.overruns (r : Ring) : Bool := r.replaced.any fun old => old.waiting && old.sequence == r.pointer

/-- An overrun raises its count and FORWARD_OVERRUN (R123, R132). -/
def countOverrun (p : Part) : Part :=
  { p with
    ring := { p.ring with overrun := addSat max32 p.ring.overrun 1 }
    link := { p.link with forwardOverrun := true } }

/-- The ring writer records a frame (R122), with what its replacement costs the Forwarder (R123) and the copier (R143). A
pointer that stood at the next sequence looks at the new record; an overrun pointer moves on. -/
def recordFrame (f : Frame) (forward : Bool) (p : Part) : Part :=
  let r := p.ring
  let lost := match r.replaced with
    | some old => copierLoses old.sequence p
    | none => p
  let written := { lost with ring := r.push (p.newRecord f forward) }
  let moved :=
    if r.overruns then movePointer (r.pointer + 1) (countOverrun written)
    else if r.pointer = r.next then movePointer r.pointer written
    else written
  copierRun moved

/-- The age deadline of the pointer's record expires: the expired count rises and the pointer moves on (R124). -/
def expireAge (p : Part) : Part :=
  movePointer (p.ring.pointer + 1)
    { p with ring := { p.ring with expired := addSat max32 p.ring.expired 1, age := none } }

/-- A record's sent flag is set (R125). -/
def markSent (q : Word32) (rs : List RingRecord) : List RingRecord :=
  rs.map fun r => if r.sequence = q then { r with sent := true } else r

/-- The pointer's record is handed to the port B transmitter: its sent flag is set, the age deadline cancelled and the
pointer moves on (R125). -/
def handOver (rec : RingRecord) (p : Part) : Part :=
  let p := { p with
    ring := { p.ring with records := markSent rec.sequence p.ring.records, age := none }
    portB := { p.portB with tx := some { frame := rec.frame, source := .forward, timeout := none } } }
  movePointer (rec.sequence + 1) p

end Sys2Proof.Machine
end

