-- ==== Sys2Proof/Machine/AbuseMonitor.lean ====
section
/-! DEFINITION. The abuse monitor: marks, the judgement of the interval kinds and of engagements (6.4). -/

namespace Sys2Proof.Machine

/-- The kind of component whose slot a mark names (R117). -/
def Cause.slotKind : Cause → Kind
  | .hotEngagement => .clutch
  | _ => .engine

/-- An abuse count rises by 1, saturating at 65,535 (R117). -/
def raiseAbuse (counts : Vector Nat 4) (kind : Cause) : Vector Nat 4 :=
  counts.setIfInBounds kind.num (addSat max16 (counts[kind.num]?.getD 0) 1)

/-- Entries an abuse list holds at most (R102). -/
abbrev abuseListLimit : Nat := 16

/-- A mark in the open hire: its count, and its list entry or the overflow flag (R117). -/
def HireRecord.mark (r : HireRecord) (e : AbuseEntry) : HireRecord :=
  let counted := { r with abuse := raiseAbuse r.abuse e.kind }
  if r.abuseList.length < abuseListLimit then { counted with abuseList := r.abuseList ++ [e] }
  else { counted with overflow := true }

/-- The reference a mark's list entry gets: hire number and list position (R117). -/
def Hire.markReference (h : Hire) : Option (Nat × Nat) :=
  match h.current with
  | some r => if r.abuseList.length < abuseListLimit then some (r.number, r.abuseList.length) else none
  | none => none

/-- A mark during a Confirm Change's archive write is counted to the new component (R73, R117). -/
def ArchiveJob.countMark (slot : Nat) (kind : Cause) : ArchiveJob → ArchiveJob
  | .component record events time units marks =>
    if record.slot = slot then .component record events time units (raiseAbuse marks kind)
    else .component record events time units marks
  | j => j

/-- A mark raises the slot's count, whether COUNTING or HELD (R117). -/
def markSlot (kind : Cause) (p : Part) : Part :=
  match p.slotOfKind kind.slotKind with
  | none => p
  | some n =>
    match p.slot n with
    | none => p
    | some c =>
      (p.setSlot n (some { c with abuse := raiseAbuse c.abuse kind })).setStorage
        { p.storage with archive := p.storage.archive.map (·.countMark n kind) }

/-- A mark (R117): the slot, the open hire's count and list, then the capture its kind's flag asks for (R118). -/
def makeMark (kind : Cause) (magnitude : Int) (p : Part) : Part :=
  let limits := p.modeCtl.active.limits.abuse[kind.num]?.getD {}
  let entry : AbuseEntry :=
    { kind, clock := p.modeCtl.clock, slot := p.slotOfKind kind.slotKind, magnitude, capture := none }
  let reference := p.hire.markReference
  let marked := markSlot kind p
  let marked := { marked with hire := { marked.hire with current := marked.hire.current.map (·.mark entry) } }
  if limits.capture then
    (takeTrigger (triggerRecord kind limits.pre limits.post limits.drive reference marked) marked).1
  else marked

/-! ## The interval kinds (R115) -/

/-- The value an interval kind follows when its condition holds: every role usable and every comparison met (R115). -/
def abuseCondition (kind : Cause) (p : Part) : Option Int :=
  let l := p.modeCtl.active.limits
  match kind with
  | .overspeed => do
    let speed ← p.usableValue roleEngineSpeed
    if (l.overspeedSpeed : Int) < speed then some speed else none
  | .coldLoad => do
    let coolant ← p.usableValue roleCoolant
    let torque ← p.usableValue roleTorque
    if coolant < l.coldCoolant ∧ (l.coldTorque : Int) ≤ torque then some coolant else none
  | .lugging => do
    let speed ← p.usableValue roleEngineSpeed
    let torque ← p.usableValue roleTorque
    if p.detector.engine = .running ∧ speed < (l.luggingSpeed : Int) ∧ (l.luggingTorque : Int) ≤ torque then some speed
    else none
  | _ => none

/-- The kind's duration in intervals (R114). -/
def abuseDuration (kind : Cause) (l : Limits) : Nat :=
  match kind with
  | .overspeed => l.overspeedDuration
  | .coldLoad => l.coldDuration
  | .lugging => l.luggingDuration
  | _ => 0

/-- The episode record of a kind. -/
def Hire.episode (h : Hire) : Cause → Episode
  | .overspeed => h.overspeed
  | .coldLoad => h.coldLoad
  | .lugging => h.lugging
  | _ => {}

def Hire.setEpisode (h : Hire) (kind : Cause) (e : Episode) : Hire :=
  match kind with
  | .overspeed => { h with overspeed := e }
  | .coldLoad => { h with coldLoad := e }
  | .lugging => { h with lugging := e }
  | _ => h

/-- The extreme with a followed value: the highest for OVERSPEED, the lowest for the others (R113, R115). -/
def extremeOf (kind : Cause) (old : Option Int) (v : Int) : Int :=
  match old with
  | none => v
  | some x => if kind = .overspeed then max x v else min x v

/-- A marked episode's extreme moves the magnitude of its entry in the open hire's list (R115). -/
def Hire.moveMagnitude (h : Hire) (mark : Option (Nat × Nat)) (extreme : Int) : Hire :=
  match mark with
  | none => h
  | some (hireNumber, position) =>
    { h with
      current := h.current.map fun r =>
        if r.number = hireNumber then
          { r with abuseList := r.abuseList.modify position fun e => { e with magnitude := extreme } }
        else r }

/-- The judgement of one interval kind at an expiry in ACTIVE (R115). -/
def judgeKind (kind : Cause) (p : Part) : Part :=
  let e := p.hire.episode kind
  match abuseCondition kind p with
  | none => { p with hire := p.hire.setEpisode kind {} }
  | some v =>
    let duration := abuseDuration kind p.modeCtl.active.limits
    let run := min duration (e.run + 1)
    let extreme := extremeOf kind e.extreme v
    if e.marked then
      let h := if e.extreme = some extreme then p.hire else p.hire.moveMagnitude e.mark extreme
      { p with hire := h.setEpisode kind { e with run, extreme := some extreme } }
    else if run = duration then
      let reference := p.hire.markReference
      let p := makeMark kind extreme p
      { p with
        hire := p.hire.setEpisode kind { run, marked := true, extreme := some extreme, mark := reference } }
    else { p with hire := p.hire.setEpisode kind { e with run, extreme := some extreme } }

/-- The abuse judgement of an interval expiry (R115): OVERSPEED, then COLD_LOAD, then LUGGING. DESIGN CHOICE (log 11). -/
def judgeInterval (p : Part) : Part := judgeKind .lugging (judgeKind .coldLoad (judgeKind .overspeed p))

/-- Every episode record is reset (R113). -/
def resetEpisodes (p : Part) : Part := { p with hire := { p.hire with overspeed := {}, coldLoad := {}, lugging := {} } }

/-- The judgement of a closed engagement's energy (R116). -/
def judgeEngagement (energy : Nat) (p : Part) : Part :=
  if p.modeCtl.active.limits.hotEnergy < energy then makeMark .hotEngagement energy p else p

end Sys2Proof.Machine
end

