-- ==== Sys2Proof/Machine/WearEngine.lean ====
section
/-! DEFINITION. The Wear Engine and the Clutch Monitor (chapter 5): bins and increments, the interval's credits, event
credits, engagements and hours reconciliation. -/

namespace Sys2Proof.Machine

/-! ## Bins and increments (R82, R83) -/

/-- A value's bin: the number of edges less than or equal to it (R82). -/
def binOf (edges : List Int) (v : Int) : Nat := edges.countP fun e => decide (e ≤ v)

/-- The Bin and Weight Table rows of a kind in the active set. -/
def Part.bins (p : Part) (k : Kind) : BinRow := p.modeCtl.active.bins[k.num]?.getD BinRow.empty

def Part.weights (p : Part) (k : Kind) : WeightRow :=
  p.modeCtl.active.weights[k.num]?.getD { cells := Vector.replicate 64 0, factors := Vector.replicate 4 16 }

/-- A credit's cell: load bin × 8 + speed bin (R82). -/
def BinRow.cell (r : BinRow) (load speed : Int) : Nat := binOf r.load.toList load * 8 + binOf r.speed.toList speed

/-- The temperature factor: the band's, or 16 where no band is formed (R83). -/
def factorOf (b : BinRow) (w : WeightRow) (temperature : Option Int) : Nat :=
  match temperature with
  | some t => w.factors[binOf b.temperature.toList t]?.getD 16
  | none => 16

/-- A credit placed by its axis values: its cell with weight × factor counts; unbinned without wear when an axis value is
absent (R83). -/
def Part.placed (p : Part) (k : Kind) (load speed temperature : Option Int) (events time count : Nat) : Credit :=
  match load, speed with
  | some l, some s =>
    let b := p.bins k
    let w := p.weights k
    let cell := b.cell l s
    { events, time, place := .cell cell count, wear := w.cells[cell]?.getD 0 * factorOf b w temperature }
  | _, _ => { events, time, place := .unbinned count }

/-! ## The accumulation interval (R79, R81, R85, R86) -/

/-- The index of a gear in the Gear Ratio list; gear 0 has none (R81). -/
def gearIndex (gear : Int) : Option Nat :=
  if 1 ≤ gear ∧ gear ≤ 16 then some (gear + 2).toNat
  else if -3 ≤ gear ∧ gear ≤ -1 then some (gear + 3).toNat
  else none

/-- The shaft torque index (R81). -/
def Part.shaftTorque (p : Part) : Option Int := do
  let gear ← p.usableValue roleGear
  let torque ← p.usableValue roleTorque
  match gearIndex gear with
  | some i => some (min 2500 (nonNegative torque * (p.modeCtl.active.ratios[i]?.getD 100 : Nat) / 100))
  | none => some 0

/-- The output shaft turns at or above the motion threshold, its role usable (R79). -/
def Part.moving (p : Part) : Bool :=
  (p.usableValue roleOutputSpeed).any fun v => decide ((p.modeCtl.active.limits.motion : Int) ≤ v)

def Part.engineRunning (p : Part) : Bool := p.detector.engine == .running

/-- The running condition of a continuous kind (R79). -/
def Part.runningCondition (p : Part) : Kind → Bool
  | .engine => p.engineRunning
  | .gearbox | .driveshaft | .axle => p.engineRunning && p.moving
  | .retarder => (p.usableValue roleRetarder).any (fun v => decide (2 ≤ v)) && p.moving
  | .pto => p.usableValue rolePto == some 1 && p.engineRunning
  | _ => false

/-- The load and speed values of a continuous kind (R79). -/
def Part.axes (p : Part) : Kind → Option Int × Option Int
  | .engine | .pto => ((p.usableValue roleTorque).map nonNegative, p.usableValue roleEngineSpeed)
  | .gearbox => ((p.usableValue roleTorque).map nonNegative, p.usableValue roleInputSpeed)
  | .retarder => (p.usableValue roleRetarder, p.usableValue roleOutputSpeed)
  | .driveshaft | .axle => (p.shaftTorque, p.usableValue roleOutputSpeed)
  | _ => (none, none)

/-- A slot's running flag. -/
def Part.runningFlag (p : Part) (n : Nat) : Bool := p.wear.running[n]?.getD false

def setRunning (n : Nat) (b : Bool) (p : Part) : Part :=
  { p with wear := { p.wear with running := p.wear.running.setIfInBounds n b } }

def clearRunning (p : Part) : Part := { p with wear := { p.wear with running := Vector.replicate 12 false } }

/-- The credit of one interval to a running slot (R85): 1 s, placed or unbinned, and an event at the start of a stretch
for every kind but ENGINE. -/
def Part.intervalCredit (p : Part) (n : Nat) (k : Kind) : Credit :=
  let axes := p.axes k
  p.placed k axes.1 axes.2 (p.usableValue roleCoolant) (if k ≠ .engine ∧ p.runningFlag n = false then 1 else 0) 1 1

/-- A second credited to the ENGINE slot counts toward the checkpoint period; at 360 a full checkpoint is requested
(R87). -/
def countPeriod (p : Part) : Part :=
  if 360 ≤ p.wear.countdown + 1 then
    requestFull .period none { p with wear := { p.wear with countdown := 0 } }
  else { p with wear := { p.wear with countdown := p.wear.countdown + 1 } }

/-- One slot at an interval expiry in ACTIVE (R85). -/
def creditInterval (n : Nat) (p : Part) : Part :=
  match p.slot n with
  | none => p
  | some c =>
    if !c.kind.continuous then p
    else if p.runningCondition c.kind then
      let p := setRunning n true (creditSlot n (p.intervalCredit n c.kind) p)
      if c.kind = .engine then countPeriod p else p
    else setRunning n false p

/-- Every slot in ascending order at an interval expiry in ACTIVE (R85). -/
def creditAll (p : Part) : Part := slotNumbers.foldl (fun p n => creditInterval n p) p

/-! ## Starter events (R52, R90) and starts (R51) -/

/-- A starter event, in ACTIVE and with a STARTER slot installed: one event with its duration and coolant, and the
failed-start count of a FAILED outcome (R52, R90). -/
def starterEvent (duration : Nat) (coolant : Option Int) (failed : Bool) (p : Part) : Part :=
  if p.modeCtl.mode ≠ .active then p
  else
    match p.slotOfKind .starter with
    | none => p
    | some n =>
      let p := creditSlot n (p.placed .starter (some duration) coolant coolant 1 duration 1) p
      if failed then
        match p.slot n with
        | some c => p.setSlot n (some { c with failedStarts := addSat max16 c.failedStarts 1 })
        | none => p
      else p

/-- A start, in ACTIVE and with an ENGINE slot installed: one event, no time, no cell, no wear (R51). -/
def startCredit (p : Part) : Part :=
  if p.modeCtl.mode ≠ .active then p
  else
    match p.slotOfKind .engine with
    | none => p
    | some n => creditSlot n { events := 1 } p

/-! ## The Clutch Monitor (5.6) -/

/-- The four roles an engagement needs: engine speed, input shaft speed, gear and torque, while all are usable (R92). -/
def Part.clutchRoles (p : Part) : Option (Int × Int × Int × Int) := do
  let engine ← p.usableValue roleEngineSpeed
  let input ← p.usableValue roleInputSpeed
  let gear ← p.usableValue roleGear
  let torque ← p.usableValue roleTorque
  some (engine, input, gear, torque)

/-- The greatest engagement energy (R91). -/
abbrev energyLimit : Nat := 16777215

/-- One slipping evaluation adds a step of energy, exactly but for the floors (R93). -/
def slipStep (e : Engagement) (carry : Nat) (slip torque reference : Nat) : Engagement × Nat :=
  let newtonMetres := torque * reference / 100
  let numerator := newtonMetres * slip * 10472 + carry
  let sum := e.energy + numerator / 1000000
  ({ e with
      slipTime := addSat max16 e.slipTime 1
      energy := if e.saturated then energyLimit else min energyLimit sum
      saturated := e.saturated || decide (energyLimit < sum)
      below := 0 },
    numerator % 1000000)

/-- A CLUTCH event of a closed engagement (R96). -/
def engagementCredit (e : Engagement) (p : Part) : Part :=
  match p.slotOfKind .clutch with
  | none => p
  | some n =>
    let load := e.startSpeed.map fun _ => (e.energy : Int)
    creditSlot n (p.placed .clutch load e.startSpeed (p.usableValue roleCoolant) 1 e.slipTime 1) p

/-- The open engagement closes: credited, judged for HOT_ENGAGEMENT, and reset (R96). -/
def closeEngagement (p : Part) : Part :=
  match p.clutch.engagement with
  | none => p
  | some e =>
    let p := judgeEngagement e.energy (engagementCredit e p)
    { p with clutch := { p.clutch with engagement := none, carry := 0 } }

/-- An evaluation in ACTIVE with the engine RUNNING: it opens, integrates or closes an engagement (R92 to R95). -/
def evaluateClutch (p : Part) : Part :=
  let l := p.modeCtl.active.limits
  match p.clutchRoles with
  | none => closeEngagement p
  | some (engine, input, gear, torque) =>
    if gear = 0 then closeEngagement p
    else
      let slip := (engine - input).natAbs
      let slipping := decide (l.slip ≤ slip)
      let step := fun (e : Engagement) (carry : Nat) => slipStep e carry slip (nonNegative torque).toNat l.referenceTorque
      match p.clutch.engagement with
      | none =>
        if slipping then
          let next := step { startSpeed := p.usableValue roleOutputSpeed } 0
          { p with clutch := { p.clutch with engagement := some next.1, carry := next.2 } }
        else p
      | some e =>
        if slipping then
          let next := step e p.clutch.carry
          { p with clutch := { p.clutch with engagement := some next.1, carry := next.2 } }
        else if e.below + 1 = 3 then closeEngagement p
        else { p with clutch := { p.clutch with engagement := some { e with below := e.below + 1 } } }

/-! ## Hours reconciliation (R97, R98) -/

/-- The ENGINE slot's own time: its time figure, plus its pool time while HELD (R97). -/
def Component.ownTime (c : Component) : Nat := c.time + (c.hold.map (·.pool.time)).getD 0

/-- The reference re-anchors to a reported value and to the slot's own time (R98). -/
def anchor (n : Nat) (v : Nat) (regressed : Bool) (p : Part) : Part :=
  match p.slot n with
  | none => p
  | some c =>
    p.setSlot n (some { c with reference := some (v, c.ownTime), regressed := c.regressed || regressed })

/-- A usable sample of ENGINE_HOURS_REPORTED anchors, re-anchors, or credits unobserved running (R97, R98). Where a merge
that saturated has left own time below T0, the own advance is 0. DESIGN CHOICE (log 41). -/
def reconcileHours (v : Nat) (p : Part) : Part :=
  match p.slotOfKind .engine with
  | none => p
  | some n =>
    match p.slot n with
    | none => p
    | some c =>
      match c.reference with
      | none => anchor n v false p
      | some (v0, t0) =>
        if v = v0 then p
        else if v < v0 then anchor n v true p
        else if p.modeCtl.mode ≠ .active then anchor n v false p
        else
          let reported := (v - v0) * 180
          let own := c.ownTime - t0
          if own + 360 < reported then
            let credit := reported - own - 180
            anchor n v false (creditSlot n { time := credit, place := .unbinned credit, unobserved := credit } p)
          else anchor n v false p

end Sys2Proof.Machine
end

