-- ==== Sys2Proof/Machine/StartDetector.lean ====
section
/-! DEFINITION. The Engine Start Detector (chapter 3) and what a change of the engine state hands to its neighbours
(R53). -/

namespace Sys2Proof.Machine

/-! ## Required roles (R19, R20) -/

/-- The required roles of a kind (R19). -/
def Kind.requiredRoles : Kind → List Nat
  | .engine => [roleEngineSpeed, roleTorque]
  | .starter => [roleEngineSpeed, roleStarter]
  | .clutch => [roleEngineSpeed, roleTorque, roleInputSpeed, roleOutputSpeed, roleGear]
  | .gearbox => [roleEngineSpeed, roleTorque, roleInputSpeed, roleOutputSpeed]
  | .retarder => [roleEngineSpeed, roleRetarder, roleOutputSpeed]
  | .driveshaft => [roleEngineSpeed, roleTorque, roleGear, roleOutputSpeed]
  | .axle => [roleEngineSpeed, roleTorque, roleGear, roleOutputSpeed]
  | .pto => [roleEngineSpeed, roleTorque, rolePto]

/-- A role is required by an installed slot, COUNTING or HELD (R19). -/
def Register.requires (r : Register) (role : Nat) : Bool :=
  r.slots.toList.any fun s => s.any fun c => c.kind.requiredRoles.contains role

/-- ROLE_LOST may be raised: AWAKE, ACTIVE, debounced ignition on (R20). -/
def Part.judgesRoles (p : Part) : Bool :=
  !p.modeCtl.asleep && p.modeCtl.mode == .active && p.modeCtl.ignition

def raiseRoleLost (p : Part) : Part := { p with link := { p.link with roleLost := true } }

/-- A required role is not usable. -/
def Part.missingRole (p : Part) : Bool :=
  (List.range 10).any fun r => p.register.requires r && !(p.role r).usable

/-! ## Changes of the engine state (R53) -/

/-- The engine leaves STOPPED during a table save: the save ends, the re-save of the active set begins, and the leave
sequence is answered ENGINE_RUNNING (R28). -/
def endSave (p : Part) : Part :=
  match p.modeCtl.save with
  | .saving _ =>
    respond .service [0x03, stEngineRunning]
      { p with modeCtl := { p.modeCtl with save := .resaving, savePage := 0, validation := .none } }
  | _ => p

/-- The entry into RUNNING: ROLE_LOST for a required role not usable (R20), and the first-run verifications (R54). -/
def enterRunning (p : Part) : Part :=
  let p := if p.judgesRoles && p.missingRole then raiseRoleLost p else p
  if p.detector.firstRun then queueAll { p with detector := { p.detector with firstRun := false } } else p

/-- The engine leaves STOPPED: the quiet period's timer stops (R35, R53). It starts again, at its full 30 s, at the end
of the event if the conditions hold then (`settleQuiet`). -/
def stopQuiet (p : Part) : Part := { p with modeCtl := { p.modeCtl with quiet := none } }

/-- The engine state changes and the change is handed to the blocks that act on it (R53). -/
def changeEngine (new : EngineState) (p : Part) : Part :=
  let old := p.detector.engine
  if old = new then p
  else
    let p := if old = .running then closeEngagement p else p
    let p := { p with detector := { p.detector with engine := new } }
    let p := if old = .stopped then stopQuiet (endSave p) else p
    if new = .running then enterRunning p else p

/-! ## Attempts (R44) -/

/-- The starter is active: STARTER_ACTIVE usable with the value 1 (R43). -/
def Part.starterActive (p : Part) : Bool := p.usableValue roleStarter == some 1

def setDetector (d : Detector) (p : Part) : Part := { p with detector := d }

/-- An attempt opens with its coolant, the starter seen or not, and a duration fixed or not (R44). -/
def openAttempt (seen : Bool) (duration : Option Nat) (p : Part) : Part :=
  setDetector
    { p.detector with
      attempt := some { openedAt := p.now, coolant := p.usableValue roleCoolant, starterSeen := seen, duration } } p

/-- Cranking begins with a new attempt: window A starts (R45, R46, R47). -/
def beginCranking (p : Part) : Part :=
  let p := openAttempt p.starterActive none p
  changeEngine .cranking
    (setDetector { p.detector with windowA := some (1000 * p.modeCtl.active.limits.windowA), windowB := none } p)

/-- CATCHING begins: window A is cancelled and window B starts (R45, R46). -/
def beginCatching (p : Part) : Part :=
  changeEngine .catching
    (setDetector { p.detector with windowA := none, windowB := some (100 * p.modeCtl.active.limits.windowB) } p)

/-- The attempt's age in tenths, rounded down (R44). -/
def Attempt.tenths (a : Attempt) (now : Nat) : Nat := (now - a.openedAt) / 100

/-- The open attempt ends START or FAILED with a duration: windows stop, and a starter event is credited if the starter
was seen (R44, R52). -/
def endAttempt (failed : Bool) (duration : Nat) (p : Part) : Part :=
  let attempt := p.detector.attempt
  let p := setDetector { p.detector with attempt := none, windowA := none, windowB := none } p
  match attempt with
  | some a => if a.starterSeen then starterEvent duration a.coolant failed p else p
  | none => p

/-- The duration the open attempt carries, or has reached. -/
def Part.attemptDuration (p : Part) : Nat :=
  match p.detector.attempt with
  | some a => a.duration.getD (a.tenths p.now)
  | none => 0

/-- The open attempt is discarded without credit (R49). -/
def discardAttempt (p : Part) : Part :=
  setDetector { p.detector with attempt := none, windowA := none, windowB := none } p

/-! ## The transitions (R45 to R50) -/

/-- An evaluation in STOPPED with a usable speed (R45). -/
def evaluateStopped (speed : Int) (p : Part) : Part :=
  let l := p.modeCtl.active.limits
  if (l.run : Int) ≤ speed then beginCatching (openAttempt false (some 0) p)
  else if p.starterActive ∨ ((l.crank : Int) ≤ speed ∧ speed < l.run) then beginCranking p
  else p

/-- An evaluation in CRANKING that finds the starter active sets the attempt's flag (R44). -/
def seeStarter (p : Part) : Part :=
  if p.starterActive then
    setDetector
      { p.detector with attempt := p.detector.attempt.map fun a => { a with starterSeen := true } } p
  else p

/-- An evaluation in CRANKING (R46). -/
def evaluateCranking (speed : Int) (p : Part) : Part :=
  let l := p.modeCtl.active.limits
  let p := seeStarter p
  if (l.run : Int) ≤ speed then
    let duration := p.attemptDuration
    beginCatching
      (setDetector { p.detector with attempt := p.detector.attempt.map fun a => { a with duration := some duration } } p)
  else if p.starterActive = false ∧ speed < l.crank then changeEngine .stopped (endAttempt true p.attemptDuration p)
  else p

/-- An evaluation in CATCHING (R47). -/
def evaluateCatching (speed : Int) (p : Part) : Part :=
  let l := p.modeCtl.active.limits
  if speed < l.stall then
    let p := endAttempt true p.attemptDuration p
    if p.starterActive = false ∧ speed < l.crank then changeEngine .stopped p else beginCranking p
  else p

/-- An evaluation in RUNNING (R48). -/
def evaluateRunning (speed : Int) (p : Part) : Part :=
  if speed < p.modeCtl.active.limits.stall then changeEngine .stopped p else p

/-- The uncertain-resume count of an installed ENGINE slot rises (R50). -/
def countResume (p : Part) : Part :=
  match p.slotOfKind .engine with
  | none => p
  | some n =>
    match p.slot n with
    | some c => p.setSlot n (some { c with uncertain := addSat max16 c.uncertain 1 })
    | none => p

/-- The first usable speed in UNKNOWN (R50). -/
def resumeFrom (speed : Int) (p : Part) : Part :=
  if (p.modeCtl.active.limits.run : Int) ≤ speed then changeEngine .running (countResume p)
  else evaluateStopped speed (changeEngine .stopped p)

/-- A loss of ENGINE_SPEED: UNKNOWN, or STOPPED while the debounced ignition is off; an open attempt is discarded
(R49). -/
def loseSpeed (p : Part) : Part :=
  changeEngine (if p.modeCtl.ignition then .unknown else .stopped) (discardAttempt p)

/-- An evaluation on an update of ENGINE_SPEED (`onSpeed`) or of STARTER_ACTIVE (R43). -/
def evaluateDetector (onSpeed : Bool) (p : Part) : Part :=
  match p.usableValue roleEngineSpeed with
  | none => if onSpeed then loseSpeed p else p
  | some speed =>
    match p.detector.engine with
    | .stopped => evaluateStopped speed p
    | .cranking => evaluateCranking speed p
    | .catching => evaluateCatching speed p
    | .running => evaluateRunning speed p
    | .unknown => if onSpeed then resumeFrom speed p else p

/-- Window A expires in CRANKING: the attempt ends FAILED with window A in tenths and a new one opens (R46). -/
def expireWindowA (p : Part) : Part :=
  if p.detector.engine = .cranking then
    beginCranking (endAttempt true (10 * p.modeCtl.active.limits.windowA) p)
  else p

/-- Window B expires in CATCHING: the attempt ends START, the start is credited, and the engine is RUNNING (R47, R51). -/
def expireWindowB (p : Part) : Part :=
  if p.detector.engine = .catching then
    changeEngine .running (startCredit (endAttempt false p.attemptDuration p))
  else p

end Sys2Proof.Machine
end

