-- ==== Sys2Proof/Machine/SignalDecoder.lean ====
section
/-! DEFINITION. The Signal Decoder, the Role Selector and the Frame Matcher (chapter 1). -/

namespace Sys2Proof.Machine

/-! ## Fields (R9, R10) -/

/-- The data bit at a position: bit b of byte k at position 8k + b (R9). -/
def bitAt (data : List Byte) (position : Nat) : Nat := ((byteAt data (position / 8)).getLsbD (position % 8)).toNat

/-- The position that holds the i-th bit of a HIGH_FIRST field, counted from its most significant (R9). -/
def highPosition (start i : Nat) : Nat :=
  let k := start / 8
  let b := start % 8
  if i ≤ b then 8 * k + (b - i) else 8 * (k + 1 + (i - b - 1) / 8) + (7 - (i - b - 1) % 8)

/-- The raw number of a field, unsigned (R9). -/
def rawBits (highFirst : Bool) (start length : Nat) (data : List Byte) : Nat :=
  if highFirst then (List.range length).foldl (fun acc i => 2 * acc + bitAt data (highPosition start i)) 0
  else (List.range length).foldr (fun i acc => 2 * acc + bitAt data (start + i)) 0

/-- The last byte a field uses (R9). -/
def lastByte (highFirst : Bool) (start length : Nat) : Nat :=
  if highFirst then
    if length ≤ start % 8 + 1 then start / 8 else start / 8 + (length - start % 8 - 1 + 7) / 8
  else (start + length - 1) / 8

/-- The raw number as the signed flag reads it (R9). -/
def readRaw (signed : Bool) (length raw : Nat) : Int :=
  if signed ∧ 2 ^ (length - 1) ≤ raw then (raw : Int) - (2 ^ length : Nat) else raw

/-- The value: raw × multiplier, divided by 2^shift and rounded down, plus the offset (R10). -/
def scale (e : SignalEntry) (raw : Int) : Int := Int.fdiv (raw * e.multiplier) (2 ^ e.shift : Nat) + e.offset

/-- The quality of a sample, and its value when USABLE (R11). -/
def judgeSample (e : SignalEntry) (data : List Byte) : Quality × Int :=
  if data.length < lastByte e.highFirst e.start e.length + 1 then (.shortFrame, 0)
  else
    let raw := rawBits e.highFirst e.start e.length data
    if e.signed = false ∧ 2 ≤ e.length ∧ raw + 1 = 2 ^ e.length then (.notAvailable, 0)
    else if e.signed = false ∧ 2 ≤ e.length ∧ raw + 2 = 2 ^ e.length then (.errorIndicated, 0)
    else
      let value := scale e (readRaw e.signed e.length raw)
      if value < e.minimum ∨ e.maximum < value then (.outOfRange, 0) else (.usable, value)

/-! ## The Role Selector (R16, R17, R18) -/

/-- An event of one of a role's source signals (R16). -/
inductive RoleEvent where
  | usable (v : Int)
  | nonUsable
  | expiry
  deriving DecidableEq, Repr

/-- What an event does to a role: its new state, whether the role is updated, and whether the update carries a USABLE
sample of the selected source (R18). -/
structure RoleStep where
  role : Role
  updated : Bool
  sample : Bool
  deriving DecidableEq, Repr

def RoleStep.unchanged (r : Role) : RoleStep := { role := r, updated := false, sample := false }

/-- An event of the primary (R16); `backup` is the backup's last value while the backup is FRESH. -/
def primaryEvent (r : Role) (ev : RoleEvent) (backup : Option Int) : RoleStep :=
  match ev, r.source with
  | .usable v, .primary => { role := { r with value := some v }, updated := true, sample := true }
  | .usable v, .backup =>
    if r.returns + 1 = 3 then
      { role := { source := .primary, value := some v, returns := 0 }, updated := true, sample := true }
    else .unchanged { r with returns := r.returns + 1 }
  | .usable v, .none => { role := { source := .primary, value := some v, returns := 0 }, updated := true, sample := true }
  | .nonUsable, .backup => .unchanged { r with returns := 0 }
  | .nonUsable, _ => .unchanged r
  | .expiry, .primary =>
    match backup with
    | some v => { role := { source := .backup, value := some v, returns := 0 }, updated := true, sample := false }
    | none => { role := { r with source := .none, returns := 0 }, updated := true, sample := false }
  | .expiry, .backup => .unchanged { r with returns := 0 }
  | .expiry, .none => .unchanged r

/-- An event of the backup (R16); `primary` is the primary's last value while the primary is FRESH. -/
def backupEvent (r : Role) (ev : RoleEvent) (primary : Option Int) : RoleStep :=
  match ev, r.source with
  | .usable v, .backup => { role := { r with value := some v }, updated := true, sample := true }
  | .usable v, .none => { role := { source := .backup, value := some v, returns := 0 }, updated := true, sample := true }
  | .usable _, .primary => .unchanged r
  | .nonUsable, _ => .unchanged r
  | .expiry, .backup =>
    match primary with
    | some v => { role := { source := .primary, value := some v, returns := 0 }, updated := true, sample := false }
    | none => { role := { r with source := .none, returns := 0 }, updated := true, sample := false }
  | .expiry, _ => .unchanged r

/-- A signal as it stands. -/
def Part.signal (p : Part) (i : Nat) : Signal := p.signals[i]?.getD {}

/-- The last value of a signal while it is FRESH. -/
def Part.freshValue (p : Part) (i : Option Nat) : Option Int :=
  match i with
  | none => none
  | some i => if (p.signal i).status = .fresh then (p.signal i).value else none

/-- What an event of a signal does to a role: as a primary event when the signal is its primary, else as a backup event
when it is its backup (R16). -/
def Part.roleStep (p : Part) (i : Nat) (ev : RoleEvent) (r : Nat) : RoleStep :=
  let entry := p.modeCtl.active.roles[r]?.getD {}
  let role := p.role r
  if entry.primary = some i then
    primaryEvent role ev (if entry.backup = some i then none else p.freshValue entry.backup)
  else if entry.backup = some i then backupEvent role ev (p.freshValue entry.primary)
  else .unchanged role

/-- A role update reaches its readers: the Engine Start Detector, or hours reconciliation (R18). -/
def handUpdate (r : Nat) (sample : Bool) (p : Part) : Part :=
  if r = roleEngineSpeed then evaluateDetector true p
  else if r = roleStarter then evaluateDetector false p
  else if r = roleHours ∧ sample then
    match (p.role roleHours).value with
    | some v => reconcileHours v.toNat p
    | none => p
  else p

/-- An event of a signal applied to one role (R16), with ROLE_LOST for a required role that loses its usable flag
(R20). -/
def applyRole (i : Nat) (ev : RoleEvent) (p : Part) (r : Nat) : Part :=
  let old := p.role r
  let next := p.roleStep i ev r
  let p := { p with roles := p.roles.setIfInBounds r next.role }
  let p :=
    if old.usable && !next.role.usable && p.register.requires r && p.judgesRoles then raiseRoleLost p else p
  if next.updated then handUpdate r next.sample p else p

/-- An event of a signal applied to every role it serves, in role order (log 11). -/
def applyRoles (i : Nat) (ev : RoleEvent) (p : Part) : Part := (List.range 10).foldl (applyRole i ev) p

/-! ## Samples and deadlines (R11, R13) -/

/-- The decoder's record of a signal after a sample (R11, R13). -/
def Signal.sample (s : Signal) (quality : Quality) (value : Int) (deadline : Nat) : Signal :=
  if quality = .usable then
    { s with status := .fresh, value := some value, quality := some quality, deadline := some deadline }
  else { s with quality := some quality, nonUsable := addSat max16 s.nonUsable 1 }

/-- One signal of a matched frame is judged and applied in full, with the role updates it gives (R11, R14). -/
def applySample (i : Nat) (e : SignalEntry) (period : Nat) (data : List Byte) (p : Part) : Part :=
  let judged := judgeSample e data
  let p := { p with
    signals := p.signals.setIfInBounds i ((p.signal i).sample judged.1 judged.2 (4 * period)) }
  applyRoles i (if judged.1 = .usable then .usable judged.2 else .nonUsable) p

/-- The signals of a matched frame in ascending index (R14). -/
def decodeFrame (entry period : Nat) (data : List Byte) (p : Part) : Part :=
  (List.range 48).foldl (fun p i =>
    match (p.modeCtl.active.signals[i]?).join with
    | some e => if e.frame = entry then applySample i e period data p else p
    | none => p) p

/-- A signal's freshness deadline expires: STALE, its value kept, and its roles re-evaluated (R13, R16). -/
def expireSignal (i : Nat) (p : Part) : Part :=
  let s := p.signal i
  if s.deadline.isSome then
    applyRoles i .expiry
      { p with signals := p.signals.setIfInBounds i { s with status := .stale, deadline := none } }
  else p

/-! ## The Frame Matcher (R5, R6) -/

/-- The Frame Table entry a frame equals in port, format and identifier (R5). -/
def FrameEntry.matches (e : FrameEntry) (port : PortId) (f : Frame) : Bool :=
  e.port == port && e.format == f.format && e.ident == f.ident

/-- The index of the matching entry of the active table, the lowest where a table had two. -/
def TableSet.findFrame (t : TableSet) (port : PortId) (f : Frame) : Option Nat :=
  (List.range 64).find? fun i => ((t.frames[i]?).join).any (·.matches port f)

/-- The unmatched count of a port rises (R6). -/
def countUnmatched (port : PortId) (p : Part) : Part :=
  match port with
  | .a => { p with matcher := { p.matcher with unmatchedA := addSat max32 p.matcher.unmatchedA 1 } }
  | .b => { p with matcher := { p.matcher with unmatchedB := addSat max32 p.matcher.unmatchedB 1 } }

/-- An entry's received count rises (R5). -/
def countEntry (i : Nat) (p : Part) : Part :=
  { p with
    matcher := { p.matcher with
      counts := p.matcher.counts.setIfInBounds i (addSat max32 (p.matcher.counts[i]?.getD 0) 1) } }

/-- The matcher handles a frame that reaches it: under pass-all (R6), or by the active Frame Table (R5). A matched port-A
frame is recorded in the ring and decoded, a matched port-B frame decoded. The record comes first, so a frame whose
decoding makes a mark stands before S of the mark's trigger (R137). DESIGN CHOICE (log 11). -/
def matchFrame (port : PortId) (f : Frame) (p : Part) : Part :=
  if p.modeCtl.passAll then
    match port with
    | .a => recordFrame f true p
    | .b => countUnmatched .b p
  else
    match p.modeCtl.active.findFrame port f with
    | none => countUnmatched port p
    | some i =>
      match (p.modeCtl.active.frames[i]?).join with
      | none => countUnmatched port p
      | some e =>
        let p := countEntry i p
        let p := if port = .a then recordFrame f e.forward p else p
        decodeFrame i e.period f.data p

end Sys2Proof.Machine
end

