-- ==== Sys2Proof/Machine/Transmit.lean ====
section
/-! DEFINITION. The transmitters and what feeds them: the channels' offers (R175, R178), the port B transmit arbiter
(R128), the port A transmit queue (R130), and a frame's departure, failure and withdrawal (R2, R178). -/

namespace Sys2Proof.Machine

/-! ## Offers of the Management Link -/

/-- The identifier of a channel's responses (10.1). -/
def responseIdent : Channel → Ident
  | .fleet => 0x6E8
  | .service => 0x6F8

/-- A response frame of a channel from its data bytes. -/
def responseFrame (ch : Channel) (data : List Byte) : Frame :=
  { format := .base, ident := responseIdent ch, data }

/-- A BUSY answer: the SINGLE frame 0x02, the code, 0x01 (R191). -/
def busyFrame (ch : Channel) (code : Byte) : Frame := responseFrame ch [0x02, code, stBusy]

/-- The frame came from a channel: a response frame or a BUSY answer. -/
def TxSource.ofChannel (ch : Channel) : TxSource → Bool
  | .response c => c == ch
  | .busy c => c == ch
  | _ => false

/-- The frame of a channel that waits at a port: at the port B arbiter, or in the port A queue (R128, R130). -/
def Ring.waitingOf (r : Ring) (ch : Channel) : PortId → Option TxFrame
  | .b =>
    match ch with
    | .fleet => r.waitingFleet
    | .service => r.waitingService
  | .a => r.queueA.find? (·.source.ofChannel ch)

/-- A channel's frame waits at a port. -/
def offerFrame (ch : Channel) (port : PortId) (f : TxFrame) (p : Part) : Part :=
  match port, ch with
  | .b, .fleet => { p with ring := { p.ring with waitingFleet := some f } }
  | .b, .service => { p with ring := { p.ring with waitingService := some f } }
  | .a, _ => { p with ring := { p.ring with queueA := p.ring.queueA ++ [f] } }

/-- A channel's BUSY answer held for a port. -/
def Chan.busyAt (c : Chan) : PortId → Option Busy
  | .a => c.busyA
  | .b => c.busyB

def Chan.setBusy (c : Chan) (port : PortId) (b : Option Busy) : Chan :=
  match port with
  | .a => { c with busyA := b }
  | .b => { c with busyB := b }

/-- The response timeout of each frame offered (R178). -/
abbrev responseTimeoutMs : Nat := 1000

/-- A channel's next offer at a port where none of its frames waits: the BUSY answer held for it, else the next frame of
its response once the one before has left (R175, R178). A response formed while the channel's BUSY answer waits at the port
is offered once that frame no longer waits. DESIGN CHOICE (log 43). -/
def offerNext (ch : Channel) (port : PortId) (p : Part) : Part :=
  if (p.ring.waitingOf ch port).isSome then p
  else
    let c := p.chan ch
    match c.busyAt port with
    | some b =>
      offerFrame ch port { frame := busyFrame ch b.code, source := .busy ch, timeout := some b.timeout }
        (p.setChan ch (c.setBusy port none))
    | none =>
      if c.state = .responding ∧ c.port = port ∧ c.offered = false then
        match c.outbox with
        | [] => p
        | data :: rest =>
          offerFrame ch port
            { frame := responseFrame ch data, source := .response ch, timeout := some responseTimeoutMs }
            (p.setChan ch { c with outbox := rest, offered := true })
      else p

/-- Every channel makes its offers. -/
def linkOffers (p : Part) : Part :=
  offerNext .service .a (offerNext .service .b (offerNext .fleet .b p))

/-! ## Grants to the transmitters (R128, R130) -/

/-- Port A's transmitter, empty and RUNNING, takes the head of its queue (R130). -/
def fillA (p : Part) : Part :=
  if p.portA.state = .running ∧ p.portA.tx.isNone then
    match p.ring.queueA with
    | [] => p
    | f :: rest => { p with portA := { p.portA with tx := some f }, ring := { p.ring with queueA := rest } }
  else p

/-- The port B arbiter's grant: a Service response, a Fleet response, the status frame, or the Forwarder's pointer record
(R128). -/
def fillB (p : Part) : Part :=
  if p.portB.state = .running ∧ p.portB.tx.isNone then
    match p.ring.waitingService, p.ring.waitingFleet, p.ring.waitingStatus, p.ring.pointerRecord with
    | some f, _, _, _ =>
      { p with portB := { p.portB with tx := some f }, ring := { p.ring with waitingService := none } }
    | none, some f, _, _ =>
      { p with portB := { p.portB with tx := some f }, ring := { p.ring with waitingFleet := none } }
    | none, none, some f, _ =>
      { p with portB := { p.portB with tx := some f }, ring := { p.ring with waitingStatus := none } }
    | none, none, none, some rec => handOver rec p
    | none, none, none, none => p
  else p

/-- Offers, grants, and the offers that the grants make room for. -/
def transmitSettle (p : Part) : Part := linkOffers (fillB (fillA (linkOffers p)))

/-! ## The restore begins (9.5, R39) -/

/-- The page a restore reads for its item. -/
def RestoreItem.page (nextArchive newestHire : Nat) : RestoreItem → Nat
  | .image page => page
  | .ringHeader position => ringPage position
  | .ringBody position page _ => ringPage position + page
  | .component page => componentPage nextArchive + page
  | .hire page => hirePage (newestHire + 1) + page
  | .captureHeader entry => capturePage entry

/-- The memory's time for an attempt, in ms: a read, or a write with its read-back (R153, log 15). -/
abbrev answerTime : Nat := 20

/-- A transaction begins, at its first attempt (R153). -/
def beginTransaction (owner : Owner) (page : Nat) (write : Option (List Byte)) (p : Part) : Part :=
  p.setStorage { p.storage with bus := some { owner, page, write, attempt := 1, timer := answerTime } }

/-- The restore reads the page of its item. -/
def restoreRead (p : Part) : Part :=
  match p.restore with
  | some r => beginTransaction .restore (r.item.page p.register.nextArchive p.hire.newest) none p
  | none => p

/-- The part does what supply-on does: every block at its supply-on values, the lines as they stand, and the restore
reading its first page (R39, R163). The debounce runs when IGN is on (R34). An attempt, an engagement or a capture that
is open at a RESTART is lost. DESIGN CHOICE (log 42). -/
def beginRestore (p : Part) : Part :=
  restoreRead
    { Part.supplyOn with
      lines := p.lines
      restore := some {}
      modeCtl := { debounce := if p.lines.ign then some 100 else none } }

/-! ## Departure, failure and withdrawal -/

/-- A channel is IDLE again: what it held of a message or a response is gone; counts and BUSY answers stay. -/
def Chan.toIdle (c : Chan) : Chan :=
  { c with
    state := .idle, buffer := [], length := 0, expected := 0, gap := none, outbox := [], offered := false,
    restartAfter := false }

/-- A response is over: the channel is IDLE, and the response of RESTART begins the restart (R178). -/
def endResponse (ch : Channel) (p : Part) : Part :=
  let q := p.setChan ch (p.chan ch).toIdle
  if (p.chan ch).restartAfter then beginRestore q else q

/-- What a frame's departure does to its source (R67, R125, R178). -/
def frameLeft (f : TxFrame) (p : Part) : Part :=
  match f.source with
  | .response ch =>
    if (p.chan ch).outbox = [] then endResponse ch p else p.setChan ch { p.chan ch with offered := false }
  | .forward => { p with ring := { p.ring with forwarded := addSat max32 p.ring.forwarded 1 } }
  | .probe =>
    { p with register := { p.register with query := p.register.query.map fun q => { q with sent := true } } }
  | _ => p

/-- A successful transmission: the level falls by 1, stopping at 0, and the frame leaves (R2). -/
def transmitted (port : PortId) (p : Part) : Part :=
  let q := p.port port
  match q.tx with
  | some f =>
    if q.state = .running then
      frameLeft f (p.setPort port { q with tx := none, errorLevel := q.errorLevel - 1 })
    else p
  | none => p

/-- A failed transmission: 8 more on the level, or BUS_OFF when that would pass 255 (R2). -/
def Port.failed (q : Port) : Port :=
  if 255 < q.errorLevel + 8 then
    { q with state := .busOff, errorLevel := 0, busOffs := addSat max16 q.busOffs 1, recovery := some 200 }
  else { q with errorLevel := q.errorLevel + 8 }

/-- A frame withdrawn at its response timeout: a response is abandoned and counted, a BUSY answer is only withdrawn
(R178). -/
def frameWithdrawn (f : TxFrame) (p : Part) : Part :=
  match f.source with
  | .response ch =>
    endResponse ch
      (p.setChan ch
        { p.chan ch with abandonedResponses := addSat max16 (p.chan ch).abandonedResponses 1 })
  | _ => p

/-- A channel's frame leaves the place where it waits at a port. -/
def removeWaiting (ch : Channel) (port : PortId) (p : Part) : Part :=
  match port, ch with
  | .b, .fleet => { p with ring := { p.ring with waitingFleet := none } }
  | .b, .service => { p with ring := { p.ring with waitingService := none } }
  | .a, _ => { p with ring := { p.ring with queueA := p.ring.queueA.filter fun f => !f.source.ofChannel ch } }

/-- The response timeout of the frame at a place expires (R178). -/
def expireResponse (place : FramePlace) (p : Part) : Part :=
  match place with
  | .held ch port => p.setChan ch ((p.chan ch).setBusy port none)
  | .waiting ch port =>
    match p.ring.waitingOf ch port with
    | some f => frameWithdrawn f (removeWaiting ch port p)
    | none => p
  | .transmitter port =>
    match (p.port port).tx with
    | some f =>
      if f.timeout.isSome then frameWithdrawn f (p.setPort port { p.port port with tx := none }) else p
    | none => p

end Sys2Proof.Machine
end

