-- ==== Sys2Proof/Machine/ProbeUnit.lean ====
section
/-! DEFINITION. The Probe Unit: queries, verification attempts and their outcomes (4.4). -/

namespace Sys2Proof.Machine

/-- A query's frame joins the port A transmit queue, and the reply timeout starts (R67, R130). -/
def sendQuery (f : Frame) (q : Query) (p : Part) : Part :=
  { p with
    ring := { p.ring with queueA := p.ring.queueA ++ [{ frame := f, source := .probe, timeout := none }] }
    register := { p.register with query := some q } }

/-- The frame of a verification query (R67). -/
def QuerySetup.frame (q : QuerySetup) : Frame :=
  { format := q.queryFormat, ident := q.queryIdent, data := q.queryBytes }

/-- An attempt of the verification in hand, with the query setup of its slot as it stands (R67). -/
def startAttempt (n : Nat) (p : Part) : Part :=
  match (p.slot n).bind (·.query) with
  | some setup =>
    sendQuery setup.frame
      { forProbe := false, replyFormat := setup.replyFormat, replyIdent := setup.replyIdent, sent := false, timer := 200 }
      p
  | none => { p with register := { p.register with inHand := none } }

/-- The IDLE Probe Unit takes its next query: a waiting probe, the next attempt in hand, or the lowest queued slot
(R67). -/
def probeNext (p : Part) : Part :=
  let r := p.register
  match r.query, r.waitingProbe, r.inHand, r.pollQueue with
  | some _, _, _, _ => p
  | none, some w, _, _ =>
    sendQuery w.frame
      { forProbe := true, replyFormat := w.replyFormat, replyIdent := w.replyIdent, sent := false, timer := w.timeout }
      { p with register := { r with waitingProbe := none } }
  | none, none, some h, _ => startAttempt h.slot p
  | none, none, none, n :: rest =>
    startAttempt n { p with register := { r with pollQueue := rest, inHand := some { slot := n, attempt := 1 } } }
  | none, none, none, [] => p

/-- An answered verification's outcome on the slot as it stands (R68). -/
def Component.answered (c : Component) (serial : Serial) : Component :=
  match c.hold with
  | some h => { c with hold := some { h with reported := serial }, silent := 0 }
  | none =>
    if c.identity = some serial then { c with verification := .verified, silent := 0 }
    else { c with hold := some { reported := serial }, verification := .unverified, silent := 0 }

/-- The outcome of a verification that no attempt answered (R68). -/
def Component.silence (c : Component) : Component :=
  { c with
    verification := if c.hold.isSome then c.verification else .unverified
    silent := addSat 255 c.silent 1 }

/-- The serial an attempt's reply gives: 6 bytes from the offset, when the reply carries them (R58, R68). -/
def replySerial (offset : Nat) (reply : Option Frame) : Option Serial :=
  match reply with
  | some f => if offset + 6 ≤ f.data.length then some (serialAt f.data offset) else none
  | none => none

/-- The verification in hand is over. -/
def endVerification (p : Part) : Part := { p with register := { p.register with inHand := none } }

/-- An attempt ends with a reply or without (R68). The verification in hand then has the next attempt's number, also while
a probe is served before that attempt begins. DESIGN CHOICE (log 12). -/
def endAttemptInHand (h : InHand) (reply : Option Frame) (p : Part) : Part :=
  match p.slot h.slot with
  | none => endVerification p
  | some c =>
    match replySerial ((c.query.map (·.offset)).getD 0) reply with
    | some serial => endVerification (p.setSlot h.slot (some (c.answered serial)))
    | none =>
      if 3 ≤ h.attempt then endVerification (p.setSlot h.slot (some c.silence))
      else { p with register := { p.register with inHand := some { h with attempt := h.attempt + 1 } } }

/-- The response of a Probe: the reply frame, or NO_REPLY as an absent result (R72, R190). -/
def probeAnswer (reply : Option Frame) : List Byte :=
  [0x19, stDone] ++
    match reply with
    | some f => yesNo true ++ frameResult f
    | none => yesNo false ++ List.replicate 14 0

/-- The query in progress ends (R67, R72): a probe is answered; a verification's attempt is judged, or ignored when its
verification was abandoned (R69). -/
def endQuery (reply : Option Frame) (p : Part) : Part :=
  match p.register.query with
  | none => p
  | some q =>
    let p := { p with register := { p.register with query := none } }
    if q.forProbe then respond .service (probeAnswer reply) p
    else
      match p.register.inHand with
      | some h => endAttemptInHand h reply p
      | none => p

/-- A port-A data frame is watched once the query's frame has left: the first of the awaited format and identifier is the
reply (R67). -/
def watchReply (f : Frame) (p : Part) : Part :=
  match p.register.query with
  | some q =>
    if q.sent ∧ f.format = q.replyFormat ∧ f.ident = q.replyIdent then endQuery (some f) p else p
  | none => p

/-- The reply timeout expires: an unsent frame is withdrawn and the query ends without a reply (R67, R130). -/
def expireReply (p : Part) : Part :=
  match p.register.query with
  | none => p
  | some _ =>
    let fromProbe := fun (f : TxFrame) => f.source == .probe
    endQuery none
      { p with
        ring := { p.ring with queueA := p.ring.queueA.filter fun f => !fromProbe f }
        portA := { p.portA with tx := if p.portA.tx.any fromProbe then none else p.portA.tx } }

end Sys2Proof.Machine
end

