-- ==== Sys2Proof/Machine/Power.lean ====
section
/-! DEFINITION. The Mode Controller's doings: wake, sleep entry and the quiet period (2.7), mode changes (R24, R25), the
validation of a set (R31) and its promotion (R32). -/

namespace Sys2Proof.Machine

/-! ## The storage arbiter as the Mode Controller sees it (R156) -/

/-- A requester is granted or waits at the arbiter. -/
def Part.arbiterBusy (p : Part) : Bool :=
  p.storage.bus.isSome || p.storage.short.state != .idle || p.storage.full.state != .idle ||
    p.modeCtl.save != .idle || !p.storage.archive.isEmpty || !p.storage.captureJobs.isEmpty ||
    !p.storage.readers.isEmpty

/-! ## The quiet period (R35) -/

/-- The quiet period's conditions hold together, and no sleep-entry checkpoint is awaited. -/
def Part.quiet (p : Part) : Bool :=
  !p.modeCtl.ignition && p.detector.engine == .stopped && p.link.fleet.state == .idle &&
    p.link.service.state == .idle && !p.capture.anyOpen && !p.arbiterBusy && p.modeCtl.save == .idle &&
    p.modeCtl.sleepWait.isNone

/-- The quiet period of 30 s. -/
abbrev quietPeriod : Nat := 30000

/-- The quiet timer starts when the conditions have come to hold, runs on while they do, and stops when one fails. -/
def settleQuiet (p : Part) : Part :=
  { p with
    modeCtl := { p.modeCtl with
      quiet := if p.quiet then some (p.modeCtl.quiet.getD quietPeriod) else none } }

/-- Traffic restarts a running quiet timer, and a wake cause during the sleep-entry checkpoint keeps the part awake
(R35). -/
def noteWakeCause (p : Part) : Part :=
  { p with
    modeCtl := { p.modeCtl with
      quiet := p.modeCtl.quiet.map fun _ => quietPeriod
      sleepWait := p.modeCtl.sleepWait.map fun _ => true } }

/-! ## Sleep entry and wake (R36) -/

/-- A port at sleep entry: LISTENING, nothing in its transmitter, a BUS_OFF port's recovery cancelled and its level 0
(R3, R133). -/
def Port.listen (q : Port) : Port :=
  { q with
    state := .listening
    recovery := none
    errorLevel := if q.state = .busOff then 0 else q.errorLevel
    tx := none }

/-- A port at a wake cause (R3). -/
def Port.wake (q : Port) : Port := { q with state := .running }

/-- A channel at a wake: IDLE, nothing waiting, its counts kept (R179). -/
def Chan.wake (c : Chan) : Chan := { c.toIdle with busyA := none, busyB := none }

/-- The ring emptied, with every waiting frame discarded; the counts, the next sequence and the ring time are kept
(R133). -/
def Ring.emptied (r : Ring) : Ring :=
  { r with
    records := [], pointer := r.next, age := none, waitingService := none, waitingFleet := none, waitingStatus := none,
    queueA := [] }

/-- Entry into SLEEPING (R36). -/
def sleepEntry (p : Part) : Part :=
  resetEpisodes
    { p with
      portA := p.portA.listen
      portB := p.portB.listen
      signals := p.signals.map fun s => { s with deadline := none }
      ring := p.ring.emptied
      clutch := { p.clutch with timer := none }
      wear := { p.wear with timer := none }
      register := { p.register with pollQueue := [], inHand := none, waitingProbe := none, query := none }
      modeCtl := { p.modeCtl with asleep := true, quiet := none, sleepWait := none }
      link := { p.link with fleet := p.link.fleet.wake, service := p.link.service.wake, statusTimer := none } }

/-- The wake effects (R21, R36, R55, R86, R101, R151, R179). -/
def wake (p : Part) : Part :=
  { p with
    portA := p.portA.wake
    portB := p.portB.wake
    signals := p.signals.map fun s => { s with status := .stale, deadline := none }
    roles := p.roles.map fun r => { r with source := .none, returns := 0 }
    detector := { engine := .stopped, attempt := none, windowA := none, windowB := none, firstRun := true }
    clutch := { timer := some 100, engagement := none, carry := 0 }
    wear := { p.wear with timer := some 1000, running := Vector.replicate 12 false }
    ring := p.ring.emptied
    capture := { p.capture with queue := [], copier := none, postTimeout := none, driveTimer := none }
    modeCtl := { p.modeCtl with asleep := false, quiet := none, sleepWait := none }
    link := { p.link with fleet := p.link.fleet.wake, service := p.link.service.wake, statusTimer := some 1000 } }

/-- A wake cause: it wakes a sleeping part, and counts against sleep entry otherwise (R35, R36). -/
def wakeCause (p : Part) : Part := if p.modeCtl.asleep then wake p else noteWakeCause p

/-! ## Mode changes (R24, R25, R26) -/

/-- The mode leaves ACTIVE: any open engagement closes under ACTIVE (R25). -/
def leaveActive (p : Part) : Part := if p.modeCtl.mode = .active then closeEngagement p else p

/-- The mode takes its new value with what enters or leaves with it: episode records are reset on leaving and on entering
ACTIVE (R113), running flags cleared on entering it (R86), and SETUP copies the active set (R26). -/
def enterMode (target : Mode) (p : Part) : Part :=
  let p := { p with modeCtl := { p.modeCtl with mode := target } }
  match target with
  | .active => resetEpisodes (clearRunning p)
  | .paused => resetEpisodes p
  | .setup =>
    resetEpisodes
      { p with modeCtl := { p.modeCtl with pendingSet := p.modeCtl.active, validation := .none } }

/-- An actual mode change, followed by a full checkpoint (R24, R25). -/
def changeMode (target : Mode) (p : Part) : Part := requestFull .modeChange none (enterMode target (leaveActive p))

/-! ## Validation (R7, R12, R19, R31) -/

/-- A frame entry of a set. -/
def TableSet.frame (t : TableSet) (i : Nat) : Option FrameEntry := (t.frames[i]?).join

/-- A signal entry of a set. -/
def TableSet.signal (t : TableSet) (i : Nat) : Option SignalEntry := (t.signals[i]?).join

/-- FRAME_DUPLICATE (R7): a lower-numbered entry in use has the same port, format and identifier. -/
def failsDuplicate (t : TableSet) (i : Nat) : Bool :=
  (t.frame i).any fun e =>
    (List.range i).any fun j =>
      (t.frame j).any fun d => d.port == e.port && d.format == e.format && d.ident == e.ident

/-- RESERVED_IDENTIFIER (R7). -/
def failsReserved (t : TableSet) (i : Nat) : Bool := (t.frame i).any fun e => isReserved e.format e.ident.toNat

/-- FORWARD_FROM_B (R7). -/
def failsForward (t : TableSet) (i : Nat) : Bool := (t.frame i).any fun e => e.port == .b && e.forward

/-- SIGNAL_BAD_FRAME (R12). -/
def failsFrame (t : TableSet) (i : Nat) : Bool := (t.signal i).any fun e => (t.frame e.frame).isNone

/-- SIGNAL_BEYOND_FRAME (R12). -/
def failsBeyond (t : TableSet) (i : Nat) : Bool :=
  (t.signal i).any fun e => decide (7 < lastByte e.highFirst e.start e.length)

/-- The range of a role (R15). -/
def roleRange : Nat → Int × Int
  | 1 => (-125, 125)
  | 2 => (-40, 210)
  | 5 => (-3, 16)
  | 6 => (0, 125)
  | 7 => (0, 1)
  | 8 => (0, 1)
  | 9 => (0, 4000000000)
  | _ => (0, 8000)

/-- A set's Role Map names a signal as a source of a role. -/
def TableSet.serves (t : TableSet) (signal role : Nat) : Bool :=
  (t.roles[role]?).any fun e => e.primary == some signal || e.backup == some signal

/-- SIGNAL_RANGE (R12). -/
def failsRange (t : TableSet) (i : Nat) : Bool :=
  (t.signal i).any fun e =>
    decide (e.maximum < e.minimum) ||
      (List.range 10).any fun r =>
        t.serves i r &&
          !(inRange (roleRange r).1 (roleRange r).2 e.minimum && inRange (roleRange r).1 (roleRange r).2 e.maximum)

/-- ROLE_MISSING (R19): the role is required and its primary is absent or names an EMPTY entry. -/
def failsRole (register : Register) (t : TableSet) (r : Nat) : Bool :=
  register.requires r && (((t.roles[r]?.getD {}).primary.bind t.signal).isNone)

/-- Each edge is greater than the edge before it. -/
def ascending : List Int → Bool
  | a :: b :: rest => decide (a < b) && ascending (b :: rest)
  | _ => true

/-- EDGES_NOT_ASCENDING (R31). -/
def failsEdges (t : TableSet) (k : Nat) : Bool :=
  (t.bins[k]?).any fun b =>
    !(ascending b.load.toList && ascending b.speed.toList && ascending b.temperature.toList)

/-- LIMIT_INCONSISTENT's three checks (R31). -/
def failsLimit (t : TableSet) (check : Nat) : Bool :=
  let l := t.limits
  match check with
  | 0 => decide (l.stall ≤ l.crank)
  | 1 => decide (l.run < l.stall + 50)
  | 2 => decide (l.overspeedSpeed ≤ l.luggingSpeed)
  | _ => false

/-- Reasons 1 to 9 in order, each with the number of its items and its check. -/
def validationChecks (register : Register) (t : TableSet) : List (Nat × Nat × (Nat → Bool)) :=
  [(1, 64, failsDuplicate t), (2, 64, failsReserved t), (3, 64, failsForward t), (4, 48, failsFrame t),
    (5, 48, failsBeyond t), (6, 48, failsRange t), (7, 10, failsRole register t), (8, 8, failsEdges t),
    (9, 3, failsLimit t)]

/-- The first reason for which any item fails, with its lowest failing item index (R31). -/
def validate (register : Register) (t : TableSet) : Option (Nat × Nat) :=
  (validationChecks register t).findSome? fun (reason, items, fails) =>
    ((List.range items).find? fails).map fun i => (reason, i)

/-! ## Promotion (R21, R32, R99, R126) -/

/-- A kind's load or speed edges differ between two sets (R99). -/
def edgesDiffer (old new : TableSet) (k : Kind) : Bool :=
  match old.bins[k.num]?, new.bins[k.num]? with
  | some a, some b => a.load != b.load || a.speed != b.speed
  | _, _ => false

/-- The spectra of slots whose kind's edges changed fold into unbinned (R99). -/
def foldSpectra (old new : TableSet) (p : Part) : Part :=
  { p with
    register := { p.register with
      slots := p.register.slots.map fun s =>
        s.map fun c => if edgesDiffer old new c.kind then c.fold else c } }

/-- The pending set becomes the active set, with what begins again at promotion (R21, R32, R55, R126). -/
def promote (p : Part) : Part :=
  let old := p.modeCtl.active
  let new := p.modeCtl.pendingSet
  let p := foldSpectra old new
    { p with
      modeCtl := { p.modeCtl with active := new, passAll := false, save := .idle, savePage := 0 }
      matcher := { p.matcher with counts := Vector.replicate 64 0 }
      signals := Vector.replicate 48 {}
      roles := Vector.replicate 10 {} }
  let p := loseSpeed p
  if p.ring.age.isSome then movePointer p.ring.pointer p else p

end Sys2Proof.Machine
end

