-- ==== Sys2Proof/Machine/Readers.lean ====
section
/-! DEFINITION. The management reader: Collect Hire (R112), Read Records (R186, R187) and Scan Archive (R188, R189). -/

namespace Sys2Proof.Machine

/-- What a reader does next: it reads for its work, or its response is ready. -/
inductive ReaderNext where
  | read (task : ReaderTask)
  | done (message : List Byte)
  deriving DecidableEq, Repr

/-! ## Entries and responses (R194, R189) -/

/-- Records kept by the two archives (R65, R111). -/
abbrev componentRing : Nat := 64
abbrev hireRing : Nat := 320

/-- The newest written component archive number. -/
def Register.newestArchive (r : Register) : Nat := r.nextArchive - 1

/-- A number is no longer held by a ring of a capacity, judged without a read (R186). -/
def goneBy (capacity newest number : Nat) : Bool := decide (number + capacity ≤ newest)

/-- The response of Read Records: next number or index, remaining count, entries (R194). The number after 4,294,967,295 is
sent modulo 2^32, as 0. DESIGN CHOICE (log 35). -/
def recordsResponse (next remaining : Nat) (out : List Byte) : List Byte :=
  [0x40, stDone] ++ beBytes 4 next ++ beBytes 2 remaining ++ out

/-- An entry fits with the 8-byte header in 1,024 bytes (R186, R194). -/
def entryFits (out entry : List Byte) : Bool := decide (8 + out.length + entry.length ≤ 1024)

/-- GONE and CORRUPT entries of an archive number (R194). -/
def goneEntry (number : Nat) : List Byte := [0x02] ++ beBytes 4 number
def corruptEntry (number : Nat) : List Byte := [0x01] ++ beBytes 4 number

/-- The entry a read archive record gives: its content, CORRUPT, or GONE when it carries another number (R186). A record
replaced in part while it was read, which is both, is CORRUPT. DESIGN CHOICE (log 36). -/
def archiveEntry (contentSize number : Nat) (spoiled : Bool) (record : List Byte) : List Byte :=
  if spoiled || !recordValid archiveSize record then corruptEntry number
  else if natAt record 0 4 ≠ number then goneEntry number
  else [0x00] ++ record.take contentSize

/-- Scan stops (R190). -/
abbrev scanFound : Byte := 0
abbrev scanExhausted : Byte := 1
abbrev scanSuspended : Byte := 2

/-- The counts a scan's response ends with (R189). The number after 4,294,967,295 is sent modulo 2^32, as 0. DESIGN CHOICE
(log 35). -/
def scanCounts (next remaining skipped : Nat) : List Byte :=
  beBytes 4 next ++ beBytes 2 remaining ++ beBytes 2 skipped

/-! ## What needs no read -/

/-- A run over an archive from a number: GONE entries by number until one that has to be read, the end of the count, or
an entry that would not fit (R186). The count is the first argument. -/
def runArchive (newest capacity : Nat) (task : Nat → Nat → List Byte → ReaderTask) :
    Nat → Nat → List Byte → ReaderNext
  | 0, next, out => .done (recordsResponse next 0 out)
  | r + 1, next, out =>
    if goneBy capacity newest next then
      if entryFits out (goneEntry next) then runArchive newest capacity task r (next + 1) (out ++ goneEntry next)
      else .done (recordsResponse next (r + 1) out)
    else .read (task next (r + 1) out)

/-- An entry is appended and the run ends there with a next index and a remaining count; without room for it, it is left
out and the run's own count remains. -/
def closeRun (index remaining after : Nat) (out entry : List Byte) : ReaderNext :=
  if entryFits out entry then .done (recordsResponse index after (out ++ entry))
  else .done (recordsResponse index remaining out)

/-- The entry is closed: its capture is no longer OPEN. -/
def CaptureEntry.closed (e : CaptureEntry) : Bool := e.state != .opened

/-- A run over a capture's frames from an index, by the entry as it stands (R187). The next index of a response that ends
with GONE is the first index not returned. DESIGN CHOICE (log 12). -/
def runFrames (c : Capture) (number index remaining : Nat) (out : List Byte) : ReaderNext :=
  match c.entryOf number with
  | none => closeRun index remaining 0 out ([0x02] ++ beBytes 2 index)
  | some e =>
    match c.entry e with
    | none => closeRun index remaining 0 out ([0x02] ++ beBytes 2 index)
    | some x =>
      if remaining = 0 then .done (recordsResponse index 0 out)
      else if x.stored ≤ index then
        if x.closed then .done (recordsResponse index 0 out)
        else closeRun x.stored remaining remaining out ([0x03] ++ beBytes 2 x.stored)
      else
        .read (.frames number index (if x.closed then min remaining (x.stored - index) else remaining) out)

/-- A scan from a number: numbers GONE without a read are skipped until one that has to be read (R188). The remaining
count is the first argument. -/
def runScan (newest field sense value timer : Nat) : Nat → Nat → Nat → ReaderNext
  | 0, next, skipped => .done ([0x41, stDone, scanExhausted] ++ scanCounts next 0 skipped)
  | r + 1, next, skipped =>
    if goneBy hireRing newest next || decide (newest < next) then
      runScan newest field sense value timer r (next + 1) (skipped + 1)
    else .read (.scan next (r + 1) field sense value skipped timer)

/-- What a reader's work asks for next, as the part stands. -/
def Part.readerNext (p : Part) : ReaderTask → ReaderNext
  | .collect number dropped => .read (.collect number dropped)
  | .components next remaining out =>
    runArchive p.register.newestArchive componentRing .components remaining next out
  | .hires next remaining out => runArchive p.hire.newest hireRing .hires remaining next out
  | .frames number index remaining out => runFrames p.capture number index remaining out
  | .scan next remaining field sense value skipped timer =>
    runScan p.hire.newest field sense value timer remaining next skipped

/-! ## What a completed read gives -/

/-- Pages to one read (R156). -/
def ReaderTask.pages : ReaderTask → Nat
  | .frames .. => 1
  | _ => 4

/-- A run goes on after an entry, or ends at the first that would not fit (R186). -/
def appendEntry (task : Nat → Nat → List Byte → ReaderTask) (next remaining : Nat) (out entry : List Byte) :
    ReaderTask ⊕ List Byte :=
  if entryFits out entry then .inl (task (next + 1) (remaining - 1) (out ++ entry))
  else .inr (recordsResponse next remaining out)

/-- The number leaves the queue if it is held, and the dropped flag is cleared when that leaves the queue empty (R109,
R112). -/
def Hire.collect (h : Hire) (number : Nat) : Hire :=
  if h.queue.contains number then
    let queue := h.queue.filter (· ≠ number)
    { h with queue, dropped := h.dropped && !queue.isEmpty }
  else h

/-- Collect Hire's response and its removal (R112). The record, or its number marked CORRUPT, has the form of an entry of
Read Records. DESIGN CHOICE (log 12). -/
def finishCollect (number : Nat) (dropped spoiled : Bool) (record : List Byte) (p : Part) : Part × List Byte :=
  let h := p.hire.collect number
  let entry :=
    if spoiled || !recordValid archiveSize record then corruptEntry number
    else [0x00] ++ record.take hireContentSize
  ({ p with hire := h },
    [0x23, stDone] ++ entry ++ beBytes 1 h.queue.length ++ yesNo dropped ++ yesNo (p.hire.dropped && !h.dropped))

/-- The read flag of a closed capture whose last stored frame a response returns is set (R150, R187). -/
def noteRead (number : Nat) (last : Bool) (c : Capture) : Capture :=
  match c.entryOf number with
  | some e => c.mapEntry e fun x => if last && x.closed then { x with read := true } else x
  | none => c

/-- A frame page read for a capture (R187, R193, R194): its frames as far as they fit, or one CORRUPT entry. The frames of a
capture overwritten or released while its page was read are dropped, and GONE follows from that index. DESIGN CHOICE
(log 40). -/
def finishFrames (number index remaining : Nat) (out : List Byte) (spoiled : Bool) (page : List Byte) (p : Part) :
    Part × (ReaderTask ⊕ List Byte) :=
  match (p.capture.entryOf number).bind p.capture.entry with
  | none => (p, .inl (.frames number index remaining out))
  | some x =>
    let first := framesPerPage * (index / framesPerPage)
    let held := min framesPerPage (x.stored - first)
    let covered := min remaining (first + held - index)
    if spoiled || !framePageValid page then
      let entry := [0x01] ++ beBytes 2 first ++ beBytes 1 held
      if entryFits out entry then (p, .inl (.frames number (index + covered) (remaining - covered) (out ++ entry)))
      else (p, .inr (recordsResponse index remaining out))
    else
      let given := min covered ((1024 - 8 - out.length) / 23)
      let frames := (List.range given).flatMap fun i =>
        frameEntryBytes x (bytesAt page (16 * (index - first + i)) 16)
      let p := { p with capture := noteRead number (decide (0 < given) && index + given == x.stored) p.capture }
      if given < covered then (p, .inr (recordsResponse (index + given) (remaining - given) (out ++ frames)))
      else (p, .inl (.frames number (index + given) (remaining - given) (out ++ frames)))

/-- The field of a hire record that a scan tests: CONTRACT, OPEN_CHANNEL or ABUSE_PRESENT (R188). -/
def scanField (field : Nat) (record : List Byte) : Nat :=
  match field with
  | 0 => natAt record 4 4
  | 1 => ((byteAt record 16).getLsbD 2).toNat
  | _ => if natAt record 19 8 = 0 then 0 else 1

/-- The record meets the sense (R188). -/
def meetsSense (sense value found : Nat) : Bool := if sense = 0 then found == value else found != value

/-- A record fully examined (R188). -/
def finishScan (next remaining field sense value skipped timer : Nat) (spoiled : Bool) (record : List Byte) :
    ReaderTask ⊕ List Byte :=
  let left := remaining - 1
  let skip := spoiled || !recordValid archiveSize record || natAt record 0 4 != next
  let skipped := if skip then skipped + 1 else skipped
  if !skip && meetsSense sense value (scanField field record) then
    .inr ([0x41, stDone, scanFound] ++ beBytes 4 next ++ scanCounts (next + 1) left skipped)
  else if left = 0 then .inr ([0x41, stDone, scanExhausted] ++ scanCounts (next + 1) 0 skipped)
  else .inl (.scan (next + 1) left field sense value skipped timer)

/-- A read has all its pages: the work goes on, or its response is ready. -/
def finishRead (r : Reader) (p : Part) : Part × (ReaderTask ⊕ List Byte) :=
  match r.task with
  | .collect number dropped =>
    let done := finishCollect number dropped r.spoiled r.buffer p
    (done.1, .inr done.2)
  | .components next remaining out =>
    (p, appendEntry .components next remaining out (archiveEntry componentContentSize next r.spoiled r.buffer))
  | .hires next remaining out =>
    (p, appendEntry .hires next remaining out (archiveEntry hireContentSize next r.spoiled r.buffer))
  | .frames number index remaining out => finishFrames number index remaining out r.spoiled r.buffer p
  | .scan next remaining field sense value skipped timer =>
    (p, finishScan next remaining field sense value skipped timer r.spoiled r.buffer)

/-- A request's answer when storage does not answer its read (R112, R186, R189). -/
def readFailure : ReaderTask → List Byte
  | .collect .. => [0x23, stStorageFault]
  | .components next remaining out => if out = [] then [0x40, stStorageFault] else recordsResponse next remaining out
  | .hires next remaining out => if out = [] then [0x40, stStorageFault] else recordsResponse next remaining out
  | .frames _ index remaining out => if out = [] then [0x40, stStorageFault] else recordsResponse index remaining out
  | .scan next remaining _ _ _ skipped _ => [0x41, stStorageFault] ++ scanCounts next remaining skipped

/-! ## The readers at the arbiter (R156) -/

def Part.setReaders (p : Part) (rs : List Reader) : Part := p.setStorage { p.storage with readers := rs }

/-- A request's work reaches the arbiter behind the readers there, or is answered at once. -/
def startReader (ch : Channel) (task : ReaderTask) (p : Part) : Part :=
  match p.readerNext task with
  | .read t =>
    p.setReaders (p.storage.readers ++ [{ ch, task := t, page := 0, buffer := [], spoiled := false }])
  | .done message => respond ch message p

/-- A reader that has not begun its read is judged again as the part stands before its grant: answered, or kept. -/
def refreshReader (p : Part) (r : Reader) : Part :=
  if r.page ≠ 0 then p
  else
    match p.readerNext r.task with
    | .read t =>
      p.setReaders (p.storage.readers.map fun x => if x.ch = r.ch then { x with task := t } else x)
    | .done message => respond r.ch message (p.setReaders (p.storage.readers.filter (·.ch ≠ r.ch)))

def refreshReaders (p : Part) : Part := p.storage.readers.foldl refreshReader p

/-- The first page of the read that a reader's work is at. -/
def Part.taskPage (p : Part) : ReaderTask → Nat
  | .collect number _ => hirePage number
  | .components next _ _ => componentPage next
  | .hires next _ _ => hirePage next
  | .frames number index _ _ => capturePage ((p.capture.entryOf number).getD 0) + 1 + index / framesPerPage
  | .scan next _ _ _ _ _ _ => hirePage next

/-- The head reader's page has been read: the next page follows, or the read is finished and the reader goes behind the
others or is answered. -/
def readerTook (bytes : List Byte) (spoiled : Bool) (p : Part) : Part :=
  match p.storage.readers with
  | [] => p
  | r :: rest =>
    let r := { r with page := r.page + 1, buffer := r.buffer ++ bytes, spoiled := r.spoiled || spoiled }
    if r.page < r.task.pages then p.setReaders (r :: rest)
    else
      match finishRead r p with
      | (p, .inl task) =>
        match p.readerNext task with
        | .read t => p.setReaders (rest ++ [{ ch := r.ch, task := t, page := 0, buffer := [], spoiled := false }])
        | .done message => respond r.ch message (p.setReaders rest)
      | (p, .inr message) => respond r.ch message (p.setReaders rest)

/-- Storage does not answer the head reader's read: its request ends. -/
def readerFailed (p : Part) : Part :=
  match p.storage.readers with
  | [] => p
  | r :: rest => respond r.ch (readFailure r.task) (p.setReaders rest)

/-- What remains of the scan timer of a channel's scan. -/
def Reader.scanTimer (r : Reader) : Option Nat :=
  match r.task with
  | .scan _ _ _ _ _ _ timer => some timer
  | _ => none

/-- The scan timer expires: SUSPENDED, the pending read withdrawn (R189). -/
def expireScan (ch : Channel) (p : Part) : Part :=
  match p.storage.readers.find? (·.ch == ch) with
  | some r =>
    match r.task with
    | .scan next remaining _ _ _ skipped _ =>
      let bus := if p.storage.bus.any (·.owner == .reader ch) then none else p.storage.bus
      respond ch ([0x41, stDone, scanSuspended] ++ scanCounts next remaining skipped)
        (p.setStorage { p.storage with bus, readers := p.storage.readers.filter (·.ch ≠ ch) })
    | _ => p
  | none => p

end Sys2Proof.Machine
end

