-- ==== Sys2Proof/Machine/RestoreUnit.lean ====
section
/-! DEFINITION. The restore at supply-on and after RESTART (9.5): the table image, the checkpoint scan, short checkpoints
applied, the archive checks, the capture directory, and the end. -/

namespace Sys2Proof.Machine

/-! ## Short checkpoints applied (R164, R165) -/

/-- The short speaks of the same component: same kind and install clock (R164). -/
def ShortSlot.matches (s : ShortSlot) (c : Component) : Bool := s.kind == c.kind && s.installClock == c.installClock

/-- A slot's figures become the short's; the spectrum stays, unbinned rises by the time or events gained, and the cells
fold when the generation differs (R164). -/
def Component.takeShort (c : Component) (s : ShortSlot) : Component :=
  let gained := c.kind.share s.events s.time - c.kind.share c.events c.time
  let taken :=
    { c with
      events := s.events, time := s.time, units := s.units, residue := s.residue, unobserved := s.unobserved
      unbinned := addSat max32 c.unbinned gained }
  if s.generation = c.generation then taken else { taken.fold with generation := s.generation }

/-- The HELD state of the full checkpoint against that of the short (R164). -/
def Component.resolveShort (c : Component) (pool : Option Pool) : Component :=
  match c.hold, pool with
  | none, none => c
  | some h, some q => { c with hold := some { h with pool := q } }
  | none, some q => c.mergePool q
  | some h, none => { c with hold := some { h with pool := {} } }

/-- A matching entry applied to a slot, and the cell counts folded by it (R164). -/
def Component.applyShort (c : Component) (s : ShortSlot) : Component × Nat :=
  let taken := c.takeShort s
  let resolved := taken.resolveShort s.pool
  ({ resolved with saturated := resolved.saturated || resolved.anyLimit }, taken.unbinned - s.unbinned)

/-- The newest of the shorts, in ascending order, whose entry for a slot matches it (log 32). -/
def lastMatch (n : Nat) (c : Component) (shorts : List ShortImage) : Option ShortSlot :=
  shorts.foldl (fun found s =>
    match (s.slots[n]?).join with
    | some e => if e.matches c then some e else found
    | none => found) none

/-- A slot with the shorts applied, and the cell counts folded. -/
def applyShorts (shorts : List ShortImage) (n : Nat) : Option Component → Option Component × Nat
  | none => (none, 0)
  | some c =>
    match lastMatch n c shorts with
    | some e => (some (c.applyShort e).1, (c.applyShort e).2)
    | none => (some c, 0)

/-- A usage entry takes a short's figures (R165). -/
def Usage.takeShort (u : Usage) (s : ShortUsage) : Usage :=
  { u with
    events := s.events, time := s.time, units := s.units, residue := s.residue, unobserved := s.unobserved
    held := s.held }

/-- The entry that a usage list lacks, with the slot's kind and identity; those of an EMPTY slot are not stated, so they are
free values (R165, log 32). -/
def missingUsage (slots : Vector (Option Component) 12) (hire slot : Nat) : Usage :=
  match (slots[slot]?).join with
  | some c => Usage.new slot c
  | none =>
    { slot
      kind := (Kind.ofNat? (Config.unstatedKind hire slot).toNat).getD .engine
      serial := Config.unstatedSerial hire slot }

/-- A hire's usage list with a short's entry applied: replaced in the entry of its slot, or added in slot order (R165). -/
def takeShortUsage (slots : Vector (Option Component) 12) (hire : Nat) (usage : List Usage) (s : ShortUsage) : List Usage :=
  updateUsage s.slot (missingUsage slots hire s.slot) (·.takeShort s) usage

/-- The hire re-created from a short, by the slots as the archive checks left them (R165, R166). -/
def ShortHire.recreate (s : ShortHire) (slots : Vector (Option Component) 12) : HireRecord where
  number := s.number
  contract := s.contract
  openClock := s.openClock
  openSync := s.openSync
  openChannel := s.openChannel
  usage := s.usage.foldl (takeShortUsage slots s.number) []
  abuse := Vector.replicate 4 0
  abuseList := []
  overflow := false
  close := none

/-- A short applied to the hire (R165): `known` is the full checkpoint's next hire number. Of two shorts with two higher
hires the later one's hire is kept to be re-created, and the earlier one's is not. DESIGN CHOICE (log 32). -/
def applyShortHire (known : Nat) (slots : Vector (Option Component) 12) (state : Hire × Option ShortHire)
    (s : ShortImage) : Hire × Option ShortHire :=
  let hire := { state.1 with nextNumber := max state.1.nextNumber s.nextHire }
  match s.hire with
  | none => (hire, state.2)
  | some sh =>
    if hire.current.any (·.number == sh.number) then
      ({ hire with
          current := hire.current.map fun r => { r with usage := sh.usage.foldl (takeShortUsage slots r.number) r.usage } },
        state.2)
    else if known ≤ sh.number then ({ hire with nextNumber := max hire.nextNumber (sh.number + 1) }, some sh)
    else (hire, state.2)

/-! ## The checkpoint scan (R163) -/

/-- The content of the full checkpoint at a ring position. -/
def Medium.fullAt (m : Medium) (position : Nat) : Snapshot :=
  readSnapshot (checkpointPayload fullPages (m.pages (ringPage position) fullPages))

/-- The content of the short checkpoint at a ring position. -/
def Medium.shortAt (m : Medium) (position : Nat) : ShortImage :=
  readShortImage (checkpointPayload shortPages (m.pages (ringPage position) shortPages))

/-- The cause byte of the checkpoint at a ring position. -/
def Medium.causeAt (m : Medium) (position : Nat) : Nat := natAt (m.page (ringPage position)) 7 1

/-- A record of consecutive pages is invalid in the medium for a failed or abandoned write, or by its check word. -/
def Medium.validAt (m : Medium) (page count : Nat) : Bool :=
  !m.anySpoiled page count && recordValid (pageSize * count) (m.pages page count)

/-- Whether a ring position holds a valid checkpoint: its sequence, kind and page count (R152). -/
def Medium.checkpointAt (m : Medium) (position : Nat) : Option (Nat × Nat × Nat) :=
  if m.anySpoiled (ringPage position) 1 then none
  else
    match headerOf (m.page (ringPage position)) with
    | none => none
    | some (sequence, kind, count, _) =>
      if position + count ≤ ringPages ∧ m.anySpoiled (ringPage position) count = false ∧
          checkpointValid sequence count (m.pages (ringPage position) count) then
        some (sequence, kind, count)
      else none

/-- The pair with the highest sequence. -/
def highestOf (found : List (Nat × Nat)) : Option (Nat × Nat) :=
  found.foldl (fun best x =>
    match best with
    | some b => if b.1 < x.1 then some x else some b
    | none => some x) none

/-- Checkpoints inserted in ascending sequence. -/
def insertBySequence (x : Nat × Nat) : List (Nat × Nat) → List (Nat × Nat)
  | [] => [x]
  | y :: rest => if x.1 < y.1 then x :: y :: rest else y :: insertBySequence x rest

def sortBySequence (found : List (Nat × Nat)) : List (Nat × Nat) := found.foldr insertBySequence []

/-- A full checkpoint's state becomes the part's (R163). -/
def takeSnapshot (s : Snapshot) (imageValid : Bool) (p : Part) : Part :=
  { p with
    register := { p.register with slots := s.slots, nextArchive := s.nextArchive }
    hire := { p.hire with
      current := s.hire, queue := s.queue, dropped := s.dropped, nextNumber := s.nextHire, newest := s.newestHire }
    capture := { p.capture with nextNumber := s.nextCapture }
    modeCtl := { p.modeCtl with mode := if imageValid then s.mode else .setup, clock := s.clock } }

/-- Every valid short above the full checkpoint applied in ascending sequence (R163, R164, R165). The numbers are how many
shorts there are and the cell counts folded. -/
def takeShorts (known : Nat) (shorts : List ShortImage) (p : Part) : Part × Option ShortHire × Nat :=
  let slots : Vector (Option Component) 12 :=
    Vector.ofFn fun n => (applyShorts shorts n (p.register.slots[n])).1
  let folded := (slotNumbers.map fun n => (applyShorts shorts n (p.slot n)).2).sum
  let hire := shorts.foldl (applyShortHire known slots) (p.hire, none)
  ({ p with
      register := { p.register with slots }
      hire := hire.1
      modeCtl := { p.modeCtl with clock := (shorts.getLast?.map (·.clock)).getD p.modeCtl.clock } },
    hire.2, folded)

/-- The scan is over: the newest full checkpoint and the shorts above it are taken, and the archive checks follow; without
a full checkpoint the counting state is clear and the capture headers follow (R163). -/
def endScan (m : Medium) (r : Restore) (p : Part) : Part × Restore :=
  let next := ((r.highest.map (·.1)).getD 0) + 1
  match highestOf r.fulls with
  | none =>
    (p.setStorage { p.storage with nextSequence := next, writePosition := 0, newest := none },
      { r with item := .captureHeader 0 })
  | some (sequence, position) =>
    let full := m.fullAt position
    let above := (sortBySequence r.shorts).filter fun x => decide (sequence < x.1)
    let taken := takeShorts full.nextHire (above.map fun x => m.shortAt x.2) (takeSnapshot full r.imageValid p)
    (taken.1.setStorage { taken.1.storage with
        nextSequence := next
        writePosition := (r.highest.map (·.2)).getD 0
        newest := some (sequence, position)
        last := { taken := some sequence, shorts := above.length, folded := taken.2.2, recovered := 0 } },
      { r with
        item := .component 0
        fullFound := true
        fullIsRestart := m.causeAt position == CheckpointCause.restart.num
        recreate := taken.2.1
        captures := full.captures })

/-! ## The archive checks (R166) -/

/-- The last restore record counts a record recovered. -/
def countRecovered (p : Part) : Part :=
  p.setStorage { p.storage with last := { p.storage.last with recovered := p.storage.last.recovered + 1 } }

/-- The Register acts on a recovered component record (R78). -/
def recoverComponent (record : ArchiveRecord) (p : Part) : Part :=
  let p := { p with register := { p.register with nextArchive := p.register.nextArchive + 1 } }
  match record.cause, p.slot record.slot with
  | .removed, some c =>
    if c.kind = record.component.kind ∧ c.identity = record.component.identity then p.setSlot record.slot none else p
  | _, _ => p

/-- A closed hire's number joins the queue; a ninth drops the head and sets the dropped flag (R109). -/
def Hire.append (h : Hire) (number : Nat) : Hire :=
  if 8 ≤ h.queue.length then { h with queue := h.queue.drop 1 ++ [number], dropped := true }
  else { h with queue := h.queue ++ [number] }

/-- Hire Accounting acts on a recovered hire record (R120): the newest archived number becomes its number (R166), and when
it is the restored open hire's, or that of the hire to be re-created, that hire is closed and queued; the record of any
other hire is not, and does not raise the next hire number. DESIGN CHOICE (log 32). -/
def recoverHire (number : Nat) (r : Restore) (p : Part) : Part × Restore :=
  let h := { p.hire with newest := number }
  if h.current.any (·.number == number) then ({ p with hire := { h.append number with current := none } }, r)
  else if r.recreate.any (·.number == number) then ({ p with hire := h.append number }, { r with recreate := none })
  else ({ p with hire := h }, r)

/-! ## The capture directory (R151) -/

/-- The entry a header page gives: FREE for one that fails its check or says FREE; FAILED with no frames for OPEN; with the
checkpoint's flags when its capture number agrees. -/
def rebuildEntry (m : Medium) (entry : Nat) (flags : Nat × Bool × Bool) : Option CaptureEntry :=
  if m.validAt (capturePage entry) 1 then
    (readCaptureHeader (m.page (capturePage entry))).map fun e =>
      let e := if flags.1 = e.number then { e with locked := flags.2.1, read := flags.2.2 } else e
      if e.state = .opened then { e with state := .failed, stored := 0 } else e
  else none

/-- A header that says OPEN raises CAPTURE_READY (R151). -/
def headerOpen (m : Medium) (entry : Nat) : Bool :=
  m.validAt (capturePage entry) 1 &&
    (readCaptureHeader (m.page (capturePage entry))).any fun e => e.state == .opened

/-- One entry of the directory rebuilt from its header page. -/
def rebuildCapture (m : Medium) (entry : Nat) (flags : Nat × Bool × Bool) (p : Part) : Part :=
  let e := rebuildEntry m entry flags
  { p with
    capture := { p.capture with
      entries := p.capture.entries.setIfInBounds entry e
      nextNumber := max p.capture.nextNumber ((e.map (·.number)).getD 0 + 1) }
    link := { p.link with captureReady := p.link.captureReady || headerOpen m entry } }

/-! ## The end (R167, R168) -/

/-- A restored slot's verification status (R77, R167). -/
def Component.restored (c : Component) : Component :=
  { c with
    verification :=
      if c.hold.isSome then .unverified else if c.query.isSome then .pending else c.verification }

/-- The restore ends: statuses, the re-created hire, SUPPLY_GAP, the timers of the awake part, and the request for the
restore's full checkpoint (R84, R91, R165, R167, R168, R184). A re-created hire takes the place of a restored open hire
whose archived record was not found, and that hire is dropped. DESIGN CHOICE (log 32). -/
def restoreEnd (r : Restore) (p : Part) : Part :=
  requestFull .restore none
    { p with
      restore := none
      register := { p.register with slots := p.register.slots.map fun s => s.map Component.restored }
      hire := { p.hire with
        current := match r.recreate with | some h => some (h.recreate p.register.slots) | none => p.hire.current }
      wear := { p.wear with timer := some 1000 }
      clutch := { p.clutch with timer := some 100 }
      modeCtl := { p.modeCtl with sync := false }
      link := { p.link with
        supplyGap := r.fullFound && p.storage.last.shorts == 0 && !r.fullIsRestart
        statusTimer := some 1000 } }

/-! ## Steps -/

/-- The restore goes on with its record as given. -/
def continueRestore (r : Restore) (p : Part) : Part := restoreRead { p with restore := some r }

/-- The table image is judged (R33): a valid one becomes the active set; otherwise the empty set, pass-all and
TABLE_INVALID. The ring's headers follow. -/
def endImage (m : Medium) (answered : Bool) (r : Restore) (p : Part) : Part :=
  let valid := answered && m.validAt 0 imagePages
  let set := if valid then readImage (m.pages 0 imagePages) else TableSet.empty
  continueRestore { r with item := .ringHeader 0, imageValid := valid }
    { p with
      modeCtl := { p.modeCtl with active := set, pendingSet := set, passAll := !valid }
      link := { p.link with tableInvalid := !valid } }

/-- The scan goes on at the next even position, or is over. -/
def endPosition (m : Medium) (position : Nat) (r : Restore) (p : Part) : Part :=
  if position + 2 < ringPages then continueRestore { r with item := .ringHeader (position + 2) } p
  else
    let ended := endScan m r p
    continueRestore ended.2 ended.1

/-- A checkpoint whose pages have been read is judged (R163). -/
def endCheckpoint (m : Medium) (position : Nat) (r : Restore) (p : Part) : Part :=
  match m.checkpointAt position with
  | none => endPosition m position r p
  | some (sequence, kind, count) =>
    let r := { r with
      fulls := if kind = kindFull then r.fulls ++ [(sequence, position)] else r.fulls
      shorts := if kind = kindShort then r.shorts ++ [(sequence, position)] else r.shorts
      highest :=
        if r.highest.all fun h => decide (h.1 < sequence) then some (sequence, position + count) else r.highest }
    endPosition m position r p

/-- A component record that has been read is judged, and the check is repeated or the hire archive follows (R166). -/
def endComponent (m : Medium) (r : Restore) (p : Part) : Part :=
  let page := componentPage p.register.nextArchive
  match if m.validAt page 4 then readComponentRecord (m.pages page 4) else none with
  | some record =>
    if record.number = p.register.nextArchive then
      continueRestore { r with item := .component 0 } (countRecovered (recoverComponent record p))
    else continueRestore { r with item := .hire 0 } p
  | none => continueRestore { r with item := .hire 0 } p

/-- A hire record that has been read is judged, and the check is repeated or the capture headers follow (R166). -/
def endHire (m : Medium) (r : Restore) (p : Part) : Part :=
  let number := p.hire.newest + 1
  let page := hirePage number
  if m.validAt page 4 && natAt (m.pages page 4) 0 4 == number then
    let done := recoverHire number r (countRecovered p)
    continueRestore { done.2 with item := .hire 0 } done.1
  else continueRestore { r with item := .captureHeader 0 } p

/-- A capture header has been judged: the next one follows, or the restore ends. -/
def endHeader (entry : Nat) (r : Restore) (p : Part) : Part :=
  if entry + 1 < 8 then continueRestore { r with item := .captureHeader (entry + 1) } p else restoreEnd r p

/-- The restore's page has been read (R163 to R167). -/
def restoreTook (m : Medium) (p : Part) : Part :=
  match p.restore with
  | none => p
  | some r =>
    match r.item with
    | .image page => if page + 1 < imagePages then continueRestore { r with item := .image (page + 1) } p
      else endImage m true r p
    | .ringHeader position =>
      if m.anySpoiled (ringPage position) 1 then endPosition m position r p
      else
        match headerOf (m.page (ringPage position)) with
        | some (_, _, count, _) =>
          if position + count ≤ ringPages then continueRestore { r with item := .ringBody position 1 count } p
          else endPosition m position r p
        | none => endPosition m position r p
    | .ringBody position page count =>
      if page + 1 < count then continueRestore { r with item := .ringBody position (page + 1) count } p
      else endCheckpoint m position r p
    | .component page => if page + 1 < 4 then continueRestore { r with item := .component (page + 1) } p
      else endComponent m r p
    | .hire page => if page + 1 < 4 then continueRestore { r with item := .hire (page + 1) } p else endHire m r p
    | .captureHeader entry =>
      endHeader entry r (rebuildCapture m entry (r.captures[entry]?.getD (0, false, false)) p)

/-- Storage does not answer a read of the restore: its item is taken as invalid, and the restore goes on (R163). -/
def restoreUnanswered (m : Medium) (p : Part) : Part :=
  match p.restore with
  | none => p
  | some r =>
    match r.item with
    | .image _ => endImage m false r p
    | .ringHeader position => endPosition m position r p
    | .ringBody position _ _ => endPosition m position r p
    | .component _ => continueRestore { r with item := .hire 0 } p
    | .hire _ => continueRestore { r with item := .captureHeader 0 } p
    | .captureHeader entry => endHeader entry r p

end Sys2Proof.Machine
end

