-- ==== Sys2Proof/Machine/Arbiter.lean ====
section
/-! DEFINITION. The Storage Controller: checkpoint placement (R159), the arbiter's grants (R155, R156), how each
requester goes on at the end of a transaction (R153), and the power-fail warning (R161, R162). -/

namespace Sys2Proof.Machine

/-! ## Placement (R159) -/

/-- Step 1 of R159: a checkpoint that would pass the ring's end starts at 0. -/
def wrapPosition (w count : Nat) : Nat := if ringPages < w + count then 0 else w

/-- The position a checkpoint of a page count takes from the write position, never on the newest full checkpoint. -/
def placeAt (newest : Option (Nat × Nat)) (w count : Nat) : Nat :=
  let w := wrapPosition w count
  match newest with
  | some (_, position) =>
    if w < position + fullPages ∧ position < w + count then wrapPosition (position + fullPages) count else w
  | none => w

/-- A checkpoint is placed: its position and sequence, and the controller after it. -/
def placeCheckpoint (count : Nat) (st : Storage) : Nat × Nat × Storage :=
  let position := placeAt st.newest st.writePosition count
  (position, st.nextSequence, { st with nextSequence := st.nextSequence + 1, writePosition := position + count })

/-! ## Snapshots (R157, R160) -/

/-- The hire that a restore has to bring back as open: the open hire, or the closing one while its close has not completed
(R120). -/
def Hire.unclosed (h : Hire) : Option HireRecord := h.current.orElse fun _ => h.closing.map fun r => { r with close := none }

/-- The content of a full checkpoint at this moment (R157); a closing hire is in it as the open hire (R120, log 33). -/
def Part.snapshot (p : Part) : Snapshot where
  slots := p.register.slots
  hire := p.hire.unclosed
  queue := p.hire.queue
  dropped := p.hire.dropped
  nextHire := p.hire.nextNumber
  newestHire := p.hire.newest
  nextArchive := p.register.nextArchive
  nextCapture := p.capture.nextNumber
  captures := p.capture.entries.map fun e =>
    match e with
    | some x => (x.number, x.locked, x.read)
    | none => (0, false, false)
  mode := p.modeCtl.mode
  clock := p.modeCtl.clock
  sync := p.modeCtl.sync

/-- A slot's entry in a short checkpoint (R160). -/
def Component.shortSlot (c : Component) : ShortSlot where
  kind := c.kind
  installClock := c.installClock
  generation := c.generation
  events := c.events
  time := c.time
  units := c.units
  residue := c.residue
  unbinned := c.unbinned
  unobserved := c.unobserved
  pool := c.hold.map (·.pool)

/-- A usage entry in a short checkpoint (R160). -/
def Usage.shortUsage (u : Usage) : ShortUsage where
  slot := u.slot
  events := u.events
  time := u.time
  units := u.units
  residue := u.residue
  unobserved := u.unobserved
  held := u.held

/-- The open hire in a short checkpoint (R160). -/
def HireRecord.shortHire (h : HireRecord) : ShortHire where
  number := h.number
  contract := h.contract
  openClock := h.openClock
  openSync := h.openSync
  openChannel := h.openChannel
  usage := h.usage.map (·.shortUsage)

/-- The content of a short checkpoint at this moment (R160). -/
def Part.shortImage (p : Part) : ShortImage where
  slots := p.register.slots.map fun s => s.map (·.shortSlot)
  hire := p.hire.current.map (·.shortHire)
  nextHire := p.hire.nextNumber
  clock := p.modeCtl.clock

/-- A short checkpoint is placed and requested with the content of this moment (R160, R161). -/
def beginShort (p : Part) : Part :=
  let placed := placeCheckpoint shortPages p.storage
  p.setStorage { placed.2.2 with
    short :=
      { state := .waiting, followUp := false, page := 0, sequence := placed.2.1, position := placed.1,
        image := some p.shortImage } }

/-! ## Page contents -/

/-- Page k of bytes. -/
def pageOf (k : Nat) (bs : List Byte) : List Byte := padTo pageSize (bytesAt bs (pageSize * k) pageSize)

/-- The next page of the short checkpoint. -/
def shortPage (s : ShortCheckpoint) : List Byte :=
  pageOf s.page (checkpointBytes kindShort s.sequence shortPages 0 ((s.image.map shortPayload).getD []))

/-- The next page of the full checkpoint being written. -/
def fullPage (f : FullCheckpoint) : List Byte :=
  pageOf f.page (checkpointBytes kindFull f.sequence fullPages f.cause.num ((f.image.map snapshotPayload).getD []))

/-- The next page of the table save (the pending set) or re-save (the active set) (R27, R28). -/
def tablePage (m : ModeCtl) : List Byte :=
  pageOf m.savePage (imageBytes (if m.save = .resaving then m.active else m.pendingSet))

/-- The pages CLEAR ALL's invalidation writes (R171): the header of every valid checkpoint in the ring, the first page of
every position of the component and the hire archive (log 14), and the header page of every capture entry. -/
def invalidationPages (m : Medium) : List Nat :=
  (((List.range 240).map fun i => 2 * i).filter fun w => (m.checkpointAt w).isSome).map ringPage ++
    ((List.range 64).map fun i => componentPage (i + 1)) ++ ((List.range 320).map fun i => hirePage (i + 1)) ++
    ((List.range 8).map capturePage)

/-- An empty page (R171, R194). -/
def zeroPage : List Byte := List.replicate pageSize 0

/-- The page an archive job writes next, with its contents. -/
def archiveWrite (p : Part) : ArchiveJob → Option (Nat × List Byte)
  | .component record _ _ _ _ =>
    some (componentPage record.number + p.storage.archivePage,
      pageOf p.storage.archivePage (componentRecordBytes record))
  | .hire _ =>
    p.hire.closing.map fun h =>
      (hirePage h.number + p.storage.archivePage, pageOf p.storage.archivePage (hireRecordBytes h))
  | .invalidate pages => ((pages.getD [])[p.storage.archivePage]?).map fun page => (page, zeroPage)

/-- Pages of an archive job. -/
def ArchiveJob.pages : ArchiveJob → Nat
  | .invalidate pages => (pages.getD []).length
  | _ => 4

/-- The page a capture-level operation writes, with its contents (R136, R145, R149). It is drawn up at each grant, and again
at the grant after a warning, so an OPEN header carries the entry as it stands then. DESIGN CHOICE (log 39). -/
def captureWrite (p : Part) : CaptureJob → Nat × List Byte
  | .openHeader e => (capturePage e, captureHeaderBytes (p.capture.entry e))
  | .framePage e =>
    match p.capture.entry e, p.capture.copier with
    | some x, some k => (capturePage e + 1 + x.stored / framesPerPage, framePageBytes x k.takenAt k.buffer)
    | _, _ => (capturePage e + 1, zeroPage)
  | .finalHeader e =>
    (capturePage e, captureHeaderBytes ((p.capture.entry e).map fun x => { x with state := x.finalState }))
  | .release e _ _ => (capturePage e, captureHeaderBytes none)

/-! ## Grants (R155, R156) -/

/-- The grant of a full checkpoint's page; at its first page it is placed and its snapshot taken (R157, R158, R159). -/
def grantFull (p : Part) : Part :=
  let p :=
    if p.storage.full.state = .waiting then
      let placed := placeCheckpoint fullPages p.storage
      p.setStorage { placed.2.2 with
        full := { p.storage.full with
          state := .writing, page := 0, sequence := placed.2.1, position := placed.1, image := some p.snapshot } }
    else p
  let f := p.storage.full
  beginTransaction .full (ringPage f.position + f.page) (some (fullPage f)) p

/-- The grant of the short checkpoint's next page. -/
def grantShort (p : Part) : Part :=
  let s := p.storage.short
  beginTransaction .short (ringPage s.position + s.page) (some (shortPage s))
    (p.setStorage { p.storage with short := { s with state := .writing } })

/-- The grant of the table save's or re-save's next page. -/
def grantTable (p : Part) : Part :=
  beginTransaction (.table (p.modeCtl.save == .resaving)) p.modeCtl.savePage (some (tablePage p.modeCtl)) p

/-- CLEAR ALL's page list is drawn up at its first grant. -/
def drawUp (m : Medium) : ArchiveJob → ArchiveJob
  | .invalidate none => .invalidate (some (invalidationPages m))
  | j => j

/-- The grant of the archive job at the head. -/
def grantArchive (m : Medium) (job : ArchiveJob) (rest : List ArchiveJob) (p : Part) : Part :=
  let job := drawUp m job
  let p := p.setStorage { p.storage with archive := job :: rest }
  match archiveWrite p job with
  | some (page, bytes) => beginTransaction .archive page (some bytes) p
  | none => p

/-- The grant of the capture-level operation at the head. -/
def grantCapture (job : CaptureJob) (p : Part) : Part :=
  beginTransaction .capture (captureWrite p job).1 (some (captureWrite p job).2) p

/-- The grant of the reader at the head, if one waits. -/
def grantReader (p : Part) : Part :=
  match p.storage.readers with
  | r :: _ => beginTransaction (.reader r.ch) (p.taskPage r.task + r.page) none p
  | [] => p

/-- The free bus goes to the first waiting requester in the order of R155; while PFW stands only the short checkpoint
writes (R161). -/
def grant (m : Medium) (p : Part) : Part :=
  if p.storage.bus.isSome then p
  else if p.storage.short.state ≠ .idle then grantShort p
  else if p.lines.pfw then grantReader (refreshReaders p)
  else if p.storage.full.state ≠ .idle then grantFull p
  else if p.modeCtl.save ≠ .idle then grantTable p
  else
    match p.storage.archive, p.storage.captureJobs with
    | job :: rest, _ => grantArchive m job rest p
    | [], job :: _ => grantCapture job p
    | [], [] => grantReader (refreshReaders p)

/-! ## Waiters of a full checkpoint (R158) -/

/-- The response of RESTART's DONE: the restart begins when it has left (R178). -/
def respondRestart (p : Part) : Part :=
  let p := respond .service [0x05, stDone] p
  p.setChan .service { p.chan .service with restartAfter := true }

/-- A waiter is answered by the checkpoint it waited for (R39, R40, R158, R169). Sleep entry is settled apart. RESTART is
answered DONE also when a capture has become OPEN or the engine has left STOPPED since its admission. DESIGN CHOICE
(log 42). -/
def answerWaiter (ended : Option (Nat × Nat)) (w : Waiter) (p : Part) : Part :=
  match w, ended with
  | .sleep, _ => p
  | .restart, some _ => respondRestart p
  | .restart, none => respond .service [0x05, stStorageFault] p
  | .clearAll, some _ => respond .service [0x06, stDone] p
  | .clearAll, none => respond .service [0x06, stStorageFault] p
  | .checkpointNow ch, some (sequence, position) =>
    respond ch ([0x38, stDone] ++ beBytes 4 sequence ++ beBytes 2 position) p
  | .checkpointNow ch, none => respond ch [0x38, stStorageFault] p

/-- The sleep-entry checkpoint has ended: the part enters SLEEPING when it completed, no wake cause arrived, no storage
requester waits and the engine is STOPPED; otherwise it stays AWAKE (R35, R43, R158). -/
def settleSleep (completed : Bool) (p : Part) : Part :=
  if completed ∧ p.modeCtl.sleepWait = some false ∧ p.arbiterBusy = false ∧ p.detector.engine = .stopped then sleepEntry p
  else { p with modeCtl := { p.modeCtl with sleepWait := none } }

/-- The full checkpoint state after an end: WAITING when one is pending, IDLE otherwise (R158). -/
def FullCheckpoint.afterEnd (f : FullCheckpoint) : FullCheckpoint :=
  if f.pending then { state := .waiting, cause := f.pendingCause, waiters := f.nextWaiters } else {}

/-- A full checkpoint ends, complete or failed: its waiters are answered (R158). -/
def endFull (completed : Bool) (p : Part) : Part :=
  let f := p.storage.full
  let ended := if completed then some (f.sequence, f.position) else none
  let p := p.setStorage { p.storage with
    full := f.afterEnd
    newest := if completed then some (f.sequence, f.position) else p.storage.newest }
  let p := f.waiters.foldl (fun p w => answerWaiter ended w p) p
  if f.waiters.contains .sleep then settleSleep completed p else p

/-! ## The ends of transactions -/

/-- The short checkpoint ends; a follow-up is placed with the content of this moment (R161). -/
def endShort (p : Part) : Part :=
  if p.storage.short.followUp then beginShort p else p.setStorage { p.storage with short := {} }

/-- The table save ends with its last page verified: promotion, the target mode, and DONE (R27, R32). A hire that began to
close during the save stays closing. DESIGN CHOICE (log 34). -/
def completeSave (target : Mode) (p : Part) : Part :=
  let p := enterMode target (promote p)
  respond .service [0x03, stDone]
    (requestFull .modeChange none { p with modeCtl := { p.modeCtl with validation := .passed } })

/-- The table save ends on a storage write failure (R28). -/
def failSave (p : Part) : Part :=
  respond .service [0x03, stValidationFailed, 10, 0]
    { p with modeCtl := { p.modeCtl with save := .resaving, savePage := 0, validation := .failed 10 0 } }

/-- A page of the table image has been verified (R27, R28); a page of a save that has ended meanwhile counts for nothing. -/
def tableVerified (resave : Bool) (p : Part) : Part :=
  let next := { p with modeCtl := { p.modeCtl with savePage := p.modeCtl.savePage + 1 } }
  match p.modeCtl.save, resave with
  | .saving target, false => if p.modeCtl.savePage + 1 < imagePages then next else completeSave target p
  | .resaving, true =>
    if p.modeCtl.savePage + 1 < imagePages then next
    else { p with modeCtl := { p.modeCtl with save := .idle, savePage := 0 } }
  | _, _ => p

/-- A page of the table image has failed (R28). -/
def tableFailed (resave : Bool) (p : Part) : Part :=
  match p.modeCtl.save, resave with
  | .saving _, false => failSave p
  | .resaving, true => { p with modeCtl := { p.modeCtl with save := .idle, savePage := 0 } }
  | _, _ => p

/-- The request code of a component archive write (R64, R73). -/
def ArchiveCause.code : ArchiveCause → Byte
  | .removed => 0x14
  | .changed => 0x15

/-- A component archive write completes: Remove empties the slot, Confirm Change starts the new component; the next
archive number advances, and a full checkpoint follows (R64, R65, R73). -/
def completeComponent (record : ArchiveRecord) (events time units : Nat) (marks : Vector Nat 4) (p : Part) : Part :=
  let n := record.slot
  let p :=
    match record.cause, p.slot n with
    | .removed, _ => emptySlot n p
    | .changed, some c =>
      setRunning n false
        (p.setSlot n (some (c.confirmed record.successor events time units p.modeCtl.clock marks)))
    | .changed, none => p
  let p := { p with register := { p.register with nextArchive := record.number + 1 } }
  requestFull .archive none (respond .service ([record.cause.code, stDone] ++ beBytes 4 record.number) p)

/-- A hire's archive write completes: queued, and a full checkpoint follows (R108). -/
def completeHire (ch : Channel) (p : Part) : Part :=
  match p.hire.closing with
  | none => p
  | some h =>
    requestFull .archive none
      (respond ch ([0x21, stDone] ++ beBytes 4 h.number)
        { p with hire := { p.hire.append h.number with newest := h.number, closing := none } })

/-- A hire's archive write fails: the hire is open again, without its close fields (R108). -/
def reopenHire (ch : Channel) (p : Part) : Part :=
  match p.hire.closing with
  | none => p
  | some h =>
    respond ch [0x21, stStorageFault]
      { p with hire := { p.hire with current := some { h with close := none }, closing := none } }

/-- An archive job completes (R65, R108, R171). -/
def completeArchive (job : ArchiveJob) (p : Part) : Part :=
  match job with
  | .component record events time units marks => completeComponent record events time units marks p
  | .hire ch => completeHire ch p
  | .invalidate _ => requestFull .clearAll (some .clearAll) p

/-- An archive job fails (R40, R64, R73, R108). -/
def failArchive (job : ArchiveJob) (p : Part) : Part :=
  match job with
  | .component record _ _ _ _ => respond .service [record.cause.code, stStorageFault] p
  | .hire ch => reopenHire ch p
  | .invalidate _ => respond .service [0x06, stStorageFault] p

/-- A page of the archive job at the head has been verified. -/
def archiveVerified (p : Part) : Part :=
  match p.storage.archive with
  | [] => p
  | job :: rest =>
    if p.storage.archivePage + 1 < job.pages then
      p.setStorage { p.storage with archivePage := p.storage.archivePage + 1 }
    else completeArchive job (p.setStorage { p.storage with archive := rest, archivePage := 0 })

/-- A page of the archive job at the head has failed. -/
def archiveFailed (p : Part) : Part :=
  match p.storage.archive with
  | [] => p
  | job :: rest => failArchive job (p.setStorage { p.storage with archive := rest, archivePage := 0 })

/-- The copier's page has been verified: frames stored rises, the buffer is emptied, and copying goes on (R142). -/
def pageStored (e : Nat) (p : Part) : Part :=
  match p.capture.copier with
  | none => p
  | some k =>
    copierRun
      { p with
        capture := { p.capture.mapEntry e (fun x => { x with stored := x.stored + k.buffer.length }) with
          copier := some { k with buffer := [], pageAsked := false } } }

/-- Release Capture's header has been written: the entry becomes FREE, or the number is gone (R149). -/
def released (e number : Nat) (ch : Channel) (p : Part) : Part :=
  if (p.capture.entry e).any (·.number == number) then
    respond ch [0x33, stDone]
      { p with capture := { p.capture with entries := p.capture.entries.setIfInBounds e none } }
  else respond ch [0x33, stBadArgument, 0] p

/-- A capture-level operation has been verified (R142, R145, R149). -/
def captureVerified (p : Part) : Part :=
  match p.storage.captureJobs with
  | [] => p
  | job :: rest =>
    let p := p.setStorage { p.storage with captureJobs := rest }
    match job with
    | .openHeader _ => p
    | .framePage e => pageStored e p
    | .finalHeader e => closeCapture e (((p.capture.entry e).map (·.finalState)).getD .complete) p
    | .release e number ch => released e number ch p

/-- A capture-level operation has failed (R146, R149). -/
def captureFailed (p : Part) : Part :=
  match p.storage.captureJobs with
  | [] => p
  | job :: rest =>
    let p := p.setStorage { p.storage with captureJobs := rest }
    match job with
    | .release _ _ ch => respond ch [0x33, stStorageFault] p
    | .openHeader e => failCapture e p
    | .framePage e => failCapture e p
    | .finalHeader e => failCapture e p

/-- A page of the full checkpoint has been verified (R158). -/
def fullVerified (p : Part) : Part :=
  let f := p.storage.full
  if f.page + 1 < fullPages then p.setStorage { p.storage with full := { f with page := f.page + 1 } }
  else endFull true p

/-- A page of the short checkpoint has been verified (R161). -/
def shortVerified (p : Part) : Part :=
  let s := p.storage.short
  if s.page + 1 < shortPages then p.setStorage { p.storage with short := { s with page := s.page + 1 } }
  else endShort p

/-- The owner of a verified page write goes on. -/
def writeVerified (o : Owner) (p : Part) : Part :=
  match o with
  | .short => shortVerified p
  | .full => fullVerified p
  | .table resave => tableVerified resave p
  | .archive => archiveVerified p
  | .capture => captureVerified p
  | .restore => p
  | .reader _ => p

/-- The owner of a failed page write goes on. -/
def writeFailed (o : Owner) (p : Part) : Part :=
  match o with
  | .short => endShort p
  | .full => endFull false p
  | .table resave => tableFailed resave p
  | .archive => archiveFailed p
  | .capture => captureFailed p
  | .restore => p
  | .reader _ => p

/-- The owner of an answered page read goes on. -/
def readTook (m : Medium) (t : Transaction) (p : Part) : Part :=
  match t.owner with
  | .restore => restoreTook m p
  | .reader _ => readerTook (m.page t.page) (m.anySpoiled t.page 1) p
  | _ => p

/-- The owner of an unanswered page read goes on. -/
def readSilent (m : Medium) (o : Owner) (p : Part) : Part :=
  match o with
  | .restore => restoreUnanswered m p
  | .reader _ => readerFailed p
  | _ => p

/-- A verified page write (R153): the write count rises and the fault state is cleared. -/
def countVerified (st : Storage) : Storage :=
  { st with bus := none, writes := addSat max32 st.writes 1, fault := false }

/-- A transaction that failed (R153): the failure count rises and the fault state is set. -/
def countFailed (st : Storage) : Storage :=
  { st with bus := none, failures := addSat max32 st.failures 1, fault := true }

/-- The retry of a failed attempt, within the same transaction (R153). -/
def retry (t : Transaction) (st : Storage) : Storage :=
  { st with
    bus := some { t with attempt := t.attempt + 1, timer := answerTime }
    retries := addSat max32 st.retries 1 }

/-! ## The power-fail warning (R161, R162) -/

/-- A write in progress that is abandoned leaves its page invalid (R161). -/
def abandonWrite (t : Option Transaction) (m : Medium) : Medium :=
  match t with
  | some t => if t.write.isSome then m.spoilPage t.page else m
  | none => m

/-- A full checkpoint abandoned at the warning waits to be written anew, for those who wait on it and for those who asked
while it was being written: the new snapshot comes after all their requests (R158, R162). Its cause joins the pending one
as joined requests do, and the pending flag stays set. DEDUCED (log 16). -/
def FullCheckpoint.suspend (f : FullCheckpoint) : FullCheckpoint :=
  if f.state = .writing then
    { f with
      state := .waiting, page := 0, image := none
      cause := if f.pending then joinCause f.cause f.pendingCause else f.cause
      waiters := f.waiters ++ f.nextWaiters, nextWaiters := [] }
  else f

/-- The transaction in progress is abandoned; what its requester, and a requester between two of its pages, starts again
from (R161, R162). CLEAR ALL's invalidation starts again at the first page of the list it drew up. DEDUCED (log 17). -/
def suspendRequesters (p : Part) : Part :=
  { p with
    modeCtl := { p.modeCtl with savePage := 0 }
    storage := { p.storage with bus := none, full := p.storage.full.suspend, archivePage := 0 } }

/-- The assertion of PFW on a running part (R161): during a short checkpoint it sets the follow-up flag; otherwise the
transaction is abandoned and a short checkpoint placed. A restore reads on. -/
def assertPfw (p : Part) : Part :=
  if p.storage.short.state ≠ .idle then
    p.setStorage { p.storage with short := { p.storage.short with followUp := true } }
  else beginShort (suspendRequesters p)

end Sys2Proof.Machine
end

