-- ==== Sys2Proof/Machine/Admission.lean ====
section
/-! DEFINITION. Admission (R176): the checks common to the requests, the refusals and the answers. -/

namespace Sys2Proof.Machine

/-- A refusal that holds the code and the status alone (R176, R190). -/
def refuse (ch : Channel) (code status : Byte) (p : Part) : Part := respond ch [code, status] p

/-- BAD_ARGUMENT with the index of the argument at fault (R176, R190). -/
def refuseArgument (ch : Channel) (code : Byte) (index : Nat) (p : Part) : Part :=
  respond ch [code, stBadArgument, BitVec.ofNat 8 index] p

/-- DONE with its results (R190). -/
def answer (ch : Channel) (code : Byte) (results : List Byte) (p : Part) : Part :=
  respond ch ([code, stDone] ++ results) p

/-- Where a request is taken: its levels, its modes, and whether it needs the engine STOPPED (10.3, R176). -/
structure Terms where
  fleet : Bool := true
  service : Bool := true
  modes : List Mode := [.setup, .paused, .active]
  stopped : Bool := false
  deriving DecidableEq, Repr

/-- The level of a channel is one the request is taken at. -/
def Terms.takes (t : Terms) : Channel → Bool
  | .fleet => t.fleet
  | .service => t.service

/-- The status of the first of checks 3 to 5 of R176 that fails: level, mode, engine. -/
def Terms.refusal (t : Terms) (ch : Channel) (p : Part) : Option Byte :=
  if ch = .service ∧ p.lines.svc = false then some stServiceLineOff
  else if t.takes ch = false then some stNotPermitted
  else if p.modeCtl.mode ∉ t.modes then some stWrongMode
  else if t.stopped ∧ p.detector.engine ≠ .stopped then some stEngineRunning
  else none

/-- Admission: checks 3 to 6 of R176 in order, then the request itself with its own refusals. `bad` is the index of the
first argument at fault. -/
def admitRequest (t : Terms) (ch : Channel) (code : Byte) (bad : Option Nat) (go : Part → Part) (p : Part) : Part :=
  match t.refusal ch p with
  | some status => refuse ch code status p
  | none =>
    match bad with
    | some index => refuseArgument ch code index p
    | none => go p

/-- The first argument of a list of checked ones that is at fault: pairs of an index and whether the check holds. -/
def firstBad (checks : List (Nat × Bool)) : Option Nat := (checks.find? fun c => !c.2).map (·.1)

/-- A hire is open, or a closing hire is being written and counts as open (R107). -/
def Part.hireOpen (p : Part) : Bool := p.hire.current.isSome || p.hire.closing.isSome

end Sys2Proof.Machine
end

