-- ==== Sys2Proof/Machine/ModeRequests.lean ====
section
/-! DEFINITION. The requests of the Mode Controller (chapter 2), and Read Decoder State (R22) and Read Live Values (R56),
from admission to response. -/

namespace Sys2Proof.Machine

/-! ## dsta - Read Decoder State (R22) -/

/-- A port's entry of section PORTS. -/
def portEntry (q : Port) (unmatched : Nat) : List Byte :=
  beBytes 1 q.state.num ++ beBytes 4 q.received ++ beBytes 2 q.receiveErrors ++ beBytes 1 q.errorLevel ++
    beBytes 2 q.busOffs ++ beBytes 4 unmatched

/-- An entry of section FRAMES. -/
def frameCountEntry (p : Part) (i : Nat) : List Byte :=
  yesNo (p.modeCtl.active.frame i).isSome ++ beBytes 4 (p.matcher.counts[i]?.getD 0)

/-- An entry of section SIGNALS. -/
def signalEntryResult (p : Part) (i : Nat) : List Byte :=
  let s := p.signal i
  yesNo (p.modeCtl.active.signal i).isSome ++ beBytes 1 s.status.num ++ optional 8 s.value ++
    optional 1 (s.quality.map fun q => (q.num : Int)) ++ beBytes 2 s.nonUsable

/-- As many whole entries as fit in 1,024 bytes from the first index, then the next index and the number of entries not
yet returned (R22). -/
def entriesFrom (size total first : Nat) (entry : Nat → List Byte) : List Byte :=
  let given := min (total - first) ((1024 - 4) / size)
  ((List.range given).flatMap fun k => entry (first + k)) ++ beBytes 1 (first + given) ++
    beBytes 1 (total - first - given)

def decoderState (p : Part) (area first : Nat) : List Byte :=
  match area with
  | 0 =>
    portEntry p.portA p.matcher.unmatchedA ++ portEntry p.portB p.matcher.unmatchedB ++ beBytes 1 2 ++ beBytes 1 0
  | 1 => entriesFrom 5 64 first (frameCountEntry p)
  | _ => entriesFrom 15 48 first (signalEntryResult p)

def requestDecoderState (ch : Channel) (area first : Byte) (p : Part) : Part :=
  admitRequest {} ch 0x07
    (firstBad [(0, decide (area.toNat ≤ 2)), (1, area != 1 || decide (first.toNat ≤ 63)),
      (1, area != 2 || decide (first.toNat ≤ 47))])
    (answer ch 0x07 (decoderState p area.toNat first.toNat)) p

/-! ## mode - Set Mode (R24, R27, R28) -/

/-- The change involves SETUP: the current mode or the target is SETUP. -/
def Part.touchesSetup (p : Part) (target : Option Mode) : Bool :=
  p.modeCtl.mode == .setup || target == some .setup

/-- Set Mode after admission, by the current mode and the target (R24, R27, R28). PAUSED to ACTIVE is taken also while the
record of a Remove is written, so a credit can reach the slot then and is lost with it, although R64 says that none can.
DESIGN CHOICE (log 38). -/
def applyMode (ch : Channel) (target : Mode) (p : Part) : Part :=
  if p.modeCtl.save ≠ .idle then refuse ch 0x03 stBusy p
  else if p.modeCtl.mode = target then answer ch 0x03 [] p
  else if target = .setup then
    if p.hireOpen then refuse ch 0x03 stHireOpen p
    else if p.capture.anyOpen then refuse ch 0x03 stBusy p
    else answer ch 0x03 [] (changeMode target p)
  else if p.modeCtl.mode = .setup then
    if p.hire.closing.isSome then refuse ch 0x03 stBusy p
    else
      match validate p.register p.modeCtl.pendingSet with
      | some (reason, index) =>
        respond ch [0x03, stValidationFailed, BitVec.ofNat 8 reason, BitVec.ofNat 8 index]
          { p with modeCtl := { p.modeCtl with validation := .failed reason index } }
      | none => { p with modeCtl := { p.modeCtl with save := .saving target, savePage := 0 } }
  else answer ch 0x03 [] (changeMode target p)

def requestSetMode (ch : Channel) (target : Byte) (p : Part) : Part :=
  let mode := Mode.ofNat? target.toNat
  admitRequest
    { fleet := !p.touchesSetup mode
      stopped := mode.isSome && p.touchesSetup mode && mode != some p.modeCtl.mode }
    ch 0x03 (if mode.isNone then some 0 else none)
    (fun p => match mode with
      | some target => applyMode ch target p
      | none => p) p

/-! ## twr - Write Table (R29), trd - Read Table (R30) -/

/-- Table number and item index in range (R29). -/
def tableChecks (table item : Byte) : List (Nat × Bool) :=
  [(0, decide (table.toNat ≤ 6)), (1, decide (item.toNat < itemCount table.toNat))]

/-- The first argument of Write Table at fault (R29). -/
def badItem (set : TableSet) (table item : Byte) (contents : List Byte) : Option Nat :=
  match firstBad (tableChecks table item) with
  | some i => some i
  | none =>
    match set.withItem table.toNat item.toNat contents with
    | .error i => some i
    | .ok _ => none

/-- Write Table after admission. -/
def writeItem (ch : Channel) (table item : Byte) (contents : List Byte) (p : Part) : Part :=
  if p.modeCtl.save ≠ .idle then refuse ch 0x08 stBusy p
  else
    match p.modeCtl.pendingSet.withItem table.toNat item.toNat contents with
    | .ok set => answer ch 0x08 [] { p with modeCtl := { p.modeCtl with pendingSet := set } }
    | .error _ => p

def requestWriteTable (ch : Channel) (table item : Byte) (contents : List Byte) (p : Part) : Part :=
  admitRequest { fleet := false, modes := [.setup] } ch 0x08 (badItem p.modeCtl.pendingSet table item contents)
    (writeItem ch table item contents) p

/-- The set Read Table reads: the pending set in SETUP, the active set otherwise (R30). -/
def Part.readSet (p : Part) : TableSet :=
  if p.modeCtl.mode = .setup then p.modeCtl.pendingSet else p.modeCtl.active

def requestReadTable (ch : Channel) (table item : Byte) (p : Part) : Part :=
  admitRequest {} ch 0x09 (firstBad (tableChecks table item))
    (fun p =>
      if p.modeCtl.save ≠ .idle then refuse ch 0x09 stBusy p
      else
        answer ch 0x09
          (p.readSet.itemBytes table.toNat item.toNat ++ beBytes 1 (if p.modeCtl.mode = .setup then 0 else 1)) p) p

/-! ## clk - Set Clock (R37), msta - Read Mode State (R38) -/

def requestSetClock (ch : Channel) (value : Word32) (p : Part) : Part :=
  admitRequest {} ch 0x04 none
    (fun p => answer ch 0x04 [] { p with modeCtl := { p.modeCtl with clock := value.toNat, sync := true } }) p

/-- The quiet timer as it stands: it is stopped when one of its conditions has become false, so a request's own channel,
which is not IDLE, has stopped it (R35, R38). -/
def Part.quietTime (p : Part) : Option Nat := if p.quiet then p.modeCtl.quiet else none

def modeState (p : Part) : List Byte :=
  let m := p.modeCtl
  beBytes 1 m.mode.num ++ beBytes 1 (if m.asleep then 1 else 0) ++ yesNo m.ignition ++ yesNo m.passAll ++
    beBytes 1 m.save.num ++ beBytes 1 m.validation.num ++ optional 1 (m.validation.item?.map fun i => (i : Int)) ++
    optional 1 (p.quietTime.map fun t => (t / 1000 : Nat)) ++ beBytes 4 m.clock ++ yesNo m.sync

def requestModeState (ch : Channel) (p : Part) : Part :=
  admitRequest {} ch 0x02 none (fun p => answer ch 0x02 (modeState p) p) p

/-! ## rst - Restart (R39), clra - Clear All (R40) -/

def requestRestart (ch : Channel) (p : Part) : Part :=
  admitRequest { fleet := false, stopped := true } ch 0x05 none
    (fun p =>
      if p.capture.anyOpen || p.hire.closing.isSome || p.modeCtl.save != .idle then refuse ch 0x05 stBusy p
      else requestFull .restart (some .restart) p) p

/-- A Release Capture header write waits or is in progress. -/
def Storage.releasing (st : Storage) : Bool := st.captureJobs.any fun j => !j.ofCopier

/-- A query's frame after CLEAR ALL: it keeps its place at port A (R134), and no query waits for its departure (R77). No
timeout withdraws it either, so the port A queue can come to hold more than R130's two frames. DESIGN CHOICE (log 11). -/
def TxFrame.orphaned (f : TxFrame) : TxFrame := if f.source = .probe then { f with source := .orphan } else f

/-- The counting state cleared (R40, R77, R101, R119, R151): slots, hires, captures and their numberings; the Probe Unit
is IDLE, and the port A queue is kept (R134), with a query's frame in it that nothing withdraws. DESIGN CHOICE (log 11). -/
def clearCounting (p : Part) : Part :=
  { p with
    register := {}
    hire := {}
    capture := {}
    wear := { p.wear with running := Vector.replicate 12 false, countdown := 0 }
    clutch := { p.clutch with engagement := none, carry := 0 }
    ring := { p.ring with queueA := p.ring.queueA.map TxFrame.orphaned }
    portA := { p.portA with tx := p.portA.tx.map TxFrame.orphaned } }

/-- Clear All after admission: the running state is cleared and the invalidation waits at the archive level (R40, R171).
What other requesters have at the arbiter stays there. DEDUCED (log 44). -/
def applyClear (p : Part) : Part :=
  let p := clearCounting p
  p.setStorage { p.storage with archive := p.storage.archive ++ [.invalidate none] }

def requestClearAll (ch : Channel) (p : Part) : Part :=
  admitRequest { fleet := false, modes := [.setup], stopped := true } ch 0x06 none
    (fun p =>
      if p.capture.anyOpen || p.hire.closing.isSome || p.storage.releasing || p.modeCtl.save != .idle then
        refuse ch 0x06 stBusy p
      else applyClear p) p

/-! ## live - Read Live Values (R56) -/

/-- The open attempt's part of Read Live Values; the time since opening and what remains of the running window are rounded
down to tenths. DESIGN CHOICE (log 12). -/
def attemptResult (p : Part) : List Byte :=
  match p.detector.attempt with
  | none => yesNo false ++ List.replicate 12 0
  | some a =>
    yesNo true ++ beBytes 1 p.detector.engine.num ++ beBytes 2 (min max16 (a.tenths p.now)) ++ yesNo a.starterSeen ++
      optional 2 a.coolant ++ optional 2 (a.duration.map fun d => (d : Int)) ++
      beBytes 2 (((p.detector.windowA.orElse fun _ => p.detector.windowB).getD 0) / 100)

/-- The open engagement's part of Read Live Values. -/
def engagementResult (p : Part) : List Byte :=
  match p.clutch.engagement with
  | none => yesNo false ++ List.replicate 11 0
  | some e =>
    yesNo true ++ beBytes 2 e.slipTime ++ beBytes 4 e.energy ++ yesNo e.saturated ++ optional 2 e.startSpeed ++
      beBytes 1 e.below

/-- Bytes of a role's value by its range (R15, R190). -/
def roleWidth : Nat → Nat
  | 1 => 1
  | 5 => 1
  | 6 => 1
  | 7 => 1
  | 8 => 1
  | 9 => 4
  | _ => 2

def roleResult (p : Part) (r : Nat) : List Byte :=
  let role := p.role r
  optional (roleWidth r) role.value ++ beBytes 1 role.source.num ++ yesNo role.usable ++ beBytes 1 role.returns

def liveValues (p : Part) : List Byte :=
  beBytes 1 p.detector.engine.num ++ yesNo p.modeCtl.ignition ++ yesNo p.detector.firstRun ++ attemptResult p ++
    engagementResult p ++ (List.range 10).flatMap (roleResult p)

def requestLiveValues (ch : Channel) (p : Part) : Part :=
  admitRequest {} ch 0x10 none (fun p => answer ch 0x10 (liveValues p) p) p

end Sys2Proof.Machine
end

