-- ==== Sys2Proof/Machine/RegisterRequests.lean ====
section
/-! DEFINITION. The requests of the Component Register (chapter 4) and Read Spectrum (R100), from admission to response. -/

namespace Sys2Proof.Machine

/-- A slot number lies in 0 to 11. -/
def slotOk (slot : Byte) : Bool := decide (slot.toNat ≤ 11)

/-! ## inst - Install Component (R62, R63) -/

/-- The query setup's 18 bytes as a request gives them (R191). -/
def queryArgsBytes (q : QueryArgs) : List Byte :=
  [q.flags] ++ beBytes 4 q.queryIdent.toNat ++ beBytes 8 q.queryBytes.toNat ++ beBytes 4 q.replyIdent.toNat ++ [q.offset]

/-- The argument bytes of Install Component (R191). -/
def installBytes (a : InstallArgs) : List Byte :=
  [a.slot, a.kind, a.flags] ++ beBytes 6 a.identity.toNat ++ queryArgsBytes a.query ++ beBytes 4 a.events.toNat ++
    beBytes 4 a.time.toNat ++ beBytes 4 a.wear.toNat

/-- The arguments of Install Component from their bytes. -/
def readInstall (bs : List Byte) : InstallArgs where
  slot := byteAt bs 0
  kind := byteAt bs 1
  flags := byteAt bs 2
  identity := serialAt bs 3
  query :=
    { flags := byteAt bs 9
      queryIdent := BitVec.ofNat 32 (natAt bs 10 4)
      queryBytes := BitVec.ofNat 64 (natAt bs 14 8)
      replyIdent := BitVec.ofNat 32 (natAt bs 22 4)
      offset := byteAt bs 26 }
  events := BitVec.ofNat 32 (natAt bs 27 4)
  time := BitVec.ofNat 32 (natAt bs 31 4)
  wear := BitVec.ofNat 32 (natAt bs 35 4)

/-- The identity given. -/
def installSerial (a : InstallArgs) : Option Serial := if a.flags.getLsbD 0 then some a.identity else none

/-- The query setup given. -/
def installSetup (a : InstallArgs) : Option QuerySetup :=
  if a.flags.getLsbD 1 then some (readQuery (queryArgsBytes a.query)) else none

/-- A query setup that is given passes the checks of R62. -/
def installQueryFits (a : InstallArgs) : Bool :=
  !a.flags.getLsbD 1 ||
    ((Kind.ofNat? a.kind.toNat).any (·.mayQuery) && a.flags.getLsbD 0 && queryOk (queryArgsBytes a.query))

/-- The checks on Install's arguments, the query setup counted as one (R62, log 13). -/
def installChecks (a : InstallArgs) : List (Nat × Bool) :=
  [(0, slotOk a.slot), (1, (Kind.ofNat? a.kind.toNat).isSome), (2, flagsOk a.flags 2), (4, installQueryFits a),
    (7, decide (a.wear.toNat ≤ wearLimit))]

/-- Slots that hold a kind. -/
def Register.countKind (r : Register) (k : Kind) : Nat := r.slots.toList.countP fun s => s.any (·.kind == k)

/-- Install after its arguments' checks (R62, R63). -/
def applyInstall (ch : Channel) (a : InstallArgs) (kind : Kind) (p : Part) : Part :=
  let n := a.slot.toNat
  if p.hireOpen then refuse ch 0x13 stHireOpen p
  else if (p.slot n).isSome then refuse ch 0x13 stSlotOccupied p
  else if kind.limit ≤ p.register.countKind kind then refuse ch 0x13 stKindLimit p
  else
    let c := Component.starting kind (installSerial a) (installSetup a) a.events.toNat a.time.toNat a.wear.toNat p.modeCtl.clock
    requestFull .install none (answer ch 0x13 [] (setRunning n false (p.setSlot n (some c))))

def requestInstall (ch : Channel) (a : InstallArgs) (p : Part) : Part :=
  admitRequest { fleet := false, modes := [.setup, .paused], stopped := true } ch 0x13 (firstBad (installChecks a))
    (fun p => match Kind.ofNat? a.kind.toNat with
      | some kind => applyInstall ch a kind p
      | none => p) p

/-! ## rmv - Remove Component (R64), cfrm - Confirm Change (R73) -/

/-- An archive record of the slot as it stands, handed to the arbiter as one write of four pages (R65). -/
def archiveComponent (cause : ArchiveCause) (successor : Serial) (n : Nat) (c : Component) (events time units : Nat)
    (p : Part) : Part :=
  let record : ArchiveRecord :=
    { number := p.register.nextArchive, cause, clock := p.modeCtl.clock, successor, slot := n, component := c }
  p.setStorage { p.storage with
    archive := p.storage.archive ++ [.component record events time units (Vector.replicate 4 0)] }

def requestRemove (ch : Channel) (slot : Byte) (p : Part) : Part :=
  admitRequest { fleet := false, modes := [.setup, .paused], stopped := true } ch 0x14 (firstBad [(0, slotOk slot)])
    (fun p =>
      if p.hireOpen then refuse ch 0x14 stHireOpen p
      else
        match p.slot slot.toNat with
        | none => refuse ch 0x14 stSlotEmpty p
        | some c =>
          if p.register.nextArchive = exhausted then refuse ch 0x14 stNotReady p
          else archiveComponent .removed 0 slot.toNat c 0 0 0 p) p

def requestConfirm (ch : Channel) (slot : Byte) (events time wear : Word32) (p : Part) : Part :=
  admitRequest { fleet := false, stopped := true } ch 0x15
    (firstBad [(0, slotOk slot), (3, decide (wear.toNat ≤ wearLimit))])
    (fun p =>
      match p.slot slot.toNat with
      | none => refuse ch 0x15 stSlotEmpty p
      | some c =>
        match c.hold with
        | none => refuse ch 0x15 stNotHeld p
        | some h =>
          if p.register.nextArchive = exhausted then refuse ch 0x15 stNotReady p
          else archiveComponent .changed h.reported slot.toNat c events.toNat time.toNat wear.toNat p) p

/-! ## adpt - Adopt Identity (R74), dism - Dismiss Mismatch (R75) -/

/-- A HELD slot adopts the reported identity (R74). -/
def Component.adopt (c : Component) (h : Hold) : Component :=
  { c.mergePool h.pool with
    identity := some h.reported
    hold := none
    verification := .verified
    silent := 0
    reference := none
    regressed := false }

/-- A HELD slot's mismatch is dismissed (R75). -/
def Component.dismiss (c : Component) (h : Hold) : Component :=
  { c.mergePool h.pool with hold := none, verification := .unverified }

/-- A resolution that acts at once on a HELD slot, with its refusals and the checkpoint after it (R74, R75). -/
def resolveHold (ch : Channel) (code : Byte) (n : Nat) (f : Component → Hold → Component) (p : Part) : Part :=
  match p.slot n with
  | none => refuse ch code stSlotEmpty p
  | some c =>
    match c.hold with
    | none => refuse ch code stNotHeld p
    | some h => requestFull .resolution none (answer ch code [] (p.setSlot n (some (f c h))))

def requestAdopt (ch : Channel) (slot : Byte) (p : Part) : Part :=
  admitRequest { fleet := false, stopped := true } ch 0x16 (firstBad [(0, slotOk slot)])
    (resolveHold ch 0x16 slot.toNat Component.adopt) p

def requestDismiss (ch : Channel) (slot : Byte) (p : Part) : Part :=
  admitRequest { fleet := false, stopped := true } ch 0x17 (firstBad [(0, slotOk slot)])
    (resolveHold ch 0x17 slot.toNat Component.dismiss) p

/-! ## vrfy - Verify Now (R71) -/

/-- Verify Now's answer: the number of slots newly queued. -/
def answerQueued (ch : Channel) (before after : Part) : Part :=
  answer ch 0x18 (beBytes 1 (after.register.pollQueue.length - before.register.pollQueue.length)) after

def requestVerify (ch : Channel) (slot : Byte) (p : Part) : Part :=
  admitRequest {} ch 0x18 (firstBad [(0, slotOk slot || slot == 0xFF)])
    (fun p =>
      if slot = 0xFF then answerQueued ch p (queueAll p)
      else if (p.slot slot.toNat).isNone then refuse ch 0x18 stSlotEmpty p
      else answerQueued ch p (queueVerification slot.toNat p)) p

/-! ## prb - Probe (R72) -/

/-- The argument bytes of Probe (R191). -/
def probeBytes (a : ProbeArgs) : List Byte :=
  [a.flags] ++ beBytes 4 a.ident.toNat ++ [a.length] ++ beBytes 8 a.data.toNat ++ beBytes 4 a.replyIdent.toNat ++
    beBytes 2 a.timeout.toNat

/-- The arguments of Probe from their bytes. -/
def readProbe (bs : List Byte) : ProbeArgs where
  flags := byteAt bs 0
  ident := BitVec.ofNat 32 (natAt bs 1 4)
  length := byteAt bs 5
  data := BitVec.ofNat 64 (natAt bs 6 8)
  replyIdent := BitVec.ofNat 32 (natAt bs 14 4)
  timeout := BitVec.ofNat 16 (natAt bs 18 2)

/-- An identifier lies in its format's range and is not reserved for management (R72). -/
def identFits (format : Format) (ident : Nat) : Bool :=
  decide (ident ≤ identLimit format) && !isReserved format ident

def probeFrameFormat (a : ProbeArgs) : Format := formatOfBool (a.flags.getLsbD 0)
def probeReplyFormat (a : ProbeArgs) : Format := formatOfBool (a.flags.getLsbD 1)

def probeChecks (a : ProbeArgs) : List (Nat × Bool) :=
  [(0, flagsOk a.flags 2), (1, identFits (probeFrameFormat a) a.ident.toNat), (2, decide (a.length.toNat ≤ 8)),
    (4, identFits (probeReplyFormat a) a.replyIdent.toNat), (5, inRange 10 2000 a.timeout.toNat)]

/-- The waiting probe that a request's arguments make (R72). -/
def probeRequest (a : ProbeArgs) : ProbeRequest where
  frame :=
    { format := probeFrameFormat a
      ident := BitVec.ofNat 29 a.ident.toNat
      data := (beBytes 8 a.data.toNat).take a.length.toNat }
  replyFormat := probeReplyFormat a
  replyIdent := BitVec.ofNat 29 a.replyIdent.toNat
  timeout := a.timeout.toNat

def requestProbe (ch : Channel) (a : ProbeArgs) (p : Part) : Part :=
  admitRequest { fleet := false } ch 0x19 (firstBad (probeChecks a))
    (fun p => { p with register := { p.register with waitingProbe := some (probeRequest a) } }) p

/-! ## slot - Read Slot (R76), spec - Read Spectrum (R100) -/

/-- Read Slot's results: the slot block without its cells, and three items of the verification machinery. An EMPTY slot's
are its number and state alone, without those items. DESIGN CHOICE (log 12). -/
def slotResult (p : Part) (n : Nat) : List Byte :=
  match p.slot n with
  | none => beBytes 1 n ++ beBytes 1 0
  | some c =>
    let inHand := p.register.inHand.filter (·.slot == n)
    slotBlockHead n c true ++ poolBytes ((c.hold.map (·.pool)).getD {}) ++
      yesNo (p.register.pollQueue.contains n) ++ yesNo inHand.isSome ++
      optional 1 (inHand.map fun h => (h.attempt : Int))

def requestReadSlot (ch : Channel) (slot : Byte) (p : Part) : Part :=
  admitRequest {} ch 0x11 (firstBad [(0, slotOk slot)]) (fun p => answer ch 0x11 (slotResult p slot.toNat) p) p

/-- Read Spectrum's results. -/
def spectrumResult (p : Part) (c : Component) : List Byte :=
  let b := p.bins c.kind
  beBytes 1 c.kind.num ++ beBytes 1 c.generation ++ encodeNats 4 c.cells.toList ++ beBytes 4 c.unbinned ++
    beBytes 4 c.time ++ beBytes 4 c.events ++ yesNo c.saturated ++ encodeInts 4 b.load.toList ++
    encodeInts 4 b.speed.toList

def requestSpectrum (ch : Channel) (slot : Byte) (p : Part) : Part :=
  admitRequest {} ch 0x12 (firstBad [(0, slotOk slot)])
    (fun p =>
      match p.slot slot.toNat with
      | none => refuse ch 0x12 stSlotEmpty p
      | some c => answer ch 0x12 (spectrumResult p c) p) p

end Sys2Proof.Machine
end

