-- ==== Sys2Proof/Machine/RecordRequests.lean ====
section
/-! DEFINITION. The requests of Hire Accounting (chapter 6), Forwarding (R135), the Capture Unit (chapter 8), the Storage
Controller (chapter 9) and the Management Link (chapter 10), from admission to response. -/

namespace Sys2Proof.Machine

/-! ## hopn, hrd, hcls, hcol (R105, R106, R107, R112) -/

/-- The usage list of a hire at its opening (R103). -/
def Part.openingUsage (p : Part) : List Usage := slotNumbers.filterMap fun n => (p.slot n).map (Usage.new n)

/-- The hire that Open Hire creates (R105). -/
def Part.newHire (p : Part) (ch : Channel) (contract : Nat) : HireRecord where
  number := p.hire.nextNumber
  contract := contract
  openClock := p.modeCtl.clock
  openSync := p.modeCtl.sync
  openChannel := ch
  usage := p.openingUsage
  abuse := Vector.replicate 4 0
  abuseList := []
  overflow := false
  close := none

def requestOpenHire (ch : Channel) (contract : Word32) (p : Part) : Part :=
  admitRequest { modes := [.paused, .active] } ch 0x20 none
    (fun p =>
      if p.hire.closing.isSome then refuse ch 0x20 stBusy p
      else if p.hire.current.isSome then refuse ch 0x20 stHireOpen p
      else if p.hire.nextNumber = exhausted then refuse ch 0x20 stNotReady p
      else
        let h := p.newHire ch contract.toNat
        requestFull .openHire none
          (answer ch 0x20 (beBytes 4 h.number)
            { p with hire := { p.hire with current := some h, nextNumber := h.number + 1 } })) p

def requestReadHire (ch : Channel) (p : Part) : Part :=
  admitRequest {} ch 0x22 none
    (fun p =>
      match p.hire.current, p.hire.closing with
      | some h, _ => answer ch 0x22 (beBytes 1 0 ++ hireContent h) p
      | none, some h => answer ch 0x22 (beBytes 1 1 ++ hireContent h) p
      | none, none => refuse ch 0x22 stNoHire p) p

def requestCloseHire (ch : Channel) (p : Part) : Part :=
  admitRequest {} ch 0x21 none
    (fun p =>
      if p.hire.closing.isSome then refuse ch 0x21 stBusy p
      else
        match p.hire.current with
        | none => refuse ch 0x21 stNoHire p
        | some h =>
          let closed := { h with close := some { clock := p.modeCtl.clock, sync := p.modeCtl.sync, cause := ch } }
          { p with
            hire := { p.hire with current := none, closing := some closed }
            storage := { p.storage with archive := p.storage.archive ++ [.hire ch] } }) p

def requestCollectHire (ch : Channel) (p : Part) : Part :=
  admitRequest { service := false } ch 0x23 none
    (fun p =>
      match p.hire.queue with
      | [] => refuse ch 0x23 stNotReady p
      | n :: _ => startReader ch (.collect n p.hire.dropped) p) p

/-! ## fwdc - Read Forwarding Counters (R135) -/

/-- The waiting records from the pointer to the next sequence. -/
def Ring.waitingCount (r : Ring) : Nat :=
  r.records.countP fun rec => rec.waiting && decide (r.distance r.pointer ≤ r.distance rec.sequence)

def forwardingCounters (p : Part) : List Byte :=
  let r := p.ring
  beBytes 4 r.forwarded ++ beBytes 4 r.expired ++ beBytes 4 r.overrun ++ beBytes 4 p.matcher.unmatchedA ++
    beBytes 4 p.matcher.unmatchedB ++ beBytes 2 r.fill ++ beBytes 4 r.next.toNat ++ beBytes 4 r.oldest.toNat ++
    beBytes 4 r.pointer.toNat ++ beBytes 2 r.waitingCount ++ beBytes 2 p.modeCtl.active.limits.maximumAge ++
    yesNo p.modeCtl.passAll ++ beBytes 1 p.portB.state.num

def requestForwarding (ch : Channel) (p : Part) : Part :=
  admitRequest {} ch 0x28 none (fun p => answer ch 0x28 (forwardingCounters p) p) p

/-! ## capn, clck, culk, crel, cdir (R147 to R150) -/

/-- Capture Now's outcome (R147, R190): the outcome's byte, then the capture number, absent unless STARTED, and the queue
position, absent unless PENDING. DEDUCED (log 12). -/
def TriggerOutcome.bytes : TriggerOutcome → List Byte
  | .started number => beBytes 1 0 ++ optional 4 (some number) ++ optional 1 none
  | .waiting position => beBytes 1 1 ++ optional 4 none ++ optional 1 (some position)
  | .missed => beBytes 1 2 ++ optional 4 none ++ optional 1 none

def requestCaptureNow (ch : Channel) (pre post : BitVec 16) (p : Part) : Part :=
  admitRequest {} ch 0x30 (firstBad [(0, decide (pre.toNat ≤ 2048)), (1, inRange 1 2047 post.toNat)])
    (fun p =>
      let taken := takeTrigger (triggerRecord .request pre.toNat post.toNat false none p) p
      answer ch 0x30 taken.2.bytes taken.1) p

/-- The number is held by an entry: the check of Lock, Unlock and Release (R148, R149). -/
def heldNumber (p : Part) (number : Word32) : Option Nat :=
  firstBad [(0, (p.capture.entryOf number.toNat).isSome)]

/-- The locked flag of the entry holding a number takes a value (R148). -/
def setLocked (number : Nat) (locked : Bool) (c : Capture) : Capture :=
  match c.entryOf number with
  | some e => c.mapEntry e fun x => { x with locked }
  | none => c

def requestLock (ch : Channel) (code : Byte) (number : Word32) (locked : Bool) (p : Part) : Part :=
  admitRequest {} ch code (heldNumber p number)
    (fun p => answer ch code [] { p with capture := setLocked number.toNat locked p.capture }) p

def requestRelease (ch : Channel) (number : Word32) (p : Part) : Part :=
  admitRequest {} ch 0x33 (heldNumber p number)
    (fun p =>
      match p.capture.entryOf number.toNat with
      | none => p
      | some e =>
        if (p.capture.entry e).any (·.state == .opened) then refuse ch 0x33 stBusy p
        else if (p.capture.entry e).any (·.locked) then refuse ch 0x33 stLocked p
        else askCapture (.release e number.toNat ch) p) p

/-- One directory entry as Read Directory gives it (R136, R150): the state is always there; each other field is a result
that is absent in a FREE entry (R190). DEDUCED (log 12). -/
def directoryEntry (e : Option CaptureEntry) : List Byte :=
  let field := fun (width : Nat) (value : CaptureEntry → Nat) => optional width (e.map fun x => (value x : Int))
  field 4 (·.number) ++ field 1 (·.cause.num) ++ field 4 (·.clock) ++ field 1 (·.sync.toNat) ++
    field 4 (·.ringTime.toNat) ++ field 4 (·.seq.toNat) ++ field 2 (·.preAsked) ++ field 2 (·.postAsked) ++
    field 2 (·.available) ++ field 2 (·.stored) ++ field 2 (·.lost) ++ beBytes 1 ((e.map (·.state.num)).getD 0) ++
    field 1 (·.locked.toNat) ++ field 1 (·.read.toNat)

def directoryResult (p : Part) : List Byte :=
  let c := p.capture
  c.entries.toList.flatMap directoryEntry ++ beBytes 8 c.nextNumber ++ beBytes 2 c.missed ++
    beBytes 1 c.queue.length ++ (c.queue.flatMap fun t => beBytes 1 t.cause.num ++ beBytes 4 t.seq.toNat) ++
    optional 4 (c.copier.map fun k => (k.cursor.toNat : Int)) ++
    optional 4 (c.copier.map fun k => (k.windowEnd.toNat : Int))

def requestDirectory (ch : Channel) (p : Part) : Part :=
  admitRequest {} ch 0x34 none (fun p => answer ch 0x34 (directoryResult p) p) p

/-! ## ckpt - Checkpoint Now (R169), stst - Storage Status (R170) -/

def requestCheckpoint (ch : Channel) (p : Part) : Part :=
  admitRequest {} ch 0x38 none (requestFull .request (some (.checkpointNow ch))) p

/-- The arbiter's level of an owner of the bus (R155). -/
def Owner.level : Owner → Nat
  | .short => 1
  | .full => 2
  | .table _ => 3
  | .archive => 4
  | .capture => 5
  | .reader _ => 6
  | .restore => 0

/-- Requesters at a level of R155, granted or waiting. At the capture level each page write asked for is one, so the copier
counts twice while its header page and a frame page are both asked for. DESIGN CHOICE (log 12). -/
def Part.atLevel (p : Part) : Nat → Nat
  | 1 => if p.storage.short.state = .idle then 0 else 1
  | 2 => if p.storage.full.state = .idle then 0 else 1
  | 3 => if p.modeCtl.save = .idle then 0 else 1
  | 4 => p.storage.archive.length
  | 5 => p.storage.captureJobs.length
  | 6 => p.storage.readers.length
  | _ => 0

/-- Requesters waiting at a level: those there less the one whose transaction is in progress (R170). -/
def Part.waitingAt (p : Part) (level : Nat) : Nat :=
  p.atLevel level - (if p.storage.bus.any (·.owner.level == level) then 1 else 0)

/-- Storage Status's results (R170). The newest full checkpoint's sequence and its ring position are each a result that may
be absent (R190). DEDUCED (log 12). The folded count of the last restore, a sum over twelve slots, is sent modulo 2^32.
DESIGN CHOICE (log 35). -/
def storageStatus (p : Part) : List Byte :=
  let st := p.storage
  yesNo st.fault ++ beBytes 4 st.writes ++ beBytes 4 st.retries ++ beBytes 4 st.failures ++
    beBytes 1 p.lines.pfw.toNat ++ beBytes 1 st.full.state.num ++ yesNo st.full.pending ++
    beBytes 1 st.short.state.num ++
    optional 4 (st.newest.map fun n => (n.1 : Int)) ++ optional 2 (st.newest.map fun n => (n.2 : Int)) ++
    beBytes 4 st.nextSequence ++ beBytes 2 st.writePosition ++ beBytes 1 ((p.register.nextArchive - 1) % 64) ++
    beBytes 8 p.register.nextArchive ++ beBytes 2 (p.hire.newest % 320) ++ beBytes 4 p.hire.newest ++
    ([1, 2, 3, 4, 5, 6].flatMap fun level => beBytes 1 (p.waitingAt level)) ++
    optional 4 (st.last.taken.map fun n => (n : Int)) ++ beBytes 1 st.last.shorts ++ beBytes 4 st.last.folded ++
    beBytes 2 st.last.recovered

def requestStorageStatus (ch : Channel) (p : Part) : Part :=
  admitRequest {} ch 0x39 none (fun p => answer ch 0x39 (storageStatus p) p) p

/-! ## cond, cack, cmsk, desc (R181, R182, R183, R185) -/

def channelCounts (c : Chan) : List Byte :=
  beBytes 2 c.abandoned ++ beBytes 2 c.badSegments ++ beBytes 2 c.busyAnswers ++ beBytes 2 c.abandonedResponses

def conditionsResult (p : Part) : List Byte :=
  (p.conditions.flatMap fun c =>
      beBytes 1 c ++ beBytes 1 (if conditionStanding c then 1 else 0) ++ yesNo (p.link.masked c)) ++
    beBytes 2 p.link.mask.toNat ++ channelCounts p.link.fleet ++ channelCounts p.link.service ++
    beBytes 2 p.link.foreign

def requestConditions (ch : Channel) (p : Part) : Part :=
  admitRequest {} ch 0x48 none (fun p => answer ch 0x48 (conditionsResult p) p) p

/-- The index of the first number of a list outside 1 to 10 (R182). -/
def badCondition (numbers : List Byte) : Option Nat :=
  numbers.findIdx? fun n => decide (n.toNat < 1) || decide (10 < n.toNat)

def requestAcknowledge (ch : Channel) (numbers : List Byte) (p : Part) : Part :=
  admitRequest {} ch 0x49 (badCondition numbers)
    (fun p =>
      let p := { p with link := p.link.acknowledgeAll (numbers.map (·.toNat)) }
      answer ch 0x49 (p.conditions.flatMap (beBytes 1)) p) p

def requestMask (ch : Channel) (mask : BitVec 16) (p : Part) : Part :=
  admitRequest { service := false } ch 0x4A (firstBad [(0, decide (mask.toNat < 1024))])
    (fun p => answer ch 0x4A [] { p with link := { p.link with mask := mask.setWidth 10 } }) p

/-- Describe's results: the values fixed at manufacture, and the storage size (R185, log 10). -/
def description : List Byte :=
  beBytes 2 Config.vendorCode.toNat ++ beBytes 2 Config.partCode.toNat ++ beBytes 1 Config.revision.toNat ++
    beBytes 6 Config.partSerial.toNat ++ beBytes 2 pageCount ++ beBytes 2 pageSize

def requestDescribe (ch : Channel) (p : Part) : Part := admitRequest {} ch 0x01 none (answer ch 0x01 description) p

/-! ## rrec - Read Records (R186, R187), scan - Scan Archive (R188) -/

/-- The newest written number of an area: a number above it is refused (R186). -/
def Part.newestOf (p : Part) : Nat → Nat
  | 0 => p.register.newestArchive
  | 1 => p.hire.newest
  | _ => p.capture.nextNumber - 1

/-- The greatest count of an area (R186). -/
def countLimit : Nat → Nat
  | 0 => 64
  | 1 => 320
  | _ => 4080

/-- A frame index lies beyond the frames of a closed entry that holds the number (R187). -/
def beyondStored (p : Part) (number frameIndex : Nat) : Bool :=
  ((p.capture.entryOf number).bind p.capture.entry).any fun e => e.closed && decide (e.stored ≤ frameIndex)

/-- The checks of Read Records (R186, R187); the frame index is ignored outside CAPTURE. -/
def recordChecks (p : Part) (area number frameIndex count : Nat) : List (Nat × Bool) :=
  [(0, decide (area ≤ 2)), (1, decide (1 ≤ number) && decide (number ≤ p.newestOf area)),
    (2, area != 2 || (decide (frameIndex ≤ 4079) && !beyondStored p number frameIndex)),
    (3, inRange 1 (countLimit area) count)]

/-- The work of a Read Records request: the count of an archive run is cut at the newest written number (R186). -/
def recordTask (p : Part) (area number frameIndex count : Nat) : ReaderTask :=
  match area with
  | 0 => .components number (min count (p.register.newestArchive + 1 - number)) []
  | 1 => .hires number (min count (p.hire.newest + 1 - number)) []
  | _ => .frames number frameIndex count []

def requestRecords (ch : Channel) (area : Byte) (number : Word32) (frameIndex count : BitVec 16) (p : Part) : Part :=
  admitRequest {} ch 0x40 (firstBad (recordChecks p area.toNat number.toNat frameIndex.toNat count.toNat))
    (fun p => startReader ch (recordTask p area.toNat number.toNat frameIndex.toNat count.toNat) p) p

/-- The checks of Scan Archive (R188). -/
def scanChecks (start : Word32) (count : BitVec 16) (field sense : Byte) (value : Word32) : List (Nat × Bool) :=
  [(0, decide (1 ≤ start.toNat)), (1, inRange 1 320 count.toNat), (2, decide (field.toNat ≤ 2)),
    (3, decide (sense.toNat ≤ 1)), (4, field == 0 || decide (value.toNat ≤ 1))]

/-- The scan timer of 2 s (R188). -/
abbrev scanTime : Nat := 2000

def requestScan (ch : Channel) (start : Word32) (count : BitVec 16) (field sense : Byte) (value : Word32) (p : Part) :
    Part :=
  admitRequest {} ch 0x41 (firstBad (scanChecks start count field sense value))
    (startReader ch (.scan start.toNat count.toNat field.toNat sense.toNat value.toNat 0 scanTime)) p

end Sys2Proof.Machine
end

