-- ==== Sys2Proof/Machine/Messages.lean ====
section
/-! DEFINITION. Segment transfer (R173 to R175), the routing of management frames (R172), and the way of a whole message
from its channel to its request (R176). -/

namespace Sys2Proof.Machine

/-! ## Whole messages -/

/-- The request of a whole message by its code; a length that does not fit is MALFORMED, a code the part does not know
UNKNOWN_REQUEST (R176, R191). -/
def dispatch (ch : Channel) (msg : List Byte) (p : Part) : Part :=
  let code := byteAt msg 0
  let word := fun offset => BitVec.ofNat 32 (natAt msg offset 4)
  let half := fun offset => BitVec.ofNat 16 (natAt msg offset 2)
  if lengthFits msg = false then refuse ch code stMalformed p
  else
    match code.toNat with
    | 0x01 => requestDescribe ch p
    | 0x02 => requestModeState ch p
    | 0x03 => requestSetMode ch (byteAt msg 1) p
    | 0x04 => requestSetClock ch (word 1) p
    | 0x05 => requestRestart ch p
    | 0x06 => requestClearAll ch p
    | 0x07 => requestDecoderState ch (byteAt msg 1) (byteAt msg 2) p
    | 0x08 => requestWriteTable ch (byteAt msg 1) (byteAt msg 2) (msg.drop 3) p
    | 0x09 => requestReadTable ch (byteAt msg 1) (byteAt msg 2) p
    | 0x10 => requestLiveValues ch p
    | 0x11 => requestReadSlot ch (byteAt msg 1) p
    | 0x12 => requestSpectrum ch (byteAt msg 1) p
    | 0x13 => requestInstall ch (readInstall (msg.drop 1)) p
    | 0x14 => requestRemove ch (byteAt msg 1) p
    | 0x15 => requestConfirm ch (byteAt msg 1) (word 2) (word 6) (word 10) p
    | 0x16 => requestAdopt ch (byteAt msg 1) p
    | 0x17 => requestDismiss ch (byteAt msg 1) p
    | 0x18 => requestVerify ch (byteAt msg 1) p
    | 0x19 => requestProbe ch (readProbe (msg.drop 1)) p
    | 0x20 => requestOpenHire ch (word 1) p
    | 0x21 => requestCloseHire ch p
    | 0x22 => requestReadHire ch p
    | 0x23 => requestCollectHire ch p
    | 0x28 => requestForwarding ch p
    | 0x30 => requestCaptureNow ch (half 1) (half 3) p
    | 0x31 => requestLock ch 0x31 (word 1) true p
    | 0x32 => requestLock ch 0x32 (word 1) false p
    | 0x33 => requestRelease ch (word 1) p
    | 0x34 => requestDirectory ch p
    | 0x38 => requestCheckpoint ch p
    | 0x39 => requestStorageStatus ch p
    | 0x40 => requestRecords ch (byteAt msg 1) (word 2) (half 6) (half 8) p
    | 0x41 => requestScan ch (word 1) (half 5) (byteAt msg 7) (byteAt msg 8) (word 9) p
    | 0x48 => requestConditions ch p
    | 0x49 => requestAcknowledge ch (msg.drop 1) p
    | 0x4A => requestMask ch (half 1) p
    | _ => refuse ch code stUnknownRequest p

/-- The channel takes a whole message and is PROCESSING; a Service message sets the request port (R174, R176). -/
def Chan.accept (ch : Channel) (port : PortId) (c : Chan) : Chan :=
  { c with
    state := .processing, buffer := [], length := 0, expected := 0, gap := none
    port := match ch with
      | .fleet => c.port
      | .service => port }

/-- The message being received is abandoned and counted (R174). -/
def Chan.abandon (c : Chan) : Chan := { c.toIdle with abandoned := addSat max16 c.abandoned 1 }

/-- A bad segment is counted (R173). -/
def Chan.countBad (c : Chan) : Chan := { c with badSegments := addSat max16 c.badSegments 1 }

/-- A change to a channel. -/
def Part.mapChan (p : Part) (ch : Channel) (f : Chan → Chan) : Part := p.setChan ch (f (p.chan ch))

/-- A BUSY answer of the channel waits at a port, held or offered (R175, log 21). -/
def Part.busyWaiting (p : Part) (ch : Channel) (port : PortId) : Bool :=
  ((p.chan ch).busyAt port).isSome || (p.ring.waitingOf ch port).any fun f => f.source == .busy ch

/-- A SINGLE or FIRST reaching a PROCESSING or RESPONDING channel: a BUSY answer is made and counted, unless one waits on
its port (R175). Its 1,000 ms run from here, also while it is held back (R178). DESIGN CHOICE (log 45). -/
def busyAnswer (ch : Channel) (port : PortId) (code : Byte) (p : Part) : Part :=
  if p.busyWaiting ch port then p
  else
    p.mapChan ch fun c =>
      { c.setBusy port (some { code, timeout := responseTimeoutMs }) with
        busyAnswers := addSat max16 c.busyAnswers 1 }

/-- A message that comes in whole (a SINGLE, or the whole message a request command stands for): taken by an IDLE channel,
taken by a RECEIVING one that abandons what it was receiving, or answered BUSY (R174, R175). -/
def takeWhole (ch : Channel) (port : PortId) (code : Byte) (run : Part → Part) (p : Part) : Part :=
  match (p.chan ch).state with
  | .idle => run (p.mapChan ch (Chan.accept ch port))
  | .receiving => run (p.mapChan ch fun c => Chan.accept ch port c.abandon)
  | .processing => busyAnswer ch port code p
  | .responding => busyAnswer ch port code p

/-! ## Segments (R173) -/

/-- A segment of a message. -/
inductive Segment where
  | single (msg : List Byte)
  | first (length : Nat) (bytes : List Byte)
  | next (sequence : Nat) (bytes : List Byte)
  | bad
  deriving DecidableEq, Repr

/-- The segment that a frame's data bytes are (R173). A NEXT too short for what it must carry is found against the message
it belongs to. -/
def readSegment : List Byte → Segment
  | [] => .bad
  | control :: rest =>
    let low := control.toNat % 16
    match control.toNat / 16 with
    | 0 => if 1 ≤ low ∧ low ≤ 7 ∧ low ≤ rest.length then .single (rest.take low) else .bad
    | 1 =>
      match rest with
      | [] => .bad
      | second :: bytes =>
        let length := low * 256 + second.toNat
        if 8 ≤ length ∧ length ≤ 1024 ∧ 6 ≤ bytes.length then .first length (bytes.take 6) else .bad
    | 2 => .next low rest
    | _ => .bad

/-- The gap timer of 250 ms (R174). -/
abbrev gapTime : Nat := 250

/-- A FIRST begins a message (R174). -/
def Chan.beginMessage (ch : Channel) (port : PortId) (length : Nat) (bytes : List Byte) (c : Chan) : Chan :=
  { c with
    state := .receiving, buffer := bytes, length := length, expected := 1, gap := some gapTime
    port := match ch with
      | .fleet => c.port
      | .service => port }

/-- The bytes the next NEXT must carry (R173). -/
def Chan.due (c : Chan) : Nat := min 7 (c.length - c.buffer.length)

/-- A NEXT of the expected sequence on a RECEIVING channel: its bytes join the message, which may now be whole (R174). -/
def takeNext (ch : Channel) (bytes : List Byte) (p : Part) : Part :=
  let c := p.chan ch
  let buffer := c.buffer ++ bytes.take c.due
  if c.length ≤ buffer.length then dispatch ch buffer (p.setChan ch (Chan.accept ch c.port c))
  else p.setChan ch { c with buffer, expected := (c.expected + 1) % 16, gap := some gapTime }

/-- A NEXT reaching a RECEIVING channel (R173, R174). Its length is judged before its sequence, by the bytes that the
expected NEXT would carry, so a short one of another sequence is a bad segment. DESIGN CHOICE (log 12). -/
def nextReceived (ch : Channel) (port : PortId) (sequence : Nat) (bytes : List Byte) (p : Part) : Part :=
  let c := p.chan ch
  if ch = .service ∧ port ≠ c.port then p.mapChan ch Chan.countBad
  else if bytes.length < c.due then p.mapChan ch fun c => c.countBad.abandon
  else if sequence = c.expected then takeNext ch bytes p
  else p.mapChan ch Chan.abandon

/-- A segment reaches its channel (R174, R175). A NEXT outside RECEIVING is discarded uncounted, also one of the control byte
alone, which no message gives a length to fail. DESIGN CHOICE (log 12). -/
def takeSegment (ch : Channel) (port : PortId) (s : Segment) (p : Part) : Part :=
  match s, (p.chan ch).state with
  | .single msg, _ => takeWhole ch port (byteAt msg 0) (dispatch ch msg) p
  | .first length bytes, .idle => p.mapChan ch (Chan.beginMessage ch port length bytes)
  | .first length bytes, .receiving => p.mapChan ch fun c => Chan.beginMessage ch port length bytes c.abandon
  | .first _ bytes, .processing => busyAnswer ch port (byteAt bytes 0) p
  | .first _ bytes, .responding => busyAnswer ch port (byteAt bytes 0) p
  | .next sequence bytes, .receiving => nextReceived ch port sequence bytes p
  | .next _ _, _ => p
  | .bad, .receiving => p.mapChan ch fun c => c.countBad.abandon
  | .bad, _ => p.mapChan ch Chan.countBad

/-- The gap timer expires in RECEIVING: the message is abandoned (R174). -/
def expireGap (ch : Channel) (p : Part) : Part :=
  if (p.chan ch).state = .receiving ∧ (p.chan ch).gap.isSome then p.mapChan ch Chan.abandon else p

/-! ## Routing (R1, R172) -/

/-- A foreign management frame is counted (R172). -/
def countForeign (p : Part) : Part := { p with link := { p.link with foreign := addSat max16 p.link.foreign 1 } }

/-- A management frame is routed by identifier and port (R172). -/
def routeManagement (port : PortId) (f : Frame) (p : Part) : Part :=
  if f.ident.toNat = idFleetRequest ∧ port = .b then takeSegment .fleet port (readSegment f.data) p
  else if f.ident.toNat = idServiceRequest then takeSegment .service port (readSegment f.data) p
  else countForeign p

/-- An undamaged data frame goes to the Management Link or to the Frame Matcher (R1). -/
def routeFrame (port : PortId) (f : Frame) (p : Part) : Part :=
  if isReserved f.format f.ident.toNat then routeManagement port f p else matchFrame port f p

/-- A frame is a wake cause: any on port A, the two request identifiers in BASE format on port B (R3, R36). -/
def isWakeCause (port : PortId) (f : Frame) : Bool :=
  match port with
  | .a => true
  | .b => f.format == .base && (f.ident.toNat == idFleetRequest || f.ident.toNat == idServiceRequest)

/-! ## Request commands as whole messages (log 4) -/

/-- The channel of a source. -/
def sourceChannel : Source → Channel
  | .fleet => .fleet
  | .service _ _ => .service

/-- The port of a source. -/
def sourcePort : Source → PortId
  | .fleet => .b
  | .service port _ => port

/-- The SVC line's level as a source gives it. -/
def sampleSource (src : Source) (p : Part) : Part :=
  match src with
  | .fleet => p
  | .service _ svc => { p with lines := { p.lines with svc } }

/-- A whole request message reaches its channel: not during a restore or without supply (R172), not on a port in BUS_OFF
(R2); it wakes a sleeping part (R3, R36). `run` is the request from its admission on; a length that does not fit its code
is MALFORMED (R176). -/
def presentMessage (src : Source) (msg : List Byte) (run : Channel → Part → Part) (p : Part) : Part :=
  let p := sampleSource src p
  let ch := sourceChannel src
  let port := sourcePort src
  if p.live = false then p
  else if (p.port port).state = .busOff then p
  else
    takeWhole ch port (byteAt msg 0)
      (if lengthFits msg then run ch else refuse ch (byteAt msg 0) stMalformed) (wakeCause p)

end Sys2Proof.Machine
end

