-- ==== Sys2Proof/Machine/Settle.lean ====
section
/-! DEFINITION. What follows every event of the running part (log 11): the storage grant, the Probe Unit's next query, the
transmitters, and the quiet timer; and how an event makes the next state. -/

namespace Sys2Proof.Machine

/-- What waits is granted, offered and handed over as far as it can be; a sleeping part writes only its short checkpoint
(R36). -/
def settle (m : Medium) (p : Part) : Part :=
  if p.live = false then p
  else if p.modeCtl.asleep then grant m p
  else settleQuiet (transmitSettle (probeNext (grant m p)))

/-- The state after an event of the part: a restart that begins abandons a page write in progress (R39, log 17). -/
def State.after (s : State) (p : Part) : State :=
  let m := if p.restore.isSome && s.part.restore.isNone then abandonWrite s.part.storage.bus s.medium else s.medium
  { s with medium := m, part := settle m p }

/-- The next state of an event of the running, AWAKE part. -/
def runAwake (f : Part → Part) (s : State) : Host.Outcome State Fault Refusal := .next (s.after (whenAwake f s.part))

/-- The next state of a request command: a whole message (log 4). -/
def runRequest (src : Source) (msg : List Byte) (run : Channel → Part → Part) (s : State) :
    Host.Outcome State Fault Refusal :=
  .next (s.after (presentMessage src msg run s.part))

end Sys2Proof.Machine
end

