-- ==== Sys2Proof/Machine/PortCommands.lean ====
section
/-! DEFINITION. The meanings of the commands on the ports, the lines and the supply (R1, R2, R34, R138, R161 to R163). -/

namespace Sys2Proof.Machine

/-- A frame received without error is counted (R1). -/
def countReceived (port : PortId) (p : Part) : Part :=
  p.setPort port { p.port port with received := addSat max32 (p.port port).received 1 }

/-- A port receives: it is RUNNING or LISTENING, and the supply is on (R1, R2, R3). -/
def Part.receives (p : Part) (port : PortId) : Bool := p.powered && (p.port port).state != .busOff

/-- An undamaged data frame on a port that receives (R1, R3, R35, R67): counted; discarded during a restore; in LISTENING
only a wake cause goes on, after the wake effects; otherwise watched by the Probe Unit on port A and routed. -/
def receiveFrame (port : PortId) (f : Frame) (p : Part) : Part :=
  if p.receives port = false then p
  else
    let p := countReceived port p
    if p.restore.isSome then p
    else if isWakeCause port f then
      let p := wakeCause p
      routeFrame port f (if port = .a then watchReply f p else p)
    else if p.modeCtl.asleep then p
    else routeFrame port f p

/-- The SVC line as it stands (log 5). -/
def sampleSvc (svc : Bool) (p : Part) : Part := { p with lines := { p.lines with svc } }

/-- DATA_FRAME_RECEIVED (R1). -/
def execDataFrameReceived (port : PortId) (frame : Frame) (svc : Bool) (s : State) :
    Host.Outcome State Fault Refusal :=
  if frameOk frame then .next (s.after (receiveFrame port frame (sampleSvc svc s.part))) else .refused .notAFrame

/-- DAMAGED_FRAME_RECEIVED (R1): the receive error count rises. -/
def execDamagedFrameReceived (port : PortId) (s : State) : Host.Outcome State Fault Refusal :=
  let p := s.part
  if p.receives port then
    .next { s with
      part := p.setPort port { p.port port with receiveErrors := addSat max16 (p.port port).receiveErrors 1 } }
  else .next s

/-- REMOTE_REQUEST_FRAME (R1): the received count rises. -/
def execRemoteRequestFrame (port : PortId) (s : State) : Host.Outcome State Fault Refusal :=
  if s.part.receives port then .next { s with part := countReceived port s.part } else .next s

/-- TRANSMISSION_FAILED (R2), of the frame in the transmitter of a RUNNING port. -/
def execTransmissionFailed (port : PortId) (s : State) : Host.Outcome State Fault Refusal :=
  let q := s.part.port port
  if s.part.awake ∧ q.state = .running ∧ q.tx.isSome then .next { s with part := s.part.setPort port q.failed }
  else .next s

/-- TRANSMISSION_SUCCEEDED (R2). -/
def execTransmissionSucceeded (port : PortId) (s : State) : Host.Outcome State Fault Refusal :=
  runAwake (transmitted port) s

/-- BUS_OFF_RECOVERY_EXPIRY (R2): the port is RUNNING again. -/
def execBusOffRecoveryExpiry (port : PortId) (s : State) : Host.Outcome State Fault Refusal :=
  runAwake
    (fun p =>
      if (p.port port).recovery.isSome then
        p.setPort port { p.port port with state := .running, recovery := none }
      else p) s

/-- The IGN line's new level: the debounce runs while it differs from the debounced state (R34). -/
def changeIgn (level : Bool) (p : Part) : Part :=
  let p := { p with lines := { p.lines with ign := level } }
  if p.powered = false then p
  else
    { p with
      modeCtl := { p.modeCtl with
        debounce := if level = p.modeCtl.ignition then none else some (p.modeCtl.debounce.getD 100) } }

/-- IGN_LINE_CHANGE (R34). -/
def execIgnLineChange (level : Bool) (s : State) : Host.Outcome State Fault Refusal :=
  .next { s with part := changeIgn level s.part }

/-- The debounced ignition takes the line's level: on is a wake cause, off stops an engine in UNKNOWN (R34, R36, R49). -/
def settleIgn (p : Part) : Part :=
  if p.modeCtl.debounce.isNone then p
  else
    let p := { p with modeCtl := { p.modeCtl with ignition := p.lines.ign, debounce := none } }
    if p.live = false then p
    else if p.lines.ign then wakeCause p
    else if p.detector.engine = .unknown then changeEngine .stopped p
    else p

/-- IGN_DEBOUNCE_EXPIRY (R34). -/
def execIgnDebounceExpiry (s : State) : Host.Outcome State Fault Refusal := .next (s.after (settleIgn s.part))

/-- A fall of CAPT triggers a capture while the flag is set and the part is not driving the line (R137, R138). -/
def captFall (p : Part) : Part :=
  let l := p.modeCtl.active.limits
  if l.captTrigger ∧ p.capture.driveTimer.isNone then
    (takeTrigger (triggerRecord .captLine l.captPre l.captPost false none p) p).1
  else p

/-- CAPT_LINE_FALL (R138). -/
def execCaptLineFall (s : State) : Host.Outcome State Fault Refusal := runAwake captFall s

/-- PFW_ASSERTED (R161). During a restore, or without supply, only the line is noted. -/
def execPfwAsserted (s : State) : Host.Outcome State Fault Refusal :=
  let p := { s.part with lines := { s.part.lines with pfw := true } }
  if s.part.lines.pfw ∨ s.part.live = false then .next { s with part := p }
  else if s.part.storage.short.state ≠ .idle then .next { s with part := settle s.medium (assertPfw p) }
  else
    let m := abandonWrite s.part.storage.bus s.medium
    .next { s with medium := m, part := settle m (assertPfw p) }

/-- PFW_WITHDRAWN (R162): what was held is granted again. -/
def execPfwWithdrawn (s : State) : Host.Outcome State Fault Refusal :=
  .next (s.after { s.part with lines := { s.part.lines with pfw := false } })

/-- SUPPLY_LOSS (R162): everything in working memory is lost. -/
def execSupplyLoss (s : State) : Host.Outcome State Fault Refusal :=
  if s.part.powered then
    .next { s with
      medium := abandonWrite s.part.storage.bus s.medium
      part := { Part.unpowered with lines := s.part.lines } }
  else .next s

/-- SUPPLY_ON (R163): the restore begins. -/
def execSupplyOn (s : State) : Host.Outcome State Fault Refusal :=
  if s.part.powered then .next s else .next { s with part := beginRestore s.part }

end Sys2Proof.Machine
end

