-- ==== Sys2Proof/Machine/TimerCommands.lean ====
section
/-! DEFINITION. The meanings of the timers' expiries. An expiry acts while its timer runs, and changes nothing otherwise
(log 3). -/

namespace Sys2Proof.Machine

/-- FRESHNESS_DEADLINE_EXPIRY (R13). -/
def execFreshnessDeadlineExpiry (signal : Fin 48) (s : State) : Host.Outcome State Fault Refusal :=
  runAwake (expireSignal signal.val) s

/-- WINDOW_A_EXPIRY (R46). -/
def execWindowAExpiry (s : State) : Host.Outcome State Fault Refusal :=
  runAwake (fun p => if p.detector.windowA.isSome then expireWindowA p else p) s

/-- WINDOW_B_EXPIRY (R47). -/
def execWindowBExpiry (s : State) : Host.Outcome State Fault Refusal :=
  runAwake (fun p => if p.detector.windowB.isSome then expireWindowB p else p) s

/-- An interval expiry: the next period starts; in ACTIVE the slots are credited and the abuse kinds judged (R84, R85,
R115). -/
def expireInterval (p : Part) : Part :=
  let p := { p with wear := { p.wear with timer := some 1000 } }
  if p.modeCtl.mode = .active then judgeInterval (creditAll p) else p

/-- INTERVAL_EXPIRY (R85). -/
def execIntervalExpiry (s : State) : Host.Outcome State Fault Refusal :=
  runAwake (fun p => if p.wear.timer.isSome then expireInterval p else p) s

/-- An evaluation expiry: the next period starts; in ACTIVE with the engine RUNNING the Clutch Monitor evaluates (R91). -/
def expireEvaluation (p : Part) : Part :=
  let p := { p with clutch := { p.clutch with timer := some 100 } }
  if p.modeCtl.mode = .active ∧ p.detector.engine = .running then evaluateClutch p else p

/-- EVALUATION_EXPIRY (R93). -/
def execEvaluationExpiry (s : State) : Host.Outcome State Fault Refusal :=
  runAwake (fun p => if p.clutch.timer.isSome then expireEvaluation p else p) s

/-- The quiet period has run out: a full checkpoint is requested for sleep entry (R35). -/
def expireQuiet (p : Part) : Part :=
  requestFull .sleep (some .sleep) { p with modeCtl := { p.modeCtl with quiet := none, sleepWait := some false } }

/-- QUIET_PERIOD_EXPIRY (R35). -/
def execQuietPeriodExpiry (s : State) : Host.Outcome State Fault Refusal :=
  runAwake (fun p => if p.modeCtl.quiet.isSome then expireQuiet p else p) s

/-- The Device Clock advances by a second, staying at its limit (R37). -/
def tickClock (p : Part) : Part :=
  { p with modeCtl := { p.modeCtl with clock := addSat max32 p.modeCtl.clock 1, clockPhase := 1000 } }

/-- DEVICE_CLOCK_TICK (R37), in both power states. -/
def execDeviceClockTick (s : State) : Host.Outcome State Fault Refusal :=
  if s.part.live then .next { s with part := tickClock s.part } else .next s

/-- CAPT_DRIVE_TIMER_EXPIRY (R141): the part releases the line. -/
def execCaptDriveTimerExpiry (s : State) : Host.Outcome State Fault Refusal :=
  .next { s with part := { s.part with capture := { s.part.capture with driveTimer := none } } }

/-- The post timeout has run out: the window end is cut, and the copier goes on to it (R144). -/
def expirePost (p : Part) : Part :=
  copierRun
    { p with
      capture := { p.capture with postTimeout := none, copier := p.capture.copier.map (cutWindow p.ring) } }

/-- POST_TIMEOUT_EXPIRY (R144). -/
def execPostTimeoutExpiry (s : State) : Host.Outcome State Fault Refusal :=
  runAwake (fun p => if p.capture.postTimeout.isSome then expirePost p else p) s

/-- AGE_DEADLINE_EXPIRY (R124). -/
def execAgeDeadlineExpiry (s : State) : Host.Outcome State Fault Refusal :=
  runAwake (fun p => if p.ring.age.isSome then expireAge p else p) s

/-- REPLY_TIMEOUT (R67). -/
def execReplyTimeout (s : State) : Host.Outcome State Fault Refusal := runAwake expireReply s

/-- GAP_TIMER_EXPIRY (R174). -/
def execGapTimerExpiry (ch : Channel) (s : State) : Host.Outcome State Fault Refusal := runAwake (expireGap ch) s

/-- RESPONSE_TIMEOUT (R178). -/
def execResponseTimeout (place : FramePlace) (s : State) : Host.Outcome State Fault Refusal :=
  runAwake (expireResponse place) s

/-- The status timer expires: a status frame of this moment waits at the port B arbiter, in place of one still waiting
there (R129, R184). -/
def expireStatus (p : Part) : Part :=
  { p with
    ring := { p.ring with waitingStatus := some { frame := statusFrame p, source := .status, timeout := none } }
    link := { p.link with statusTimer := some 1000 } }

/-- STATUS_TIMER_EXPIRY (R184). -/
def execStatusTimerExpiry (s : State) : Host.Outcome State Fault Refusal :=
  runAwake (fun p => if p.link.statusTimer.isSome then expireStatus p else p) s

/-- SCAN_TIMER_EXPIRY (R189). -/
def execScanTimerExpiry (ch : Channel) (s : State) : Host.Outcome State Fault Refusal := runAwake (expireScan ch) s

end Sys2Proof.Machine
end

