-- ==== Sys2Proof/Machine/StorageCommands.lean ====
section
/-! DEFINITION. The meanings of the storage bus's events (R153). -/

namespace Sys2Proof.Machine

/-- The state after a transaction's event, with the medium as the event leaves it. -/
def State.stored (s : State) (m : Medium) (p : Part) : State := { s with medium := m, part := settle m p }

/-- A failed attempt of a write: retried once, then the transaction has failed and its page is invalid (R153). -/
def failAttempt (t : Transaction) (s : State) : State :=
  let p := s.part
  if t.attempt < 2 then { s with part := p.setStorage (retry t p.storage) }
  else s.stored (s.medium.spoilPage t.page) (writeFailed t.owner (p.setStorage (countFailed p.storage)))

/-- PAGE_WRITE_COMPLETE (R153): the read-back equals what was written, or does not. -/
def execPageWriteComplete (equal : Bool) (s : State) : Host.Outcome State Fault Refusal :=
  match s.part.storage.bus with
  | none => .next s
  | some t =>
    match t.write with
    | none => .next s
    | some bytes =>
      if pageCount ≤ t.page then .fault .noSuchPage
      else if equal then
        .next (s.stored (s.medium.writePage t.page bytes)
          (writeVerified t.owner (s.part.setStorage (countVerified s.part.storage))))
      else .next (failAttempt t s)

/-- PAGE_READ_COMPLETE (R153): the memory has answered the read. -/
def execPageReadComplete (s : State) : Host.Outcome State Fault Refusal :=
  match s.part.storage.bus with
  | none => .next s
  | some t =>
    if t.write.isSome then .next s
    else if pageCount ≤ t.page then .fault .noSuchPage
    else
      .next (s.stored s.medium (readTook s.medium t (s.part.setStorage { s.part.storage with bus := none })))

/-- The second silence of a read: a read failure (R153). -/
def failRead (t : Transaction) (s : State) : State :=
  let p := s.part
  if t.attempt < 2 then { s with part := p.setStorage (retry t p.storage) }
  else s.stored s.medium (readSilent s.medium t.owner (p.setStorage (countFailed p.storage)))

/-- STORAGE_ANSWER_TIMEOUT (R153): the memory has not answered the attempt in time. -/
def execStorageAnswerTimeout (s : State) : Host.Outcome State Fault Refusal :=
  match s.part.storage.bus with
  | none => .next s
  | some t => if t.write.isSome then .next (failAttempt t s) else .next (failRead t s)

end Sys2Proof.Machine
end

