-- ==== Sys2Proof/Machine/RequestCommands.lean ====
section
/-! DEFINITION. The meanings of the management requests: each as a whole message on its channel (log 4), from its
admission on. -/

namespace Sys2Proof.Machine

/-- UNKNOWN_REQUEST (R176): a code that the part does not know is refused; the message goes the way of every whole message. -/
def execUnknownRequest (src : Source) (code : Byte) (args : List Byte) (s : State) :
    Host.Outcome State Fault Refusal :=
  runRequest src (code :: args) (fun ch => dispatch ch (code :: args)) s

/-- READ_DECODER_STATE, dsta (R22). -/
def execReadDecoderState (src : Source) (area first : Byte) (s : State) : Host.Outcome State Fault Refusal :=
  runRequest src [0x07, area, first] (fun ch => requestDecoderState ch area first) s

/-- SET_MODE, mode (R24). -/
def execSetMode (src : Source) (target : Byte) (s : State) : Host.Outcome State Fault Refusal :=
  runRequest src [0x03, target] (fun ch => requestSetMode ch target) s

/-- WRITE_TABLE, twr (R29). -/
def execWriteTable (src : Source) (table item : Byte) (contents : List Byte) (s : State) :
    Host.Outcome State Fault Refusal :=
  runRequest src ([0x08, table, item] ++ contents) (fun ch => requestWriteTable ch table item contents) s

/-- READ_TABLE, trd (R30). -/
def execReadTable (src : Source) (table item : Byte) (s : State) : Host.Outcome State Fault Refusal :=
  runRequest src [0x09, table, item] (fun ch => requestReadTable ch table item) s

/-- SET_CLOCK, clk (R37). -/
def execSetClock (src : Source) (value : Word32) (s : State) : Host.Outcome State Fault Refusal :=
  runRequest src ([0x04] ++ beBytes 4 value.toNat) (fun ch => requestSetClock ch value) s

/-- READ_MODE_STATE, msta (R38). -/
def execReadModeState (src : Source) (s : State) : Host.Outcome State Fault Refusal :=
  runRequest src [0x02] requestModeState s

/-- RESTART, rst (R39). -/
def execRestart (src : Source) (s : State) : Host.Outcome State Fault Refusal :=
  runRequest src [0x05] requestRestart s

/-- CLEAR_ALL, clra (R40). -/
def execClearAll (src : Source) (s : State) : Host.Outcome State Fault Refusal :=
  runRequest src [0x06] requestClearAll s

/-- READ_LIVE_VALUES, live (R56). -/
def execReadLiveValues (src : Source) (s : State) : Host.Outcome State Fault Refusal :=
  runRequest src [0x10] requestLiveValues s

/-- INSTALL_COMPONENT, inst (R62). -/
def execInstallComponent (src : Source) (args : InstallArgs) (s : State) : Host.Outcome State Fault Refusal :=
  runRequest src ([0x13] ++ installBytes args) (fun ch => requestInstall ch args) s

/-- REMOVE_COMPONENT, rmv (R64). -/
def execRemoveComponent (src : Source) (slot : Byte) (s : State) : Host.Outcome State Fault Refusal :=
  runRequest src [0x14, slot] (fun ch => requestRemove ch slot) s

/-- VERIFY_NOW, vrfy (R71). -/
def execVerifyNow (src : Source) (slot : Byte) (s : State) : Host.Outcome State Fault Refusal :=
  runRequest src [0x18, slot] (fun ch => requestVerify ch slot) s

/-- PROBE, prb (R72). -/
def execProbe (src : Source) (args : ProbeArgs) (s : State) : Host.Outcome State Fault Refusal :=
  runRequest src ([0x19] ++ probeBytes args) (fun ch => requestProbe ch args) s

/-- CONFIRM_CHANGE, cfrm (R73). -/
def execConfirmChange (src : Source) (slot : Byte) (events time wear : Word32) (s : State) :
    Host.Outcome State Fault Refusal :=
  runRequest src ([0x15, slot] ++ beBytes 4 events.toNat ++ beBytes 4 time.toNat ++ beBytes 4 wear.toNat)
    (fun ch => requestConfirm ch slot events time wear) s

/-- ADOPT_IDENTITY, adpt (R74). -/
def execAdoptIdentity (src : Source) (slot : Byte) (s : State) : Host.Outcome State Fault Refusal :=
  runRequest src [0x16, slot] (fun ch => requestAdopt ch slot) s

/-- DISMISS_MISMATCH, dism (R75). -/
def execDismissMismatch (src : Source) (slot : Byte) (s : State) : Host.Outcome State Fault Refusal :=
  runRequest src [0x17, slot] (fun ch => requestDismiss ch slot) s

/-- READ_SLOT, slot (R76). -/
def execReadSlot (src : Source) (slot : Byte) (s : State) : Host.Outcome State Fault Refusal :=
  runRequest src [0x11, slot] (fun ch => requestReadSlot ch slot) s

/-- READ_SPECTRUM, spec (R100). -/
def execReadSpectrum (src : Source) (slot : Byte) (s : State) : Host.Outcome State Fault Refusal :=
  runRequest src [0x12, slot] (fun ch => requestSpectrum ch slot) s

/-- OPEN_HIRE, hopn (R105). -/
def execOpenHire (src : Source) (contract : Word32) (s : State) : Host.Outcome State Fault Refusal :=
  runRequest src ([0x20] ++ beBytes 4 contract.toNat) (fun ch => requestOpenHire ch contract) s

/-- READ_OPEN_HIRE, hrd (R106). -/
def execReadOpenHire (src : Source) (s : State) : Host.Outcome State Fault Refusal :=
  runRequest src [0x22] requestReadHire s

/-- CLOSE_HIRE, hcls (R107). -/
def execCloseHire (src : Source) (s : State) : Host.Outcome State Fault Refusal :=
  runRequest src [0x21] requestCloseHire s

/-- COLLECT_HIRE, hcol (R112). -/
def execCollectHire (src : Source) (s : State) : Host.Outcome State Fault Refusal :=
  runRequest src [0x23] requestCollectHire s

/-- READ_FORWARDING_COUNTERS, fwdc (R135). -/
def execReadForwardingCounters (src : Source) (s : State) : Host.Outcome State Fault Refusal :=
  runRequest src [0x28] requestForwarding s

/-- CAPTURE_NOW, capn (R147). -/
def execCaptureNow (src : Source) (pre post : BitVec 16) (s : State) : Host.Outcome State Fault Refusal :=
  runRequest src ([0x30] ++ beBytes 2 pre.toNat ++ beBytes 2 post.toNat) (fun ch => requestCaptureNow ch pre post) s

/-- LOCK_CAPTURE, clck (R148). -/
def execLockCapture (src : Source) (number : Word32) (s : State) : Host.Outcome State Fault Refusal :=
  runRequest src ([0x31] ++ beBytes 4 number.toNat) (fun ch => requestLock ch 0x31 number true) s

/-- UNLOCK_CAPTURE, culk (R148). -/
def execUnlockCapture (src : Source) (number : Word32) (s : State) : Host.Outcome State Fault Refusal :=
  runRequest src ([0x32] ++ beBytes 4 number.toNat) (fun ch => requestLock ch 0x32 number false) s

/-- RELEASE_CAPTURE, crel (R149). -/
def execReleaseCapture (src : Source) (number : Word32) (s : State) : Host.Outcome State Fault Refusal :=
  runRequest src ([0x33] ++ beBytes 4 number.toNat) (fun ch => requestRelease ch number) s

/-- READ_DIRECTORY, cdir (R150). -/
def execReadDirectory (src : Source) (s : State) : Host.Outcome State Fault Refusal :=
  runRequest src [0x34] requestDirectory s

/-- CHECKPOINT_NOW, ckpt (R169). -/
def execCheckpointNow (src : Source) (s : State) : Host.Outcome State Fault Refusal :=
  runRequest src [0x38] requestCheckpoint s

/-- STORAGE_STATUS, stst (R170). -/
def execStorageStatus (src : Source) (s : State) : Host.Outcome State Fault Refusal :=
  runRequest src [0x39] requestStorageStatus s

/-- READ_CONDITIONS, cond (R181). -/
def execReadConditions (src : Source) (s : State) : Host.Outcome State Fault Refusal :=
  runRequest src [0x48] requestConditions s

/-- ACKNOWLEDGE_CONDITIONS, cack (R182). -/
def execAcknowledgeConditions (src : Source) (numbers : List Byte) (s : State) : Host.Outcome State Fault Refusal :=
  runRequest src ([0x49] ++ numbers) (fun ch => requestAcknowledge ch numbers) s

/-- SET_CONDITION_MASK, cmsk (R183). -/
def execSetConditionMask (src : Source) (mask : BitVec 16) (s : State) : Host.Outcome State Fault Refusal :=
  runRequest src ([0x4A] ++ beBytes 2 mask.toNat) (fun ch => requestMask ch mask) s

/-- DESCRIBE, desc (R185). -/
def execDescribe (src : Source) (s : State) : Host.Outcome State Fault Refusal :=
  runRequest src [0x01] requestDescribe s

/-- READ_RECORDS, rrec (R186). -/
def execReadRecords (src : Source) (area : Byte) (number : Word32) (frameIndex count : BitVec 16) (s : State) :
    Host.Outcome State Fault Refusal :=
  runRequest src ([0x40, area] ++ beBytes 4 number.toNat ++ beBytes 2 frameIndex.toNat ++ beBytes 2 count.toNat)
    (fun ch => requestRecords ch area number frameIndex count) s

/-- SCAN_ARCHIVE, scan (R188). -/
def execScanArchive (src : Source) (start : Word32) (count : BitVec 16) (field sense : Byte) (value : Word32) (s : State) :
    Host.Outcome State Fault Refusal :=
  runRequest src ([0x41] ++ beBytes 4 start.toNat ++ beBytes 2 count.toNat ++ [field, sense] ++ beBytes 4 value.toNat)
    (fun ch => requestScan ch start count field sense value) s

end Sys2Proof.Machine
end

