-- ==== Sys2Proof/Machine/Time.lean ====
section
/-! DEFINITION. The passing of a millisecond (log 2, log 29) and the expiries that are due (log 19). -/

namespace Sys2Proof.Machine

/-- A timer a millisecond on. -/
def countDown (t : Option Nat) : Option Nat := t.map (· - 1)

/-- A frame's response timeout a millisecond on. -/
def TxFrame.tick (f : TxFrame) : TxFrame := { f with timeout := countDown f.timeout }

def Port.tick (q : Port) : Port := { q with recovery := countDown q.recovery, tx := q.tx.map TxFrame.tick }

def Busy.tick (b : Busy) : Busy := { b with timeout := b.timeout - 1 }

def Chan.tick (c : Chan) : Chan :=
  { c with gap := countDown c.gap, busyA := c.busyA.map Busy.tick, busyB := c.busyB.map Busy.tick }

def Ring.tick (r : Ring) : Ring :=
  { r with
    time := r.time + 1
    age := countDown r.age
    waitingService := r.waitingService.map TxFrame.tick
    waitingFleet := r.waitingFleet.map TxFrame.tick
    waitingStatus := r.waitingStatus.map TxFrame.tick
    queueA := r.queueA.map TxFrame.tick }

def ReaderTask.tick : ReaderTask → ReaderTask
  | .scan next remaining field sense value skipped timer => .scan next remaining field sense value skipped (timer - 1)
  | t => t

def Storage.tick (st : Storage) : Storage :=
  { st with
    bus := st.bus.map fun t => { t with timer := t.timer - 1 }
    readers := st.readers.map fun r => { r with task := r.task.tick } }

/-- One millisecond passes with the supply on: every running timer, the ring time and the model's count. -/
def Part.tick (p : Part) : Part :=
  { p with
    now := p.now + 1
    portA := p.portA.tick
    portB := p.portB.tick
    signals := p.signals.map fun s => { s with deadline := countDown s.deadline }
    detector := { p.detector with windowA := countDown p.detector.windowA, windowB := countDown p.detector.windowB }
    clutch := { p.clutch with timer := countDown p.clutch.timer }
    wear := { p.wear with timer := countDown p.wear.timer }
    register := { p.register with query := p.register.query.map fun q => { q with timer := q.timer - 1 } }
    ring := p.ring.tick
    capture := { p.capture with
      postTimeout := countDown p.capture.postTimeout, driveTimer := countDown p.capture.driveTimer }
    modeCtl := { p.modeCtl with
      debounce := countDown p.modeCtl.debounce
      quiet := countDown p.modeCtl.quiet
      clockPhase := p.modeCtl.clockPhase - 1 }
    link := { p.link with
      fleet := p.link.fleet.tick, service := p.link.service.tick, statusTimer := countDown p.link.statusTimer }
    storage := p.storage.tick }

/-- The timer has run out. -/
def runOut (t : Option Nat) : Bool := t == some 0

/-- The places where a frame's response timeout may run out (R178). -/
def timedPlaces : List FramePlace :=
  [.held .fleet .b, .held .service .b, .held .service .a, .waiting .fleet .b, .waiting .service .b,
    .waiting .service .a, .transmitter .a, .transmitter .b]

/-- The response timeout of the frame at a place has run out. -/
def Part.placeDue (p : Part) : FramePlace → Bool
  | .held ch port => ((p.chan ch).busyAt port).any fun b => b.timeout == 0
  | .waiting ch port => (p.ring.waitingOf ch port).any fun f => runOut f.timeout
  | .transmitter port => (p.port port).tx.any fun f => runOut f.timeout

/-- A command when its timer has run out. -/
def dueWhen (ranOut : Bool) (c : Instr) : List Instr := if ranOut then [c] else []

/-- The freshness deadlines that have run out, in signal order. -/
def Part.signalsDue (p : Part) : List Instr :=
  ((List.finRange 48).filter fun i => runOut (p.signal i.val).deadline).map Instr.freshnessDeadlineExpiry

/-- The scan timers that have run out. -/
def Part.scansDue (p : Part) : List Instr :=
  (p.storage.readers.filter fun r => runOut r.scanTimer).map fun r => Instr.scanTimerExpiry r.ch

/-- The expiries that are due, first to last (log 19). -/
def Part.dueCommands (p : Part) : List Instr :=
  List.flatten
    [dueWhen (p.storage.bus.any fun t => t.timer == 0) .storageAnswerTimeout,
      dueWhen (runOut p.portA.recovery) (.busOffRecoveryExpiry .a),
      dueWhen (runOut p.portB.recovery) (.busOffRecoveryExpiry .b),
      p.signalsDue,
      dueWhen (runOut p.detector.windowA) .windowAExpiry,
      dueWhen (runOut p.detector.windowB) .windowBExpiry,
      dueWhen (runOut p.ring.age) .ageDeadlineExpiry,
      dueWhen (p.register.query.any fun q => q.timer == 0) .replyTimeout,
      dueWhen (runOut p.link.fleet.gap) (.gapTimerExpiry .fleet),
      dueWhen (runOut p.link.service.gap) (.gapTimerExpiry .service),
      (timedPlaces.filter p.placeDue).map Instr.responseTimeout,
      p.scansDue,
      dueWhen (runOut p.capture.driveTimer) .captDriveTimerExpiry,
      dueWhen (runOut p.capture.postTimeout) .postTimeoutExpiry,
      dueWhen (runOut p.modeCtl.debounce) .ignDebounceExpiry,
      dueWhen (runOut p.clutch.timer) .evaluationExpiry,
      dueWhen (runOut p.wear.timer) .intervalExpiry,
      dueWhen (p.live && p.modeCtl.clockPhase == 0) .deviceClockTick,
      dueWhen (runOut p.link.statusTimer) .statusTimerExpiry,
      dueWhen (runOut p.modeCtl.quiet) .quietPeriodExpiry]

/-- What time does to the block when no command waits: the first expiry that is due, else a millisecond with the supply
on, else nothing. -/
def idleCommand (s : State) : Option Instr := if s.part.powered then s.part.dueCommands.head? else none

/-- The state a millisecond on. -/
def State.tick (s : State) : State := if s.part.powered then { s with part := s.part.tick } else s

end Sys2Proof.Machine
end

