-- ==== Sys2Proof/Machine/Dispatch.lean ====
section
/-! DEFINITION. The dispatch: one arm per command, each one direct call of its meaning. -/

namespace Sys2Proof.Machine

def exec (i : Instr) (s : State) : Host.Outcome State Fault Refusal :=
  match i with
  | .dataFrameReceived port frame svc => Sys2Proof.Machine.execDataFrameReceived port frame svc s
  | .damagedFrameReceived port => Sys2Proof.Machine.execDamagedFrameReceived port s
  | .remoteRequestFrame port => Sys2Proof.Machine.execRemoteRequestFrame port s
  | .transmissionFailed port => Sys2Proof.Machine.execTransmissionFailed port s
  | .transmissionSucceeded port => Sys2Proof.Machine.execTransmissionSucceeded port s
  | .busOffRecoveryExpiry port => Sys2Proof.Machine.execBusOffRecoveryExpiry port s
  | .freshnessDeadlineExpiry signal => Sys2Proof.Machine.execFreshnessDeadlineExpiry signal s
  | .windowAExpiry => Sys2Proof.Machine.execWindowAExpiry s
  | .windowBExpiry => Sys2Proof.Machine.execWindowBExpiry s
  | .intervalExpiry => Sys2Proof.Machine.execIntervalExpiry s
  | .evaluationExpiry => Sys2Proof.Machine.execEvaluationExpiry s
  | .ignLineChange level => Sys2Proof.Machine.execIgnLineChange level s
  | .ignDebounceExpiry => Sys2Proof.Machine.execIgnDebounceExpiry s
  | .quietPeriodExpiry => Sys2Proof.Machine.execQuietPeriodExpiry s
  | .deviceClockTick => Sys2Proof.Machine.execDeviceClockTick s
  | .captLineFall => Sys2Proof.Machine.execCaptLineFall s
  | .captDriveTimerExpiry => Sys2Proof.Machine.execCaptDriveTimerExpiry s
  | .postTimeoutExpiry => Sys2Proof.Machine.execPostTimeoutExpiry s
  | .ageDeadlineExpiry => Sys2Proof.Machine.execAgeDeadlineExpiry s
  | .replyTimeout => Sys2Proof.Machine.execReplyTimeout s
  | .gapTimerExpiry ch => Sys2Proof.Machine.execGapTimerExpiry ch s
  | .responseTimeout place => Sys2Proof.Machine.execResponseTimeout place s
  | .statusTimerExpiry => Sys2Proof.Machine.execStatusTimerExpiry s
  | .scanTimerExpiry ch => Sys2Proof.Machine.execScanTimerExpiry ch s
  | .unknownRequest src code args => Sys2Proof.Machine.execUnknownRequest src code args s
  | .readDecoderState src area first => Sys2Proof.Machine.execReadDecoderState src area first s
  | .setMode src target => Sys2Proof.Machine.execSetMode src target s
  | .writeTable src table item contents => Sys2Proof.Machine.execWriteTable src table item contents s
  | .readTable src table item => Sys2Proof.Machine.execReadTable src table item s
  | .setClock src value => Sys2Proof.Machine.execSetClock src value s
  | .readModeState src => Sys2Proof.Machine.execReadModeState src s
  | .restart src => Sys2Proof.Machine.execRestart src s
  | .clearAll src => Sys2Proof.Machine.execClearAll src s
  | .readLiveValues src => Sys2Proof.Machine.execReadLiveValues src s
  | .installComponent src args => Sys2Proof.Machine.execInstallComponent src args s
  | .removeComponent src slot => Sys2Proof.Machine.execRemoveComponent src slot s
  | .verifyNow src slot => Sys2Proof.Machine.execVerifyNow src slot s
  | .probe src args => Sys2Proof.Machine.execProbe src args s
  | .confirmChange src slot events time wear => Sys2Proof.Machine.execConfirmChange src slot events time wear s
  | .adoptIdentity src slot => Sys2Proof.Machine.execAdoptIdentity src slot s
  | .dismissMismatch src slot => Sys2Proof.Machine.execDismissMismatch src slot s
  | .readSlot src slot => Sys2Proof.Machine.execReadSlot src slot s
  | .readSpectrum src slot => Sys2Proof.Machine.execReadSpectrum src slot s
  | .openHire src contract => Sys2Proof.Machine.execOpenHire src contract s
  | .readOpenHire src => Sys2Proof.Machine.execReadOpenHire src s
  | .closeHire src => Sys2Proof.Machine.execCloseHire src s
  | .collectHire src => Sys2Proof.Machine.execCollectHire src s
  | .readForwardingCounters src => Sys2Proof.Machine.execReadForwardingCounters src s
  | .captureNow src pre post => Sys2Proof.Machine.execCaptureNow src pre post s
  | .lockCapture src number => Sys2Proof.Machine.execLockCapture src number s
  | .unlockCapture src number => Sys2Proof.Machine.execUnlockCapture src number s
  | .releaseCapture src number => Sys2Proof.Machine.execReleaseCapture src number s
  | .readDirectory src => Sys2Proof.Machine.execReadDirectory src s
  | .checkpointNow src => Sys2Proof.Machine.execCheckpointNow src s
  | .storageStatus src => Sys2Proof.Machine.execStorageStatus src s
  | .readConditions src => Sys2Proof.Machine.execReadConditions src s
  | .acknowledgeConditions src numbers => Sys2Proof.Machine.execAcknowledgeConditions src numbers s
  | .setConditionMask src mask => Sys2Proof.Machine.execSetConditionMask src mask s
  | .describe src => Sys2Proof.Machine.execDescribe src s
  | .readRecords src area number frameIndex count => Sys2Proof.Machine.execReadRecords src area number frameIndex count s
  | .scanArchive src start count field sense value => Sys2Proof.Machine.execScanArchive src start count field sense value s
  | .pageWriteComplete equal => Sys2Proof.Machine.execPageWriteComplete equal s
  | .pageReadComplete => Sys2Proof.Machine.execPageReadComplete s
  | .storageAnswerTimeout => Sys2Proof.Machine.execStorageAnswerTimeout s
  | .pfwAsserted => Sys2Proof.Machine.execPfwAsserted s
  | .pfwWithdrawn => Sys2Proof.Machine.execPfwWithdrawn s
  | .supplyLoss => Sys2Proof.Machine.execSupplyLoss s
  | .supplyOn => Sys2Proof.Machine.execSupplyOn s

end Sys2Proof.Machine
end

