-- ==== Sys2Proof/WellFormed.lean ====
section
/-! DEFINITION. Well-formed commands: operands that the buses and the message transfer can carry. -/

namespace Sys2Proof

/-- A message of these bytes can be sent: it has 1 to 1,024 of them (R173). -/
def messageFits (bytes : Nat) : Bool := decide (1 ≤ bytes) && decide (bytes ≤ 1024)

/-- A frame's place exists: Fleet frames pass on port B alone (10.1). -/
def framePlaceOk : FramePlace → Bool
  | .held ch port => !(ch == .fleet && port == .a)
  | .waiting ch port => !(ch == .fleet && port == .a)
  | .transmitter _ => true

/-- A command is well formed. Most operands are fixed by their widths; the checks are on frames (R1), on the place of a
timed-out frame, on an unknown code (R176), and on messages of varying length (R173). -/
def wellFormed : Instr → Bool
  | .dataFrameReceived _ frame _ => Machine.frameOk frame
  | .damagedFrameReceived _ => true
  | .remoteRequestFrame _ => true
  | .transmissionFailed _ => true
  | .transmissionSucceeded _ => true
  | .busOffRecoveryExpiry _ => true
  | .freshnessDeadlineExpiry _ => true
  | .windowAExpiry => true
  | .windowBExpiry => true
  | .intervalExpiry => true
  | .evaluationExpiry => true
  | .ignLineChange _ => true
  | .ignDebounceExpiry => true
  | .quietPeriodExpiry => true
  | .deviceClockTick => true
  | .captLineFall => true
  | .captDriveTimerExpiry => true
  | .postTimeoutExpiry => true
  | .ageDeadlineExpiry => true
  | .replyTimeout => true
  | .gapTimerExpiry _ => true
  | .responseTimeout place => framePlaceOk place
  | .statusTimerExpiry => true
  | .scanTimerExpiry _ => true
  | .unknownRequest _ code args =>
    (Machine.codeLength code.toNat).isNone && messageFits (1 + args.length)
  | .readDecoderState _ _ _ => true
  | .setMode _ _ => true
  | .writeTable _ _ _ contents => messageFits (3 + contents.length)
  | .readTable _ _ _ => true
  | .setClock _ _ => true
  | .readModeState _ => true
  | .restart _ => true
  | .clearAll _ => true
  | .readLiveValues _ => true
  | .installComponent _ _ => true
  | .removeComponent _ _ => true
  | .verifyNow _ _ => true
  | .probe _ _ => true
  | .confirmChange _ _ _ _ _ => true
  | .adoptIdentity _ _ => true
  | .dismissMismatch _ _ => true
  | .readSlot _ _ => true
  | .readSpectrum _ _ => true
  | .openHire _ _ => true
  | .readOpenHire _ => true
  | .closeHire _ => true
  | .collectHire _ => true
  | .readForwardingCounters _ => true
  | .captureNow _ _ _ => true
  | .lockCapture _ _ => true
  | .unlockCapture _ _ => true
  | .releaseCapture _ _ => true
  | .readDirectory _ => true
  | .checkpointNow _ => true
  | .storageStatus _ => true
  | .readConditions _ => true
  | .acknowledgeConditions _ numbers => messageFits (1 + numbers.length)
  | .setConditionMask _ _ => true
  | .describe _ => true
  | .readRecords _ _ _ _ _ => true
  | .scanArchive _ _ _ _ _ _ => true
  | .pageWriteComplete _ => true
  | .pageReadComplete => true
  | .storageAnswerTimeout => true
  | .pfwAsserted => true
  | .pfwWithdrawn => true
  | .supplyLoss => true
  | .supplyOn => true

end Sys2Proof
end

