-- ==== Sys2Proof/Safety.lean ====
section
/-! DEFINITION. The terms that claims about the part are made in: the whole message of a request command, a response on
its way out, what lasts through the settling that follows every event, and the invariants. -/

namespace Sys2Proof.Machine

/-! ## Requests as messages -/

/-- The source and the whole message of a request command (R173, R191); none for the other commands. -/
def requestOf : Instr → Option (Source × List Byte)
  | .unknownRequest src code args => some (src, code :: args)
  | .readDecoderState src area first => some (src, [0x07, area, first])
  | .setMode src target => some (src, [0x03, target])
  | .writeTable src table item contents => some (src, [0x08, table, item] ++ contents)
  | .readTable src table item => some (src, [0x09, table, item])
  | .setClock src value => some (src, [0x04] ++ beBytes 4 value.toNat)
  | .readModeState src => some (src, [0x02])
  | .restart src => some (src, [0x05])
  | .clearAll src => some (src, [0x06])
  | .readLiveValues src => some (src, [0x10])
  | .installComponent src args => some (src, [0x13] ++ installBytes args)
  | .removeComponent src slot => some (src, [0x14, slot])
  | .verifyNow src slot => some (src, [0x18, slot])
  | .probe src args => some (src, [0x19] ++ probeBytes args)
  | .confirmChange src slot events time wear =>
    some (src, [0x15, slot] ++ beBytes 4 events.toNat ++ beBytes 4 time.toNat ++ beBytes 4 wear.toNat)
  | .adoptIdentity src slot => some (src, [0x16, slot])
  | .dismissMismatch src slot => some (src, [0x17, slot])
  | .readSlot src slot => some (src, [0x11, slot])
  | .readSpectrum src slot => some (src, [0x12, slot])
  | .openHire src contract => some (src, [0x20] ++ beBytes 4 contract.toNat)
  | .readOpenHire src => some (src, [0x22])
  | .closeHire src => some (src, [0x21])
  | .collectHire src => some (src, [0x23])
  | .readForwardingCounters src => some (src, [0x28])
  | .captureNow src pre post => some (src, [0x30] ++ beBytes 2 pre.toNat ++ beBytes 2 post.toNat)
  | .lockCapture src number => some (src, [0x31] ++ beBytes 4 number.toNat)
  | .unlockCapture src number => some (src, [0x32] ++ beBytes 4 number.toNat)
  | .releaseCapture src number => some (src, [0x33] ++ beBytes 4 number.toNat)
  | .readDirectory src => some (src, [0x34])
  | .checkpointNow src => some (src, [0x38])
  | .storageStatus src => some (src, [0x39])
  | .readConditions src => some (src, [0x48])
  | .acknowledgeConditions src numbers => some (src, [0x49] ++ numbers)
  | .setConditionMask src mask => some (src, [0x4A] ++ beBytes 2 mask.toNat)
  | .describe src => some (src, [0x01])
  | .readRecords src area number frameIndex count =>
    some (src, [0x40, area] ++ beBytes 4 number.toNat ++ beBytes 2 frameIndex.toNat ++ beBytes 2 count.toNat)
  | .scanArchive src start count field sense value =>
    some (src, [0x41] ++ beBytes 4 start.toNat ++ beBytes 2 count.toNat ++ [field, sense] ++ beBytes 4 value.toNat)
  | .dataFrameReceived _ _ _ => none
  | .damagedFrameReceived _ => none
  | .remoteRequestFrame _ => none
  | .transmissionFailed _ => none
  | .transmissionSucceeded _ => none
  | .busOffRecoveryExpiry _ => none
  | .freshnessDeadlineExpiry _ => none
  | .windowAExpiry => none
  | .windowBExpiry => none
  | .intervalExpiry => none
  | .evaluationExpiry => none
  | .ignLineChange _ => none
  | .ignDebounceExpiry => none
  | .quietPeriodExpiry => none
  | .deviceClockTick => none
  | .captLineFall => none
  | .captDriveTimerExpiry => none
  | .postTimeoutExpiry => none
  | .ageDeadlineExpiry => none
  | .replyTimeout => none
  | .gapTimerExpiry _ => none
  | .responseTimeout _ => none
  | .statusTimerExpiry => none
  | .scanTimerExpiry _ => none
  | .pageWriteComplete _ => none
  | .pageReadComplete => none
  | .storageAnswerTimeout => none
  | .pfwAsserted => none
  | .pfwWithdrawn => none
  | .supplyLoss => none
  | .supplyOn => none

/-! ## Responses on their way out (R178) -/

/-- Every frame that stands in a transmitter or waits for one. -/
def Part.placedFrames (p : Part) : List TxFrame :=
  p.portA.tx.toList ++ p.portB.tx.toList ++ p.ring.waitingService.toList ++ p.ring.waitingFleet.toList ++
    p.ring.waitingStatus.toList ++ p.ring.queueA

/-- A frame is a response frame of a channel. -/
def TxFrame.respondsFor (ch : Channel) (f : TxFrame) : Bool := f.source == .response ch

/-- The data bytes of a channel's response frames that have not left: those placed, then those not yet offered. -/
def Part.outgoing (p : Part) (ch : Channel) : List (List Byte) :=
  ((p.placedFrames.filter (TxFrame.respondsFor ch)).map fun f => f.frame.data) ++ (p.chan ch).outbox

/-- A channel is RESPONDING with a message, none of whose frames has left. -/
abbrev Part.responds (p : Part) (ch : Channel) (msg : List Byte) : Prop :=
  (p.chan ch).state = .responding ∧ p.outgoing ch = segments msg

/-! ## The moment of admission (R176) -/

/-- The part as the admission of a message from a source finds it: the SVC line sampled, the wake cause noted, the channel
PROCESSING. -/
def Part.taken (src : Source) (p : Part) : Part :=
  (noteWakeCause (sampleSource src p)).mapChan (sourceChannel src) (Chan.accept (sourceChannel src) (sourcePort src))

/-- A whole message from a source is taken: the part is running and AWAKE, the port is not in BUS_OFF, the channel is IDLE
with nothing of it under way. -/
abbrev Ready (src : Source) (s : State) : Prop :=
  s.part.awake = true ∧ (s.part.port (sourcePort src)).state ≠ .busOff ∧
    (s.part.chan (sourceChannel src)).state = .idle ∧ s.part.outgoing (sourceChannel src) = [] ∧
    ∀ r ∈ s.part.storage.readers, r.ch ≠ sourceChannel src

/-- The source is on the Fleet channel, or on the Service channel with the SVC line on (R176). -/
def permitted : Source → Bool
  | .fleet => true
  | .service _ svc => svc

/-- A length of contents that Write Table's code allows: its table's item length, and for a table number above 6 what
keeps the message at 5 to 135 bytes (R176, R191). -/
def itemFits (table : Byte) (contents : List Byte) : Bool :=
  if table.toNat ≤ 6 then contents.length == itemLength table.toNat
  else decide (2 ≤ contents.length) && decide (contents.length ≤ 132)

/-- The source is the Service channel with the SVC line on. -/
def serviceOn : Source → Bool
  | .fleet => false
  | .service _ svc => svc

/-! ## What lasts through the settling after an event -/

/-- The ring without what the Forwarder and the transmitters move: sent flags, pointer, age deadline, the count of expired
records, and waiting frames. -/
def Ring.lasting (r : Ring) : Ring :=
  { r with
    records := r.records.map fun x => { x with sent := false }
    pointer := 0, age := none, expired := 0, waitingService := none, waitingFleet := none, waitingStatus := none,
    queueA := [] }

/-- A channel's four counts. -/
def Chan.lasting (c : Chan) : Chan :=
  { abandoned := c.abandoned, badSegments := c.badSegments, busyAnswers := c.busyAnswers,
    abandonedResponses := c.abandonedResponses }

/-- An archive job without CLEAR ALL's page list, which its first grant draws up. -/
def ArchiveJob.lasting : ArchiveJob → ArchiveJob
  | .invalidate _ => .invalidate none
  | j => j

/-- The storage controller without the bus, the checkpoints' progress and placement, and the readers. -/
def Storage.lasting (st : Storage) : Storage :=
  { st with
    bus := none, full := {}, short := { st.short with state := .idle }, archive := st.archive.map ArchiveJob.lasting,
    readers := [], nextSequence := 0, writePosition := 0 }

/-- The part without what the arbiters, the Probe Unit, the Forwarder, the transmitters and the quiet timer move by
themselves after every event (R67, R125, R128, R130, R155), and without the level of the SVC line. -/
def Part.lasting (p : Part) : Part :=
  { p with
    lines := { p.lines with svc := false }
    portA := { p.portA with tx := none }
    portB := { p.portB with tx := none }
    register := { p.register with pollQueue := [], inHand := none, waitingProbe := none, query := none }
    ring := p.ring.lasting
    modeCtl := { p.modeCtl with quiet := none, sleepWait := none }
    link := { p.link with fleet := p.link.fleet.lasting, service := p.link.service.lasting }
    storage := p.storage.lasting }

/-- A full checkpoint is waiting or being written. -/
def Part.checkpointing (p : Part) : Bool := p.storage.full.state != .idle

/-- Those who wait for a full checkpoint, the one in hand or the next (R158). -/
def Part.awaitsCheckpoint (p : Part) (w : Waiter) : Bool :=
  p.checkpointing && (p.storage.full.waiters ++ p.storage.full.nextWaiters).contains w

/-- A command completes on its channel: it answers a next state in which the channel responds with a message, what lasts
is that of the part given, something more may hold, and neither the medium nor the queue has changed. -/
def Answers (i : Instr) (src : Source) (s : State) (msg : List Byte) (p : Part) (also : Part → Prop := fun _ => True) :
    Prop :=
  ∃ t, exec i s = .next t ∧ t.part.responds (sourceChannel src) msg ∧ t.part.lasting = p.lasting ∧ also t.part ∧
    t.medium = s.medium ∧ t.pending = s.pending

/-- A command completes on its channel with its request in progress: the channel is PROCESSING in the next state, what lasts
is that of the part given, something more may hold, and neither the medium nor the queue has changed. -/
def Processes (i : Instr) (src : Source) (s : State) (p : Part) (also : Part → Prop := fun _ => True) : Prop :=
  ∃ t, exec i s = .next t ∧ (t.part.chan (sourceChannel src)).state = .processing ∧ t.part.lasting = p.lasting ∧
    also t.part ∧ t.medium = s.medium ∧ t.pending = s.pending

/-- A command completes: it answers a next state in which what lasts is that of the part given, and neither the medium nor
the queue has changed. -/
def Leaves (i : Instr) (s : State) (p : Part) (also : Part → Prop) : Prop :=
  ∃ t, exec i s = .next t ∧ t.part.lasting = p.lasting ∧ also t.part ∧ t.medium = s.medium ∧ t.pending = s.pending

/-- A storage event completes: it answers a next state with the medium given, in which what lasts is that of the part given
and something more may hold; the queue has not changed. -/
def Stores (i : Instr) (s : State) (m : Medium) (p : Part) (also : Part → Prop := fun _ => True) : Prop :=
  ∃ t, exec i s = .next t ∧ t.part.lasting = p.lasting ∧ also t.part ∧ t.medium = m ∧ t.pending = s.pending

/-- A page write of an owner is in progress on the bus of an AWAKE part (R153). -/
abbrev Writing (s : State) (t : Transaction) (o : Owner) : Prop :=
  s.part.awake = true ∧ s.part.storage.bus = some t ∧ t.write.isSome = true ∧ t.page < pageCount ∧ t.owner = o

/-- The medium with the page of a transaction written. -/
def Medium.written (m : Medium) (t : Transaction) : Medium := m.writePage t.page (t.write.getD [])

/-- The part with a verified page write counted (R153). -/
def Part.pageWritten (p : Part) : Part :=
  { p with storage := { p.storage with writes := min 4294967295 (p.storage.writes + 1), fault := false } }

/-- The part with a failed transaction counted (R153). -/
def Part.pageFailed (p : Part) : Part :=
  { p with storage := { p.storage with failures := min 4294967295 (p.storage.failures + 1), fault := true } }

/-- The second failure of a page write, by a read-back that differs or by silence: the page is invalid, and what lasts is
that of the part given (R153). -/
def StoresFailed (s : State) (t : Transaction) (p : Part) (also : Part → Prop := fun _ => True) : Prop :=
  Stores (.pageWriteComplete false) s (s.medium.spoilPage t.page) p also ∧
    Stores .storageAnswerTimeout s (s.medium.spoilPage t.page) p also

/-- A channel may take a response: no frame of an earlier one is on its way out and no reader works for it. -/
abbrev Part.clearFor (p : Part) (ch : Channel) : Prop := p.outgoing ch = [] ∧ ∀ r ∈ p.storage.readers, r.ch ≠ ch

/-- The channel that a waiter of a full checkpoint keeps PROCESSING (R158). -/
def waiterOn (ch : Channel) : Waiter → Bool
  | .sleep => false
  | .restart => ch == .service
  | .clearAll => ch == .service
  | .checkpointNow c => c == ch

/-- The answer to a waiter of a full checkpoint that completed with its sequence and position, or failed (R39, R40, R169). -/
def waiterAnswer (ended : Option (Nat × Nat)) : Waiter → List Byte
  | .sleep => []
  | .restart => [0x05, if ended.isSome then 0x00 else 0x28]
  | .clearAll => [0x06, if ended.isSome then 0x00 else 0x28]
  | .checkpointNow _ =>
    match ended with
    | some (sequence, position) => [0x38, 0x00] ++ beBytes 4 sequence ++ beBytes 2 position
    | none => [0x38, 0x28]

/-- Every channel that one waiter of a list keeps PROCESSING responds with that waiter's answer (R158). -/
def Part.answered (waiters : List Waiter) (ended : Option (Nat × Nat)) (old new : Part) : Prop :=
  ∀ ch w, waiters.filter (waiterOn ch) = [w] → old.clearFor ch → new.responds ch (waiterAnswer ended w)

/-- The transaction of a page at its first attempt (R153). -/
def firstAttempt (owner : Owner) (page : Nat) (write : Option (List Byte)) : Transaction :=
  { owner, page, write, attempt := 1, timer := 20 }

/-- The page of the reader at the head is being read on the bus of an AWAKE part, no other reader and no response frame
standing on its channel (R153, R156). -/
abbrev ReadingFor (s : State) (t : Transaction) (r : Reader) (rest : List Reader) : Prop :=
  s.part.awake = true ∧ s.part.storage.bus = some t ∧ t.write = none ∧ t.page < pageCount ∧ t.owner = .reader r.ch ∧
    s.part.storage.readers = r :: rest ∧ (∀ x ∈ rest, x.ch ≠ r.ch) ∧ s.part.outgoing r.ch = []

/-- The answered page read ends its request: the channel responds with a message, what lasts is that of the part given. -/
def ReadAnswers (s : State) (r : Reader) (p : Part) (msg : List Byte) : Prop :=
  Leaves .pageReadComplete s p fun u => u.responds r.ch msg

/-- The answered page read is followed by another read of the same request, behind those of other channels (R156). -/
def ReadsNext (s : State) (r : Reader) (p : Part) (task : ReaderTask) : Prop :=
  Leaves .pageReadComplete s p fun u =>
    { ch := r.ch, task, page := 0, buffer := [], spoiled := false } ∈ u.storage.readers

/-- The request goes on with a task as the part stands: what of it needs a read is read next, what needs none is answered
(R186, R187, R188). -/
def ReadGoesOn (s : State) (r : Reader) (p : Part) (task : ReaderTask) : Prop :=
  (∀ next, p.readerNext task = .read next → ReadsNext s r p next) ∧
    ∀ msg, p.readerNext task = .done msg → ReadAnswers s r p msg

/-- A restore waits for the answer to the read of its item (R163). -/
abbrev Restoring (s : State) (r : Restore) (t : Transaction) : Prop :=
  s.part.powered = true ∧ s.part.restore = some r ∧ s.part.storage.bus = some t ∧ t.owner = .restore ∧ t.write = none ∧
    t.page < pageCount

/-- A restore goes on: it reads the first or next page of the item given, the part otherwise as given and the medium and the
queue as they were (R163). -/
def ReadsOn (i : Instr) (s : State) (p : Part) (r : Restore) : Prop :=
  exec i s =
    .next { s with
      part := { p with
        restore := some r
        storage := { p.storage with
          bus := some (firstAttempt .restore (r.item.page p.register.nextArchive p.hire.newest) none) } } }

/-- The pages that bytes fill, written one after another. -/
def Medium.writePages (m : Medium) (page : Nat) (bytes : List Byte) (count : Nat) : Medium :=
  (List.range count).foldl (fun m k => m.writePage (page + k) (pageOf k bytes)) m

/-- Every figure of a slot lies in its range (R57, R88, R89). -/
def Component.ranged (c : Component) : Bool :=
  decide (c.events ≤ max32) && decide (c.time ≤ max32) && decide (c.unbinned ≤ max32) && decide (c.unobserved ≤ max32) &&
    decide (c.units ≤ wearLimit) && decide (c.residue < wearUnit) && c.cells.toList.all fun n => decide (n ≤ max32)

/-- Every figure of a held pool lies in its range (R60, R88). -/
def Pool.ranged (q : Pool) : Bool :=
  decide (q.events ≤ max32) && decide (q.time ≤ max32) && decide (q.unobserved ≤ max32) && decide (q.units ≤ wearLimit) &&
    decide (q.residue < wearUnit)

/-- Every figure of a usage entry lies in its range (R88, R103). -/
def Usage.ranged (u : Usage) : Bool :=
  decide (u.events ≤ max32) && decide (u.time ≤ max32) && decide (u.unobserved ≤ max32) && decide (u.units ≤ wearLimit) &&
    decide (u.residue < wearUnit)

/-- A slot's record is sound: its figures and its pool lie in their ranges (R88), and the spectrum's sum plus unbinned is the
time or the events figure unless it is SATURATED (R89). -/
def Component.sound (c : Component) : Bool :=
  c.ranged && c.hold.all (fun h => h.pool.ranged) &&
    (c.saturated || c.cellSum + c.unbinned == c.kind.share c.events c.time)

/-- The part with its lines changed. -/
def Part.setLines (p : Part) (lines : Lines) : Part := { p with lines }

/-! ## Invariants -/

/-- A frame that port A may send: a response or BUSY answer of the Service channel, or a query of the Probe Unit (R130). -/
def TxFrame.ownA (f : TxFrame) : Bool :=
  match f.source with
  | .response ch => ch == .service
  | .busy ch => ch == .service
  | .probe => true
  | .orphan => true
  | .status => false
  | .forward => false

/-- Everything at port A's transmitter and in its queue is the part's own (R5, R130). -/
abbrev Part.portAOwn (p : Part) : Prop := ∀ f ∈ p.portA.tx.toList ++ p.ring.queueA, f.ownA = true

/-- Every slot is sound, and every usage entry of the open and of the closing hire lies in its ranges (R88, R89). -/
def Part.countsSound (p : Part) : Bool :=
  p.register.slots.toList.all (fun s => s.all Component.sound) &&
    (p.hire.current.toList ++ p.hire.closing.toList).all fun h => h.usage.all Usage.ranged


end Sys2Proof.Machine
end

