-- ==== Sys2Proof/Certificates/Slice0/Obligations.lean ====
section
/-! DEFINITION. The statements about the EGF-416 that the provers are asked for. -/

open Sys2Proof
open Sys2Proof.Machine

/-! ## The step, the reset and the invariants -/

/-- A step takes the command at the front of the queue: it is that command's meaning on the state with the rest. -/
def Obligations.StepRunsFrontCommand : Prop :=
  ∀ (c : Instr) (s : State), step { s with pending := c :: s.pending } = exec c s

/-- On an empty queue the first expiry that is due is carried out, else a millisecond passes, else (supply off) nothing
happens. DESIGN CHOICE of the model (log 2). -/
def Obligations.IdleStepPassesTime : Prop :=
  ∀ s : State, s.pending = [] →
    (s.part.powered = false → step s = .next s) ∧
      (s.part.powered = true → s.part.dueCommands = [] → step s = .next { s with part := s.part.tick }) ∧
      ∀ c rest, s.part.powered = true → s.part.dueCommands = c :: rest → step s = exec c s

/-- What the restore of a new part at supply-on leaves (R33, R163, R167, R168; a new part: log 1), the invariants
holding. -/
def Obligations.ResetLeavesNewPart : Prop :=
  let p := State.reset.part
  State.reset.pending = [] ∧ State.reset.medium.cells = [] ∧ p.powered = true ∧ p.restore = none ∧
    p.modeCtl.mode = .setup ∧ p.modeCtl.active = TableSet.empty ∧ p.modeCtl.pendingSet = TableSet.empty ∧
    p.modeCtl.passAll = true ∧ p.modeCtl.asleep = false ∧ p.modeCtl.sync = false ∧ p.modeCtl.ignition = false ∧
    p.detector.engine = .stopped ∧ p.link.mask = 0 ∧ p.conditions = [2, 10] ∧
    (∀ i : Fin 48, p.signals[i].status = .neverSeen) ∧ (∀ r : Fin 10, p.roles[r].source = .none) ∧
    (∀ n : Fin 12, p.slot n = none) ∧ p.hire.current = none ∧ p.hire.queue = [] ∧ p.hire.nextNumber = 1 ∧
    p.register.nextArchive = 1 ∧ p.ring.records = [] ∧ (∀ e : Fin 8, p.capture.entry e = none) ∧
    p.capture.nextNumber = 1 ∧ p.storage.writePosition = 0 ∧ p.storage.newest = none ∧
    p.storage.full.state = .waiting ∧ p.storage.full.cause = .restore ∧ State.reset.medium.wf ∧ p.portAOwn ∧ p.countsSound = true

/-- Every step keeps the medium in its canonical form: no cell beyond its 4,096 pages, none listed twice (R152). -/
def Obligations.StepKeepsMediumCanonical : Prop :=
  ∀ s t : State, s.medium.wf → step s = .next t → t.medium.wf

/-- Every step keeps it so that port A's transmitter and queue hold only the part's own frames: Service responses, BUSY
answers of the Service channel and queries (R130); no frame received on port B reaches port A (R5). -/
def Obligations.StepKeepsPortAOwn : Prop :=
  ∀ s t : State, s.part.portAOwn → step s = .next t → t.part.portAOwn

/-- Every step of a part that is not restoring keeps every slot sound: each figure and pool figure in its range (R88),
and the sum of the 64 cells plus unbinned equal to the time figure (continuous kinds) or the events figure (event kinds)
unless the slot is SATURATED (R89); and the usage entries of the open and the closing hire in their ranges (R88). A
restore takes its slots from the medium, whose pages may hold anything (R163); after it this holds from step to step
again. -/
def Obligations.StepKeepsCountsSound : Prop :=
  ∀ s t : State, s.part.restore = none → s.part.countsSound = true → step s = .next t → t.part.countsSound = true

/-! ## Messages, table items, records -/

/-- Every request command is what its message's bytes say: dispatching the message by its code and layout (R191) runs
that very request. -/
def Obligations.RequestMessagesAreTheirRequests : Prop :=
  ∀ (i : Instr) (src : Source) (msg : List Byte) (s : State), wellFormed i = true → requestOf i = some (src, msg) →
    exec i s = .next (s.after (presentMessage src msg (fun ch => dispatch ch msg) s.part))

/-- A message of 1 to 1,024 bytes, cut into segments and received segment by segment on one port by an IDLE channel, is
taken whole: the channel is PROCESSING and the request is carried out on exactly those bytes (R173, R174). -/
def Obligations.SegmentsReassemble : Prop :=
  ∀ (ch : Channel) (port : PortId) (msg : List Byte) (p : Part), 1 ≤ msg.length → msg.length ≤ 1024 →
    (p.chan ch).state = .idle →
    (segments msg).foldl (fun q data => takeSegment ch port (readSegment data) q) p =
      dispatch ch msg (p.mapChan ch (Chan.accept ch port))

/-- A request that fits a SINGLE and comes as a data frame on its request identifier does what the request command does,
and the frame is counted (R1, R172, R173). The frame may carry more bytes after the message's. -/
def Obligations.SingleFrameIsItsRequest : Prop :=
  ∀ (i : Instr) (src : Source) (msg rest : List Byte) (svc : Bool) (s : State), wellFormed i = true →
    requestOf i = some (src, msg) → (msg ++ rest).length ≤ 7 → s.part.receives (sourcePort src) = true →
    (src = .fleet → s.part.lines.svc = svc) → (∀ port level, src = .service port level → level = svc) →
    (sourcePort src = .a → s.part.register.query = none) →
    exec
        (.dataFrameReceived (sourcePort src)
          { format := .base
            ident := match sourceChannel src with
              | .fleet => 0x6E0
              | .service => 0x6F0
            data := BitVec.ofNat 8 msg.length :: (msg ++ rest) } svc) s =
      exec i { s with part := countReceived (sourcePort src) s.part }

/-- Writing back a table item as Read Table gives it changes nothing: the item's bytes (R192) carry all of it and lie in
their ranges (R29). -/
def Obligations.TableItemsReadBack : Prop :=
  ∀ (t u : TableSet) (table item : Nat) (bytes : List Byte), table ≤ 6 → item < itemCount table →
    bytes.length = itemLength table → t.withItem table item bytes = .ok u →
    (u.itemBytes table item).length = itemLength table ∧ u.withItem table item (u.itemBytes table item) = .ok u ∧
      (2 ≤ table → u.itemBytes table item = bytes)

/-- A checkpoint whose pages are all written is found by the restore's scan at its position, and its payload reads back
(R152, R159, R163; byte layout: log 8). -/
def Obligations.WrittenCheckpointIsFound : Prop :=
  ∀ (m : Medium) (kind count position sequence cause : Nat) (payload : List Byte), m.wf →
    (kind = kindFull ∧ count = fullPages) ∨ (kind = kindShort ∧ count = shortPages) → position + count ≤ ringPages →
    sequence ≤ max32 → cause ≤ 255 → payload.length ≤ 248 + 251 * (count - 1) - 4 →
    let m' := m.writePages (ringPage position) (checkpointBytes kind sequence count cause payload) count
    m'.checkpointAt position = some (sequence, kind, count) ∧
      (checkpointPayload count (m'.pages (ringPage position) count)).take payload.length = payload

/-! ## Ports (R1, R2, R5, R6, R172) -/

/-- Frames that are counted and go no further. A damaged frame raises the receive error count of a receiving port by 1
and a remote-request frame its received count; each changes nothing else, and a port that does not receive counts
nothing (R1). A data frame that matches no Frame Table entry raises its port's received and unmatched counts by 1 (R1,
R6). A management frame that is no request on its port raises the received and the foreign count: the identifiers of the
part's own responses and of the status frame on either port, and the Fleet request identifier on port A (R1, R172). -/
def Obligations.FramesThatGoNoFurther : Prop :=
  (∀ (port : PortId) (s : State),
    let q := s.part.port port
    (s.part.receives port = true →
        exec (.damagedFrameReceived port) s =
            .next { s with part := s.part.setPort port { q with receiveErrors := min 65535 (q.receiveErrors + 1) } } ∧
          exec (.remoteRequestFrame port) s =
            .next { s with part := s.part.setPort port { q with received := min 4294967295 (q.received + 1) } }) ∧
      (s.part.receives port = false →
        exec (.damagedFrameReceived port) s = .next s ∧ exec (.remoteRequestFrame port) s = .next s)) ∧
  (∀ (port : PortId) (f : Frame) (svc : Bool) (s : State), frameOk f = true → s.part.awake = true →
    (s.part.port port).state ≠ .busOff → (port = .a → s.part.register.query = none) →
    (isReserved f.format f.ident.toNat = false → s.part.modeCtl.passAll = false →
        s.part.modeCtl.active.findFrame port f = none →
        Leaves (.dataFrameReceived port f svc) s (countUnmatched port (countReceived port s.part)) fun t =>
          (t.port port).received = min 4294967295 ((s.part.port port).received + 1) ∧
            (port = .a → t.matcher.unmatchedA = min 4294967295 (s.part.matcher.unmatchedA + 1) ∧
              t.matcher.unmatchedB = s.part.matcher.unmatchedB) ∧
            (port = .b → t.matcher.unmatchedB = min 4294967295 (s.part.matcher.unmatchedB + 1) ∧
              t.matcher.unmatchedA = s.part.matcher.unmatchedA)) ∧
      (f.format = .base → (f.ident = 0x6E8 ∨ f.ident = 0x6E9 ∨ f.ident = 0x6F8 ∨ (f.ident = 0x6E0 ∧ port = .a)) →
        Leaves (.dataFrameReceived port f svc) s
          { countReceived port s.part with
            link := { s.part.link with foreign := min 65535 (s.part.link.foreign + 1) } }
          fun _ => True))

/-- Under pass-all a port-A frame that reaches the matcher is recorded in the Traffic Ring at the next sequence with the
ring time and its forward flag set, the oldest record of a full ring leaving and no other record changing but in its
sent flag; it is not decoded and not counted as unmatched (R6, R122). A frame that matches a Frame Table entry raises
the entry's count; on port A it is recorded with the entry's forward flag, on port B not at all (R5). Every signal cut
from it is judged: USABLE makes it FRESH with its value and a new deadline, any other quality raises its non-usable
count and leaves the rest (R11, R13), and no other signal changes. A role takes the event of its one source in the frame
as R16's table says, one with no source in the frame stays; with both sources in the frame and none selected, the lower
signal index decides (R14, R16). A record that replaces the waiting record at the pointer is an overrun: the overrun
count rises by 1, FORWARD_OVERRUN holds, and the pointer, with a new age deadline, moves to the next waiting record or
to the next sequence (R123, R132); any other record leaves count and condition. A port-A frame of the awaited format and
identifier after a query's frame has left is the reply, the first that comes; it ends the query, and is then received as
any frame (R67). A probe is answered with it, one result behind one flag byte (R72, R190; log 12). A reply that carries
6 bytes from the offset makes a COUNTING slot VERIFIED when they equal its serial, and HELD with an empty pool,
UNVERIFIED, with IDENTITY_MISMATCH, when they differ; a HELD slot takes the serial as reported; each clears the silent
count. A shorter one counts as no answer (R68); that the next attempt's number stands from then on, also while a probe
is served first, is the model's choice (log 12). A reply to an abandoned verification changes no slot (R69). -/
def Obligations.FramesAreRecordedAndDecoded : Prop :=
  (∀ (f : Frame) (svc : Bool) (s : State), frameOk f = true → s.part.awake = true → s.part.portA.state ≠ .busOff →
    isReserved f.format f.ident.toNat = false → s.part.modeCtl.passAll = true → s.part.register.query = none →
    let r := s.part.ring
    let unsent := fun x : RingRecord => { x with sent := false }
    ∃ t, exec (.dataFrameReceived .a f svc) s = .next t ∧
      t.part.ring.next = r.next + 1 ∧
      t.part.ring.records.map unsent =
        ((if r.records.length < 4096 then r.records else r.records.drop 1).map unsent) ++
          [{ sequence := r.next, arrival := r.time, frame := f, forward := true, sent := false, receivedAt := s.part.now }] ∧
      t.part.matcher = s.part.matcher ∧ t.part.signals = s.part.signals ∧ t.part.roles = s.part.roles ∧
      t.part.detector = s.part.detector ∧ t.part.register.slots = s.part.register.slots ∧ t.part.hire = s.part.hire ∧
      t.part.portA.received = min 4294967295 (s.part.portA.received + 1) ∧ t.medium = s.medium ∧ t.pending = s.pending) ∧
  (∀ (port : PortId) (f : Frame) (svc : Bool) (s : State) (i : Nat) (e : FrameEntry), frameOk f = true →
    s.part.awake = true → (s.part.port port).state ≠ .busOff → isReserved f.format f.ident.toNat = false →
    s.part.modeCtl.passAll = false → (port = .a → s.part.register.query = none) →
    s.part.modeCtl.active.findFrame port f = some i → s.part.modeCtl.active.frame i = some e →
    let p := s.part
    let r := p.ring
    let set := p.modeCtl.active
    let cut := fun j : Nat => (set.signal j).any fun x => x.frame == i
    let unsent := fun x : RingRecord => { x with sent := false }
    ∃ t, exec (.dataFrameReceived port f svc) s = .next t ∧ t.medium = s.medium ∧ t.pending = s.pending ∧
      (t.part.port port).received = min 4294967295 ((p.port port).received + 1) ∧
      t.part.matcher =
        { p.matcher with
          counts := p.matcher.counts.setIfInBounds i (min 4294967295 (p.matcher.counts[i]?.getD 0 + 1)) } ∧
      (port = .a → t.part.ring.next = r.next + 1 ∧
        t.part.ring.records.map unsent =
          ((if r.records.length < 4096 then r.records else r.records.drop 1).map unsent) ++
            [{ sequence := r.next, arrival := r.time, frame := f, forward := e.forward, sent := false, receivedAt := p.now }]) ∧
      (port = .b → t.part.ring.next = r.next ∧ t.part.ring.records.map unsent = r.records.map unsent) ∧
      (∀ j : Fin 48,
        (cut j.val = false → t.part.signals[j] = p.signals[j]) ∧
          ∀ x, set.signal j.val = some x → x.frame = i →
            let q := judgeSample x f.data
            t.part.signals[j] =
              if q.1 = .usable then
                { p.signals[j] with
                  status := .fresh, value := some q.2, quality := some .usable, deadline := some (4 * e.period) }
              else { p.signals[j] with quality := some q.1, nonUsable := min 65535 (p.signals[j].nonUsable + 1) }) ∧
      ∀ k : Fin 10,
        let entry := set.roles[k]
        let role := p.roles[k]
        ((∀ j, entry.primary = some j → cut j = false) → (∀ j, entry.backup = some j → cut j = false) →
            t.part.roles[k] = role) ∧
          (∀ j x, entry.primary = some j → set.signal j = some x → x.frame = i →
            (∀ b, entry.backup = some b → b = j ∨ cut b = false) →
            let q := judgeSample x f.data
            (q.1 = .usable → role.source = .backup → role.returns + 1 ≠ 3 →
                t.part.roles[k] = { role with returns := role.returns + 1 }) ∧
              (q.1 = .usable → (role.source = .backup ∧ role.returns + 1 = 3) ∨ role.source = .none →
                t.part.roles[k] = { source := .primary, value := some q.2, returns := 0 }) ∧
              (q.1 = .usable → role.source = .primary → t.part.roles[k] = { role with value := some q.2 }) ∧
              (q.1 ≠ .usable →
                t.part.roles[k] = if role.source = .backup then { role with returns := 0 } else role)) ∧
          (∀ b x, entry.backup = some b → set.signal b = some x → x.frame = i →
            (∀ j, entry.primary = some j → cut j = false) →
            let q := judgeSample x f.data
            (q.1 = .usable → role.source = .backup → t.part.roles[k] = { role with value := some q.2 }) ∧
              (q.1 = .usable → role.source = .none →
                t.part.roles[k] = { source := .backup, value := some q.2, returns := 0 }) ∧
              (q.1 ≠ .usable ∨ role.source = .primary → t.part.roles[k] = role)) ∧
          ∀ j b x y, entry.primary = some j → entry.backup = some b → set.signal j = some x → set.signal b = some y →
            x.frame = i → y.frame = i → role.source = .none → (judgeSample x f.data).1 = .usable →
            (judgeSample y f.data).1 = .usable →
            (j < b → t.part.roles[k] = { source := .primary, value := some (judgeSample x f.data).2, returns := 0 }) ∧
              (b < j → t.part.roles[k] = { source := .backup, value := some (judgeSample y f.data).2, returns := 1 })) ∧
  (∀ (f : Frame) (svc forward : Bool) (s : State), frameOk f = true → s.part.awake = true →
    s.part.portA.state ≠ .busOff → isReserved f.format f.ident.toNat = false → s.part.register.query = none →
    (s.part.modeCtl.passAll = true ∧ forward = true) ∨
        (s.part.modeCtl.passAll = false ∧ ∃ i e, s.part.modeCtl.active.findFrame .a f = some i ∧
          s.part.modeCtl.active.frame i = some e ∧ e.forward = forward) →
    let p := s.part
    let r := p.ring
    let age := p.modeCtl.active.limits.maximumAge
    let new : RingRecord :=
      { sequence := r.next, arrival := r.time, frame := f, forward := forward, sent := false, receivedAt := p.now }
    ∃ t, exec (.dataFrameReceived .a f svc) s = .next t ∧
      (∀ old rest, r.records = old :: rest → 4096 ≤ r.records.length → old.forward = true → old.sent = false →
        old.sequence = r.pointer →
        t.part.ring.overrun = min 4294967295 (r.overrun + 1) ∧ t.part.condition 7 = true ∧
          (p.portB.tx.isSome = true →
            ((∀ x ∈ rest ++ [new], x.waiting = false) → t.part.ring.pointer = r.next + 1 ∧ t.part.ring.age = none) ∧
              ∀ before x after, rest ++ [new] = before ++ x :: after → (∀ y ∈ before, y.waiting = false) →
                x.waiting = true → (r.pointer - r.next).toInt ≤ (x.sequence - (r.next + 1)).toInt →
                p.now - x.receivedAt < age →
                t.part.ring.pointer = x.sequence ∧ t.part.ring.age = some (age - (p.now - x.receivedAt)) ∧
                  t.part.ring.expired = min 4294967295 r.expired)) ∧
      (r.records.length < 4096 ∨
          (∀ old, r.records.head? = some old → old.waiting = false ∨ old.sequence ≠ r.pointer) →
        t.part.ring.overrun = r.overrun ∧ t.part.link.forwardOverrun = p.link.forwardOverrun)) ∧
  (∀ (f : Frame) (svc : Bool) (s : State) (q : Query), frameOk f = true → s.part.awake = true →
    s.part.portA.state ≠ .busOff → s.part.register.query = some q →
    let p := s.part
    let i : Instr := .dataFrameReceived .a f svc
    let ends := fun p' : Part => exec i s = exec i { s with part := p' }
    let without := fun inHand : Option InHand =>
      ({ p with register := { p.register with query := none, inHand := inHand } } : Part)
    let foreign := isReserved f.format f.ident.toNat = false
    ((q.sent = false ∨ f.format ≠ q.replyFormat ∨ f.ident ≠ q.replyIdent) → foreign →
        ∃ t, exec i s = .next t ∧ t.part.register.query = some q) ∧
      (q.sent = true → f.format = q.replyFormat → f.ident = q.replyIdent →
        (q.forProbe = true →
          ends
            { without p.register.inHand with
              link := { p.link with
                service := { p.link.service with
                  state := .responding
                  outbox := segments
                    ([0x19, 0x00, 0x01, if f.format = .extended then 0x01 else 0x00] ++ beBytes 4 f.ident.toNat ++
                      [BitVec.ofNat 8 f.data.length] ++ f.data ++ List.replicate (8 - f.data.length) 0)
                  offered := false } } }) ∧
        (q.forProbe = false →
          (p.register.inHand = none → ends (without none)) ∧
            ∀ h, p.register.inHand = some h →
              (p.slot h.slot = none → ends (without none)) ∧
                ∀ c, p.slot h.slot = some c →
                  let offset := (c.query.map (·.offset)).getD 0
                  let serial := serialAt f.data offset
                  let becomes := fun c' : Component => ends ((without none).setSlot h.slot (some c'))
                  (offset + 6 ≤ f.data.length →
                    (∀ hold, c.hold = some hold →
                        becomes { c with hold := some { hold with reported := serial }, silent := 0 }) ∧
                      (c.hold = none → c.identity = some serial →
                        becomes { c with verification := .verified, silent := 0 }) ∧
                      (c.hold = none → c.identity ≠ some serial →
                        becomes
                            { c with
                              hold := some
                                { reported := serial
                                  pool := { events := 0, time := 0, units := 0, residue := 0, unobserved := 0 } }
                              verification := .unverified
                              silent := 0 } ∧
                          (foreign → ∃ t, exec i s = .next t ∧ t.part.condition 3 = true))) ∧
                    (f.data.length < offset + 6 →
                      (3 ≤ h.attempt →
                          becomes
                            { c with
                              verification := if c.hold = none then .unverified else c.verification
                              silent := min 255 (c.silent + 1) }) ∧
                        (h.attempt < 3 → ends (without (some { h with attempt := h.attempt + 1 })))))))

/-- A failed transmission adds 8 to the port's error level; when that would pass 255 the port enters BUS_OFF with level
0, one more bus-off and a 200 ms recovery timer, and the frame stays in the transmitter. At the timer's expiry the port
returns to RUNNING with the held frame still first (R2). A successful transmission of a frame that is no response takes
1 from the level, stopping at 0; a forwarded record counts as forwarded, and a query's frame starts the watch for its
reply (R2, R67, R125). -/
def Obligations.ErrorLevelFollowsTransmissions : Prop :=
  (∀ (port : PortId) (s : State), s.part.awake = true →
      let q := s.part.port port
      (q.state = .running → q.tx.isSome = true →
          exec (.transmissionFailed port) s =
            .next { s with
              part := s.part.setPort port
                (if q.errorLevel + 8 ≤ 255 then { q with errorLevel := q.errorLevel + 8 }
                else
                  { q with state := .busOff, errorLevel := 0, busOffs := min 65535 (q.busOffs + 1), recovery := some 200 }) }) ∧
        (q.recovery.isSome = true →
          Leaves (.busOffRecoveryExpiry port) s (s.part.setPort port { q with state := .running, recovery := none })
            fun t => (t.port port).state = .running ∧ ∀ f, q.tx = some f → (t.port port).tx = some f)) ∧
    (∀ (port : PortId) (s : State) (f : TxFrame), s.part.awake = true → (s.part.port port).state = .running →
      (s.part.port port).tx = some f → (∀ ch, f.source ≠ .response ch) →
      let q := s.part.port port
      let p := s.part.setPort port { q with errorLevel := q.errorLevel - 1 }
      Leaves (.transmissionSucceeded port) s
        (if f.source = .forward then
          { p with ring := { p.ring with forwarded := min 4294967295 (p.ring.forwarded + 1) } }
        else p)
        fun t => f.source = .probe → ∀ query, s.part.register.query = some query →
          t.register.query = some { query with sent := true })

/-- A response frame's departure: with frames still to come, what is left of the response is what goes on; the last one
takes the channel to IDLE (R178). Nothing else that lasts changes but the error level (R2). -/
def Obligations.ResponseFrameLeaves : Prop :=
  ∀ (port : PortId) (s : State) (f : TxFrame) (ch : Channel), s.part.awake = true →
    (s.part.port port).state = .running → (s.part.port port).tx = some f → f.source = .response ch →
    (s.part.placedFrames.filter (TxFrame.respondsFor ch)) = [f] → (s.part.chan ch).state = .responding →
    (∀ r ∈ s.part.storage.readers, r.ch ≠ ch) →
    let q := s.part.port port
    let p := s.part.setPort port { q with errorLevel := q.errorLevel - 1 }
    ((s.part.chan ch).outbox ≠ [] →
        Leaves (.transmissionSucceeded port) s p fun t =>
          (t.chan ch).state = .responding ∧ t.outgoing ch = (s.part.chan ch).outbox) ∧
      ((s.part.chan ch).outbox = [] → (s.part.chan ch).restartAfter = false →
        Leaves (.transmissionSucceeded port) s p fun t => (t.chan ch).state = .idle ∧ t.outgoing ch = [])

/-- The port B arbiter's grant (R128): only to an empty transmitter of a RUNNING port, one frame, in the order Service
response, Fleet response, status frame, pointer record. -/
def Obligations.PortBGrantOrder : Prop :=
  ∀ p : Part,
    (¬(p.portB.state = .running ∧ p.portB.tx = none) → fillB p = p) ∧
      (p.portB.state = .running → p.portB.tx = none →
        (fillB p).portB.tx =
            ((p.ring.waitingService.orElse fun _ => p.ring.waitingFleet).orElse fun _ => p.ring.waitingStatus).orElse
              (fun _ => p.ring.pointerRecord.map fun r => { frame := r.frame, source := .forward, timeout := none }) ∧
          (fillB p).ring.waitingService = none ∧
          (p.ring.waitingService.isSome = true →
            (fillB p).ring.waitingFleet = p.ring.waitingFleet ∧ (fillB p).ring.waitingStatus = p.ring.waitingStatus) ∧
          (p.ring.waitingService = none → (fillB p).ring.waitingFleet = none) ∧
          (p.ring.waitingService = none → p.ring.waitingFleet.isSome = true →
            (fillB p).ring.waitingStatus = p.ring.waitingStatus) ∧
          (p.ring.waitingService = none → p.ring.waitingFleet = none → (fillB p).ring.waitingStatus = none) ∧
          ((p.ring.waitingService.isSome || p.ring.waitingFleet.isSome || p.ring.waitingStatus.isSome) = true →
            (fillB p).ring.records = p.ring.records ∧ (fillB p).ring.pointer = p.ring.pointer))

/-! ## Signals and roles (R10, R13, R16) -/

/-- A raw number becomes a value by the exact product with the multiplier, divided by 2^shift and rounded toward minus
infinity, plus the offset (R10). No value is clamped: a sample is USABLE with exactly that value within its limits, and
OUT_OF_RANGE only outside them. -/
def Obligations.ValueIsExactFloor : Prop :=
  ∀ (e : SignalEntry) (raw : Int) (data : List Byte),
    let value := scale e (readRaw e.signed e.length (rawBits e.highFirst e.start e.length data))
    (scale e raw - e.offset) * 2 ^ e.shift ≤ raw * e.multiplier ∧
      raw * e.multiplier < (scale e raw - e.offset + 1) * 2 ^ e.shift ∧
      ((judgeSample e data).1 = .usable →
        (judgeSample e data).2 = value ∧ e.minimum ≤ value ∧ value ≤ e.maximum) ∧
      ((judgeSample e data).1 = .outOfRange → value < e.minimum ∨ e.maximum < value)

/-- A freshness deadline's expiry makes its signal STALE and keeps its value (R13), and no other signal changes. A role
that does not name the signal is untouched. One that has it as its selected primary falls back to a FRESH backup's last
value or loses its source; one that has it as its selected backup takes a FRESH primary's last value or loses its
source, its return count 0 either way; the expiry of the primary while the backup is selected sets the return count to
0; an expiry of a source that is not selected changes nothing else (R16). A role that an occupied slot requires (R19)
and that loses its source in ACTIVE with the ignition on raises ROLE_LOST; outside ACTIVE or with the ignition off it is
never raised (R20). -/
def Obligations.FreshnessExpiryMakesStale : Prop :=
  ∀ (i : Fin 48) (s : State), s.part.awake = true → (s.part.signal i).deadline.isSome = true →
    let judged := s.part.modeCtl.mode = .active ∧ s.part.modeCtl.ignition = true
    ∃ t, exec (.freshnessDeadlineExpiry i) s = .next t ∧
      t.part.signals = s.part.signals.set i { s.part.signals[i] with status := .stale, deadline := none } ∧
      (∀ r : Fin 10,
        let entry := s.part.modeCtl.active.roles[r]
        let role := s.part.roles[r]
        (entry.primary ≠ some i.val → entry.backup ≠ some i.val → t.part.roles[r] = role) ∧
          (entry.primary = some i.val → role.source = .primary →
            (∀ b v, entry.backup = some b → b ≠ i.val → (s.part.signal b).status = .fresh →
              (s.part.signal b).value = some v → t.part.roles[r] = { source := .backup, value := some v, returns := 0 }) ∧
            ((∀ b, entry.backup = some b → b = i.val ∨ (s.part.signal b).status ≠ .fresh) →
              t.part.roles[r] = { role with source := .none, returns := 0 })) ∧
          (entry.primary = some i.val → role.source = .backup → t.part.roles[r] = { role with returns := 0 }) ∧
          (entry.primary = some i.val → role.source = .none → t.part.roles[r] = role) ∧
          (entry.backup = some i.val → entry.primary ≠ some i.val → role.source = .backup →
            (∀ j v, entry.primary = some j → (s.part.signal j).status = .fresh → (s.part.signal j).value = some v →
              t.part.roles[r] = { source := .primary, value := some v, returns := 0 }) ∧
            ((∀ j, entry.primary = some j → (s.part.signal j).status ≠ .fresh) →
              t.part.roles[r] = { role with source := .none, returns := 0 })) ∧
          (entry.backup = some i.val → entry.primary ≠ some i.val → role.source ≠ .backup → t.part.roles[r] = role)) ∧
      ((∀ (r : Fin 10) n c, judged → s.part.slot n = some c → r.val ∈ c.kind.requiredRoles →
          s.part.roles[r].source ≠ .none → t.part.roles[r].source = .none → t.part.condition 5 = true) ∧
        (¬judged → t.part.link.roleLost = s.part.link.roleLost)) ∧
      t.part.matcher = s.part.matcher ∧ t.part.modeCtl.active = s.part.modeCtl.active ∧
      t.part.modeCtl.mode = s.part.modeCtl.mode ∧ t.part.modeCtl.clock = s.part.modeCtl.clock ∧
      t.part.ring.next = s.part.ring.next ∧ t.medium = s.medium ∧ t.pending = s.pending

/-! ## Engine starts (R43 to R52) -/

/-- What an evaluation does in each engine state (R43, and no table save running, R28). STOPPED: a speed at the run
threshold enters CATCHING with an attempt of duration 0 and window B; an active starter or a speed at the crank
threshold enters CRANKING with an attempt and window A; otherwise nothing (R45). A change out of STOPPED also stops the
quiet period's timer (R35, R53). CRANKING: a speed at the run threshold fixes the duration and enters CATCHING; a
starter released below the crank threshold ends the attempt FAILED and enters STOPPED; otherwise the starter is noted
(R44, R46). CATCHING: a speed below the stall threshold ends the attempt FAILED with the duration it carries, and a new
one opens unless the engine is released below the crank threshold (R47). RUNNING: below the stall threshold it stops,
with no attempt; else nothing (R48). UNKNOWN: the first speed at the run threshold enters RUNNING, judging ROLE_LOST
(R20), and counts a resume, a lower one is evaluated from STOPPED (R50). A loss of the speed discards the attempt and
enters UNKNOWN, or STOPPED with the ignition off (R49). A FAILED attempt credits its starter event in ACTIVE with the
starter seen and a STARTER slot (R52). -/
def Obligations.DetectorEvaluations : Prop :=
  ∀ (p : Part) (onSpeed : Bool),
    let d := p.detector
    let l := p.modeCtl.active.limits
    let windowA := some (1000 * l.windowA)
    let windowB := some (100 * l.windowB)
    let put := fun (engine : EngineState) (attempt : Option Attempt) (a b : Option Nat) =>
      ({ p with detector := { d with engine := engine, attempt := attempt, windowA := a, windowB := b } } : Part)
    let opened := fun (seen : Bool) (duration : Option Nat) =>
      ({ openedAt := p.now, coolant := p.usableValue roleCoolant, starterSeen := seen, duration := duration } : Attempt)
    let fails := fun (a : Attempt) (tenths : Nat) (q result : Part) =>
      (a.starterSeen = false ∨ p.modeCtl.mode ≠ .active ∨ p.slotOfKind .starter = none → result = q) ∧
        ∀ n c, a.starterSeen = true → p.modeCtl.mode = .active → p.slotOfKind .starter = some n → p.slot n = some c →
          let credit := p.placed .starter (some (tenths : Int)) a.coolant a.coolant 1 tenths 1
          result =
            { q.setSlot n (some { c.credit credit with failedStarts := min 65535 (c.failedStarts + 1) }) with
              hire := p.hire.credit n c credit }
    let free := d.engine = .stopped → ∀ m, p.modeCtl.save ≠ .saving m
    let leaves := fun q : Part => ({ q with modeCtl := { p.modeCtl with quiet := none } } : Part)
    (p.usableValue roleEngineSpeed = none → evaluateDetector false p = p) ∧
      (p.usableValue roleEngineSpeed = none → p.clutch.engagement = none → free →
        (p.modeCtl.ignition = false → evaluateDetector true p = put .stopped none none none) ∧
          (p.modeCtl.ignition = true → d.engine ≠ .stopped → evaluateDetector true p = put .unknown none none none) ∧
          (p.modeCtl.ignition = true → d.engine = .stopped →
            evaluateDetector true p = leaves (put .unknown none none none))) ∧
      ∀ speed, p.usableValue roleEngineSpeed = some speed →
        (d.engine = .stopped → free →
          ((l.run : Int) ≤ speed →
              evaluateDetector onSpeed p = leaves (put .catching (some (opened false (some 0))) none windowB)) ∧
            (speed < l.run → p.starterActive = true ∨ (l.crank : Int) ≤ speed →
              evaluateDetector onSpeed p = leaves (put .cranking (some (opened p.starterActive none)) windowA none)) ∧
            (speed < l.run → p.starterActive = false → speed < l.crank → evaluateDetector onSpeed p = p)) ∧
        (∀ a, d.engine = .cranking → d.attempt = some a → a.duration = none →
          let seen := { a with starterSeen := a.starterSeen || p.starterActive }
          let tenths := (p.now - a.openedAt) / 100
          ((l.run : Int) ≤ speed →
              evaluateDetector onSpeed p = put .catching (some { seen with duration := some tenths }) none windowB) ∧
            (speed < l.run → p.starterActive = true ∨ (l.crank : Int) ≤ speed →
              evaluateDetector onSpeed p = put .cranking (some seen) d.windowA d.windowB) ∧
            (speed < l.run → p.starterActive = false → speed < l.crank →
              fails a tenths (put .stopped none none none) (evaluateDetector onSpeed p))) ∧
        (∀ a tenths, d.engine = .catching → d.attempt = some a → a.duration = some tenths →
          ((l.stall : Int) ≤ speed → evaluateDetector onSpeed p = p) ∧
            (speed < l.stall → p.starterActive = false → speed < l.crank →
              fails a tenths (put .stopped none none none) (evaluateDetector onSpeed p)) ∧
            (speed < l.stall → p.starterActive = true ∨ (l.crank : Int) ≤ speed →
              fails a tenths (put .cranking (some (opened p.starterActive none)) windowA none)
                (evaluateDetector onSpeed p))) ∧
        (d.engine = .running →
          ((l.stall : Int) ≤ speed → evaluateDetector onSpeed p = p) ∧
            (speed < l.stall →
              (evaluateDetector onSpeed p).detector = { d with engine := .stopped } ∧
                (p.clutch.engagement = none →
                  evaluateDetector onSpeed p = { p with detector := { d with engine := .stopped } }))) ∧
        (d.engine = .unknown →
          evaluateDetector false p = p ∧
            (speed < l.run →
              evaluateDetector true p = evaluateDetector true { p with detector := { d with engine := .stopped } }) ∧
            ((l.run : Int) ≤ speed →
              (evaluateDetector true p).detector = { d with engine := .running, firstRun := false } ∧
                (evaluateDetector true p).link.roleLost = (p.link.roleLost || (p.judgesRoles && p.missingRole)) ∧
                (d.firstRun = false → p.judgesRoles = false ∨ p.missingRole = false →
                  (p.slotOfKind .engine = none →
                    evaluateDetector true p = { p with detector := { d with engine := .running } }) ∧
                  ∀ n c, p.slotOfKind .engine = some n → p.slot n = some c →
                    evaluateDetector true p =
                      { p.setSlot n (some { c with uncertain := min 65535 (c.uncertain + 1) }) with
                        detector := { d with engine := .running } })))

/-- Window A expires in CRANKING: the attempt ends and a new one opens at once, its coolant and starter flag as the
roles stand, window A anew (R46); a starter event is credited exactly in ACTIVE with the starter seen and a STARTER slot
installed, its failed-start count rising by 1 (R52). Window B expires in CATCHING: the engine is RUNNING with no attempt
and no window, ROLE_LOST is raised in ACTIVE with the ignition on when a required role is not usable (R20), and at the
first run every slot with a query setup is queued for verification, a COUNTING one PENDING (R47, R54). In ACTIVE the
START credits its starter event when the starter was seen, with the attempt's duration and coolant and no failed start
(R52), then one event, no time, no cell and no wear to the ENGINE slot (R51): to the figures of a COUNTING one, to the
pool of a HELD one (R60); the open hire takes each credit in the same amounts (R61). Outside ACTIVE nothing is credited.
-/
def Obligations.WindowExpiriesAct : Prop :=
  (∀ (s : State) (a : Attempt), s.part.awake = true → s.part.detector.engine = .cranking →
      s.part.detector.windowA.isSome = true → s.part.detector.attempt = some a →
      let p := s.part
      let window := p.modeCtl.active.limits.windowA
      let detector : Detector :=
        { p.detector with
          attempt := some
            { openedAt := p.now, coolant := p.usableValue roleCoolant, starterSeen := p.starterActive, duration := none }
          windowA := some (1000 * window)
          windowB := none }
      (∃ t, exec .windowAExpiry s = .next t ∧ t.part.detector = detector ∧ t.medium = s.medium ∧ t.pending = s.pending) ∧
        (p.modeCtl.mode ≠ .active ∨ a.starterSeen = false ∨ p.slotOfKind .starter = none →
          Leaves .windowAExpiry s { p with detector := detector } fun _ => True) ∧
        ∀ n c, p.modeCtl.mode = .active → a.starterSeen = true → p.slotOfKind .starter = some n → p.slot n = some c →
          Leaves .windowAExpiry s
            { p.setSlot n (some
                { c.credit (p.placed .starter (some (10 * window : Nat)) a.coolant a.coolant 1 (10 * window) 1) with
                  failedStarts := min 65535 (c.failedStarts + 1) }) with
              detector := detector
              hire := p.hire.credit n c (p.placed .starter (some (10 * window : Nat)) a.coolant a.coolant 1 (10 * window) 1) }
            fun _ => True) ∧
    (∀ s : State, s.part.awake = true → s.part.detector.engine = .catching → s.part.detector.windowB.isSome = true →
      let p := s.part
      let start : Credit := { events := 1, time := 0, place := .nowhere, wear := 0, unobserved := 0 }
      let credited := fun (kind : Kind) (a : Credit) (q : Part) =>
        match p.slotOfKind kind with
        | none => q
        | some n =>
          match q.slot n with
          | none => q
          | some c => { q.setSlot n (some (c.credit a)) with hire := q.hire.credit n c a }
      let starter :=
        match p.detector.attempt with
        | some a =>
          let tenths := a.duration.getD ((p.now - a.openedAt) / 100)
          if a.starterSeen then
            credited .starter (p.placed .starter (some (tenths : Int)) a.coolant a.coolant 1 tenths 1) p
          else p
        | none => p
      let counted := if p.modeCtl.mode = .active then credited .engine start starter else p
      let missing := (List.range 10).any fun r => p.register.requires r && (p.role r).source == .none
      Leaves .windowBExpiry s
          { counted with
            detector := { engine := .running, attempt := none, windowA := none, windowB := none, firstRun := false }
            link := { p.link with
              roleLost := p.link.roleLost || (p.modeCtl.mode == .active && p.modeCtl.ignition && missing) }
            register := { counted.register with
              slots := Vector.ofFn fun n => (counted.slot n.val).map fun c =>
                if p.detector.firstRun = true ∧ c.query ≠ none ∧ c.hold = none ∧ n.val ∉ p.register.pollQueue then
                  { c with verification := .pending }
                else c } }
          (fun t => p.detector.firstRun = true → ∀ n c, p.slot n = some c → c.query ≠ none →
            n ∈ t.register.pollQueue ∨ t.register.inHand = some { slot := n, attempt := 1 }) ∧
        ∀ c : Component, c.ranged = true →
          (c.hold = none →
              c.credit start =
                { c with
                  events := min 4294967295 (c.events + 1)
                  saturated := c.saturated || decide (4294967295 < c.events + 1) }) ∧
            ∀ h, c.hold = some h → h.pool.ranged = true →
              c.credit start =
                { c with
                  hold := some { h with pool := { h.pool with events := min 4294967295 (h.pool.events + 1) } } })

/-! ## Wear, hours and abuse (R59, R60, R79, R84 to R89, R92 to R98, R113 to R118) -/

/-- The wear arithmetic loses no count: units and residue together rise by the increment, the residue staying below
16,000, until the units would pass 99,999,999; then the figure freezes at 99,999,999 and 15,999 for good (R88). A credit
whose placed count equals what the kind counts keeps the spectrum's sum equal to the time figure (continuous kinds) or
the events figure (event kinds), unless the slot is SATURATED (R59, R89). The merge of a pool adds events, time and
unobserved, and wear with carry, none of it lost; unbinned rises by the pool's time or events; the spectrum, generation
and counts stay; SATURATED is set when a sum reaches its limit (R74, R75, R88). -/
def Obligations.WearSumsAreExact : Prop :=
  (∀ units residue counts : Nat, units ≤ 99999999 → residue < 16000 →
    (units + (residue + counts) / 16000 ≤ 99999999 →
        (addWear units residue counts).1 * 16000 + (addWear units residue counts).2.1 =
            units * 16000 + residue + counts ∧
          (addWear units residue counts).2.1 < 16000 ∧ (addWear units residue counts).2.2 = false) ∧
      (99999999 < units + (residue + counts) / 16000 → addWear units residue counts = (99999999, 15999, true)) ∧
      ∀ more, (addWear 99999999 15999 more).1 = 99999999 ∧ (addWear 99999999 15999 more).2.1 = 15999) ∧
  (∀ (c : Component) (a : Credit) (cell count : Nat), c.hold = none → c.saturated = false → cell < 64 →
    (a.place = .cell cell count ∨ a.place = .unbinned count) → count = c.kind.share a.events a.time →
    c.cellSum + c.unbinned = c.kind.share c.events c.time →
    (c.credit a).saturated = false →
    (c.credit a).cellSum + (c.credit a).unbinned = c.kind.share (c.credit a).events (c.credit a).time) ∧
  (∀ (c : Component) (q : Pool), c.ranged = true →
    let m := c.mergePool q
    m.events = min 4294967295 (c.events + q.events) ∧ m.time = min 4294967295 (c.time + q.time) ∧
      m.unobserved = min 4294967295 (c.unobserved + q.unobserved) ∧
      m.unbinned = min 4294967295 (c.unbinned + if c.kind.continuous then q.time else q.events) ∧
      (c.units + q.units + (c.residue + q.residue) / 16000 ≤ 99999999 →
        m.units * 16000 + m.residue = c.units * 16000 + c.residue + (q.units * 16000 + q.residue) ∧ m.residue < 16000) ∧
      (99999999 < c.units + q.units + (c.residue + q.residue) / 16000 → m.units = 99999999 ∧ m.residue = 15999) ∧
      m.cells = c.cells ∧ m.generation = c.generation ∧ m.abuse = c.abuse ∧ m.kind = c.kind ∧
      m.installClock = c.installClock ∧ m.uncertain = c.uncertain ∧ m.failedStarts = c.failedStarts ∧
      (m.saturated = true ↔ c.saturated = true ∨ m.events = 4294967295 ∨ m.time = 4294967295 ∨
        m.unobserved = 4294967295 ∨ m.unbinned = 4294967295 ∨ m.units = 99999999))

/-- A credit to an EMPTY slot is not made (R59). One to a COUNTING slot adds to its events, time, unobserved and wear,
and to the cell or to unbinned as it is placed, each saturating by itself and setting SATURATED (R59, R88, R89). One to
a HELD slot goes to its pool alone, its cell and unbinned parts not kept, and every figure stays (R60). While a hire is
open the credit is made in the same amounts to the hire's usage entry for the slot, which notes a held one, or to an
entry added in slot order when it has none; no other entry changes (R61, R103, R104). -/
def Obligations.CreditGoesToSlotAndHire : Prop :=
  ∀ (n : Nat) (a : Credit) (p : Part), n < 12 →
    (p.slot n = none → creditSlot n a p = p) ∧
      ∀ c, p.slot n = some c →
        let credited := fun u : Usage =>
          { u with
            serial := c.identity
            events := min 4294967295 (u.events + a.events)
            time := min 4294967295 (u.time + a.time)
            units := (addWear u.units u.residue a.wear).1
            residue := (addWear u.units u.residue a.wear).2.1
            held := u.held || c.hold.isSome
            unobserved := min 4294967295 (u.unobserved + a.unobserved) }
        (∀ k, k ≠ n → (creditSlot n a p).slot k = p.slot k) ∧ (creditSlot n a p).storage = p.storage ∧
          (p.hire.current = none → (creditSlot n a p).hire = p.hire) ∧
          (c.hold = none →
            ∃ c', (creditSlot n a p).slot n = some c' ∧
              c' =
                { c with
                  events := min 4294967295 (c.events + a.events)
                  time := min 4294967295 (c.time + a.time)
                  units := (addWear c.units c.residue a.wear).1
                  residue := (addWear c.units c.residue a.wear).2.1
                  unobserved := min 4294967295 (c.unobserved + a.unobserved)
                  cells := c'.cells, unbinned := c'.unbinned, saturated := c'.saturated } ∧
              (a.place = .nowhere → c'.cells = c.cells ∧ c'.unbinned = c.unbinned) ∧
              (∀ count, a.place = .unbinned count →
                c'.cells = c.cells ∧ c'.unbinned = min 4294967295 (c.unbinned + count)) ∧
              (∀ (cell : Fin 64) count, a.place = .cell cell.val count →
                c'.cells = c.cells.set cell (min 4294967295 (c.cells[cell] + count)) ∧ c'.unbinned = c.unbinned) ∧
              (c'.saturated = true ↔
                c.saturated = true ∨ 4294967295 < c.events + a.events ∨ 4294967295 < c.time + a.time ∨
                  4294967295 < c.unobserved + a.unobserved ∨ (addWear c.units c.residue a.wear).2.2 = true ∨
                  (∃ count, a.place = .unbinned count ∧ 4294967295 < c.unbinned + count) ∨
                  ∃ cell count, a.place = .cell cell count ∧ 4294967295 < c.cells[cell]?.getD 0 + count)) ∧
          (∀ h, c.hold = some h →
            (creditSlot n a p).slot n = some
              { c with
                hold := some
                  { h with
                    pool :=
                      { events := min 4294967295 (h.pool.events + a.events)
                        time := min 4294967295 (h.pool.time + a.time)
                        units := (addWear h.pool.units h.pool.residue a.wear).1
                        residue := (addWear h.pool.units h.pool.residue a.wear).2.1
                        unobserved := min 4294967295 (h.pool.unobserved + a.unobserved) } } }) ∧
          ∀ h : HireRecord, p.hire.current = some h → h.usage.Pairwise (fun x y => x.slot < y.slot) →
            ∃ h', (creditSlot n a p).hire = { p.hire with current := some h' } ∧ h' = { h with usage := h'.usage } ∧
              (∀ x ∈ h.usage, x.slot ≠ n → x ∈ h'.usage) ∧ h'.usage.Pairwise (fun x y => x.slot < y.slot) ∧
              (∀ u ∈ h.usage, u.slot = n → h'.usage.length = h.usage.length ∧ credited u ∈ h'.usage) ∧
              ((∀ u ∈ h.usage, u.slot ≠ n) →
                h'.usage.length = h.usage.length + 1 ∧
                  credited
                      { slot := n, kind := c.kind, serial := c.identity, events := 0, time := 0, units := 0, residue := 0
                        held := false, unobserved := 0 } ∈ h'.usage)

/-- An interval expiry restarts its timer; outside ACTIVE it does nothing else (R84). In ACTIVE each slot of a
continuous kind whose running condition holds is credited by its interval credit, the others are not, and its running
flag becomes the condition; an event kind's figures stay. Only abuse counts may move besides (R85, R86, R115). An
interval's credit is 1 s, one event at the start of a stretch for every kind but ENGINE, one count in the cell of its
axis values or unbinned when one is absent, and the cell's weight times the temperature factor as wear (R83, R85). -/
def Obligations.IntervalExpiryCreditsSlots : Prop :=
  (∀ s : State, s.part.awake = true → s.part.wear.timer.isSome = true →
      (s.part.modeCtl.mode ≠ .active →
          Leaves .intervalExpiry s { s.part with wear := { s.part.wear with timer := some 1000 } } fun _ => True) ∧
        (s.part.modeCtl.mode = .active →
          ∃ t, exec .intervalExpiry s = .next t ∧ t.part.wear.timer = some 1000 ∧
            (∀ n c, n < 12 → s.part.slot n = some c →
              (∃ marks, t.part.slot n = some
                { (if c.kind.continuous && s.part.runningCondition c.kind then
                    c.credit (s.part.intervalCredit n c.kind)
                  else c) with abuse := marks }) ∧
              (c.kind.continuous = true → t.part.runningFlag n = s.part.runningCondition c.kind) ∧
              (c.kind.continuous = false → t.part.runningFlag n = s.part.runningFlag n)) ∧
            (∀ n, n < 12 → s.part.slot n = none → t.part.slot n = none) ∧
            t.part.matcher = s.part.matcher ∧ t.part.signals = s.part.signals ∧ t.part.roles = s.part.roles ∧
            t.part.detector = s.part.detector ∧ t.part.clutch = s.part.clutch ∧
            t.part.modeCtl.active = s.part.modeCtl.active ∧ t.medium = s.medium ∧ t.pending = s.pending)) ∧
    (∀ (p : Part) (n : Nat) (k : Kind),
      let a := p.intervalCredit n k
      a.time = 1 ∧ a.unobserved = 0 ∧
        (a.events = if k = .engine ∨ p.runningFlag n = true then 0 else 1) ∧
        (((p.axes k).1 = none ∨ (p.axes k).2 = none) → a.place = .unbinned 1 ∧ a.wear = 0) ∧
        ∀ load speed, p.axes k = (some load, some speed) →
          let row := p.bins k
          let cell := (row.load.toList.filter (· ≤ load)).length * 8 + (row.speed.toList.filter (· ≤ speed)).length
          a.place = .cell cell 1 ∧ cell < 64 ∧
            (p.usableValue roleCoolant = none → a.wear = ((p.weights k).cells[cell]?.getD 0) * 16) ∧
            ∀ t, p.usableValue roleCoolant = some t →
              a.wear = ((p.weights k).cells[cell]?.getD 0) *
                ((p.weights k).factors[(row.temperature.toList.filter (· ≤ t)).length]?.getD 16))

/-- An evaluation expiry restarts its timer, and outside ACTIVE with the engine RUNNING does nothing else (R91); in
ACTIVE and RUNNING it evaluates the clutch on what then stands. In gear with all four roles usable, a slip at the
threshold opens or continues the engagement: one tenth more of slip time, and the energy of R93 exact but for its
floors, the below count back to 0. -/
def Obligations.SlippingEvaluationAddsEnergy : Prop :=
  ∀ s : State, s.part.awake = true → s.part.clutch.timer.isSome = true →
    let p := s.part
    (p.modeCtl.mode ≠ .active ∨ p.detector.engine ≠ .running →
        Leaves .evaluationExpiry s { p with clutch := { p.clutch with timer := some 100 } } fun _ => True) ∧
      (p.modeCtl.mode = .active → p.detector.engine = .running →
        Leaves .evaluationExpiry s (evaluateClutch { p with clutch := { p.clutch with timer := some 100 } }) fun _ => True) ∧
      ∀ engine input gear torque, p.modeCtl.mode = .active → p.detector.engine = .running →
        p.clutchRoles = some (engine, input, gear, torque) → gear ≠ 0 →
        (p.modeCtl.active.limits.slip : Nat) ≤ (engine - input).natAbs →
        let e : Engagement := p.clutch.engagement.getD { startSpeed := p.usableValue roleOutputSpeed }
        let carry := if p.clutch.engagement.isSome then p.clutch.carry else 0
        let newtonMetres := (max torque 0).toNat * p.modeCtl.active.limits.referenceTorque / 100
        let numerator := newtonMetres * (engine - input).natAbs * 10472 + carry
        e.saturated = false →
        Leaves .evaluationExpiry s
          { p with
            clutch :=
              { timer := some 100
                engagement := some
                  { e with
                    slipTime := min 65535 (e.slipTime + 1)
                    energy := min 16777215 (e.energy + numerator / 1000000)
                    saturated := decide (16777215 < e.energy + numerator / 1000000)
                    below := 0 }
                carry := numerator % 1000000 } }
          fun _ => True

/-- In an open engagement a slip below the threshold adds no energy and no slip time and raises the below count, the
third in a row closing the engagement; a slip at or above the threshold returns the count to 0 (R94). -/
def Obligations.ThirdBelowCountCloses : Prop :=
  ∀ (p : Part) (e : Engagement) (engine input gear torque : Int), p.clutch.engagement = some e →
    p.clutchRoles = some (engine, input, gear, torque) → gear ≠ 0 →
    let slip := (engine - input).natAbs
    (slip < p.modeCtl.active.limits.slip → e.below + 1 ≠ 3 →
        evaluateClutch p =
          { p with clutch := { p.clutch with engagement := some { e with below := e.below + 1 } } }) ∧
      (slip < p.modeCtl.active.limits.slip → e.below + 1 = 3 →
        evaluateClutch p = closeEngagement p ∧ (evaluateClutch p).clutch.engagement = none) ∧
      (p.modeCtl.active.limits.slip ≤ slip →
        ∃ e', (evaluateClutch p).clutch.engagement = some e' ∧ e'.below = 0)

/-- Hours reconciliation on a USABLE sample V of the reported hours (R97, R98): without an ENGINE slot nothing; a
cleared reference anchors to V and the slot's own time; V equal to V0 changes nothing; a lower V re-anchors and sets the
regressed flag; a higher V re-anchors, outside ACTIVE and within the tolerance of 360 s without credit, beyond it after
a credit of the reported advance less the own advance less 180 s as time, unbinned and unobserved, with no event and no
wear, to the figures or the held pool and to the open hire. That an own time below T0 makes the own advance 0 is the
model's choice (log 41). An update of the role that carries no sample does nothing. -/
def Obligations.HoursAreReconciled : Prop :=
  (∀ (p : Part) (sample : Bool),
    (sample = false → handUpdate roleHours sample p = p) ∧
      ∀ v, (p.role roleHours).value = some v → handUpdate roleHours true p = reconcileHours v.toNat p) ∧
  ∀ (p : Part) (v : Nat),
    (p.slotOfKind .engine = none → reconcileHours v p = p) ∧
      ∀ n c, p.slotOfKind .engine = some n → p.slot n = some c →
        let own := c.time + (c.hold.map (·.pool.time)).getD 0
        (c.reference = none → reconcileHours v p = p.setSlot n (some { c with reference := some (v, own) })) ∧
          ∀ v0 t0, c.reference = some (v0, t0) →
            (v = v0 → reconcileHours v p = p) ∧
              (v < v0 →
                reconcileHours v p = p.setSlot n (some { c with reference := some (v, own), regressed := true })) ∧
              (v0 < v → p.modeCtl.mode ≠ .active ∨ (v - v0) * 180 ≤ own - t0 + 360 →
                reconcileHours v p = p.setSlot n (some { c with reference := some (v, own) })) ∧
              (v0 < v → p.modeCtl.mode = .active → own - t0 + 360 < (v - v0) * 180 →
                let credit := (v - v0) * 180 - (own - t0) - 180
                let a : Credit := { events := 0, time := credit, place := .unbinned credit, wear := 0, unobserved := credit }
                let c' := c.credit a
                let own' := c'.time + (c'.hold.map (·.pool.time)).getD 0
                reconcileHours v p =
                  { p.setSlot n (some { c' with reference := some (v, own') }) with hire := p.hire.credit n c a })

/-- The abuse monitor. A condition holds exactly when every role it names is usable and every comparison is met, its
value being the followed one (R115). At an interval expiry in ACTIVE each interval kind's episode goes on by its
condition, from run count to extreme, or ends, its mark made when the run reaches the duration; the ENGINE slot's count
rises by 1 for each kind that marks (R113, R115, R117). A mark raises the slot's and the open hire's count, appends a
list entry or sets the overflow flag, counts to the new component of a Confirm Change being written (R73, R117), and
starts a capture when its kind's flag asks for one, which names its number in the entry (R118, R141). A capture with the
drive flag starts the CAPT drive timer at 50 ms (R141); that one without it leaves a running timer as it was is the
model's choice (log 37). In a marked episode a moved extreme becomes the magnitude of its entry (R115). An engagement
closes when a role it needs is not usable, in gear 0, and when the engine leaves RUNNING (R95). Its close credits the
CLUTCH slot and the open hire with one event and its slip time, in the cell of its energy and start speed with that
cell's wear by the coolant's factor, or unbinned without wear when the start speed is absent (R96), and marks it exactly
when its energy is greater than the limit (R116). The order of the kinds in one expiry is the model's choice (log 11).
-/
def Obligations.AbuseEpisodesAndMarks : Prop :=
  (∀ (p : Part) (v : Int),
    let l := p.modeCtl.active.limits
    (abuseCondition .overspeed p = some v ↔ p.usableValue roleEngineSpeed = some v ∧ (l.overspeedSpeed : Int) < v) ∧
      (abuseCondition .coldLoad p = some v ↔ p.usableValue roleCoolant = some v ∧ v < l.coldCoolant ∧
        ∃ torque, p.usableValue roleTorque = some torque ∧ (l.coldTorque : Int) ≤ torque) ∧
      (abuseCondition .lugging p = some v ↔ p.detector.engine = .running ∧ p.usableValue roleEngineSpeed = some v ∧
        v < l.luggingSpeed ∧ ∃ torque, p.usableValue roleTorque = some torque ∧ (l.luggingTorque : Int) ≤ torque)) ∧
  (∀ s : State, s.part.awake = true → s.part.wear.timer.isSome = true → s.part.modeCtl.mode = .active →
    let p := s.part
    let run := fun kind => min (abuseDuration kind p.modeCtl.active.limits) ((p.hire.episode kind).run + 1)
    let marks := fun kind =>
      (abuseCondition kind p).isSome && !(p.hire.episode kind).marked &&
        run kind == abuseDuration kind p.modeCtl.active.limits
    ∃ t, exec .intervalExpiry s = .next t ∧
      (∀ kind ∈ [Cause.overspeed, .coldLoad, .lugging],
        let old := p.hire.episode kind
        let new := t.part.hire.episode kind
        (abuseCondition kind p = none → new = {}) ∧
          (∀ v, abuseCondition kind p = some v →
            new.run = run kind ∧ new.marked = (old.marked || marks kind) ∧
              new.extreme = some
                (match old.extreme with
                | none => v
                | some x => if kind = .overspeed then max x v else min x v)) ∧
          ∀ n c, p.slotOfKind .engine = some n → p.slot n = some c →
            ∃ c', t.part.slot n = some c' ∧
              c'.abuse[kind.num]? = (c.abuse[kind.num]?).map fun x => if marks kind then min 65535 (x + 1) else x)) ∧
  (∀ (p : Part) (kind : Cause) (magnitude : Int), kind.num < 4 →
    let l := p.modeCtl.active.limits.abuse[kind.num]?.getD {}
    let raised := fun counts : Vector Nat 4 =>
      counts.setIfInBounds kind.num (min 65535 ((counts[kind.num]?.getD 0) + 1))
    let owner := p.slotOfKind (if kind = .hotEngagement then .clutch else .engine)
    let entry : AbuseEntry := { kind := kind, clock := p.modeCtl.clock, slot := owner, magnitude := magnitude, capture := none }
    let u := makeMark kind magnitude p
    (∀ n c, owner = some n → p.slot n = some c →
        u.slot n = some { c with abuse := raised c.abuse } ∧
          ∀ record events time units marks rest,
            p.storage.archive = .component record events time units marks :: rest → record.slot = n →
            u.storage.archive.head? = some (.component record events time units (raised marks))) ∧
      (∀ n, owner ≠ some n → u.slot n = p.slot n) ∧
      (l.capture = false →
        u.capture = p.capture ∧ (p.hire.current = none → u.hire = p.hire) ∧
          ∀ h, p.hire.current = some h →
            u.hire =
              { p.hire with
                current := some
                  (if h.abuseList.length < 16 then { h with abuse := raised h.abuse, abuseList := h.abuseList ++ [entry] }
                  else { h with abuse := raised h.abuse, overflow := true }) }) ∧
      ∀ e, l.capture = true → p.capture.anyOpen = false → p.capture.nextNumber ≠ exhausted → p.capture.choose = some e →
        (∃ x, u.capture.entry e = some x ∧ x.number = p.capture.nextNumber ∧ x.cause = kind ∧ x.preAsked = l.pre ∧
            x.postAsked = l.post ∧ x.state = .opened ∧ x.seq = p.ring.next ∧ x.clock = p.modeCtl.clock) ∧
          u.capture.nextNumber = p.capture.nextNumber + 1 ∧
          u.capture.driveTimer = (if l.drive then some 50 else p.capture.driveTimer) ∧
          ∀ h, p.hire.current = some h → h.abuseList.length < 16 →
            u.hire.current = some
              { h with
                abuse := raised h.abuse
                abuseList := h.abuseList ++ [{ entry with capture := some p.capture.nextNumber }] }) ∧
  (∀ (p : Part) (kind : Cause) (v x : Int) (h : HireRecord) (old : AbuseEntry) (position : Nat),
    kind ∈ [Cause.overspeed, .coldLoad, .lugging] → (p.hire.episode kind).marked = true →
    (p.hire.episode kind).extreme = some x → (p.hire.episode kind).mark = some (h.number, position) →
    p.hire.current = some h → h.abuseList[position]? = some old → abuseCondition kind p = some v →
    let extreme := if kind = .overspeed then max x v else min x v
    extreme ≠ x →
    (judgeKind kind p).hire.current = some { h with abuseList := h.abuseList.set position { old with magnitude := extreme } } ∧
      (judgeKind kind p).register = p.register ∧ (judgeKind kind p).capture = p.capture) ∧
  (∀ (p : Part) (e : Engagement), p.clutch.engagement = some e →
    let l := p.modeCtl.active.limits
    let marks := decide (l.hotEnergy < e.energy)
    let row := p.bins .clutch
    let weights := p.weights .clutch
    let energy : Int := e.energy
    let factor :=
      match p.usableValue roleCoolant with
      | some t => (weights.factors[(row.temperature.toList.filter (· ≤ t)).length]?).getD 16
      | none => 16
    let credit : Credit :=
      match e.startSpeed with
      | none => { events := 1, time := e.slipTime, place := .unbinned 1, wear := 0, unobserved := 0 }
      | some v =>
        let cell := (row.load.toList.filter (· ≤ energy)).length * 8 + (row.speed.toList.filter (· ≤ v)).length
        { events := 1, time := e.slipTime, place := .cell cell 1, wear := (weights.cells[cell]?).getD 0 * factor
          unobserved := 0 }
    let credited :=
      match p.slotOfKind .clutch with
      | none => p
      | some n =>
        match p.slot n with
        | none => p
        | some c => { p.setSlot n (some (c.credit credit)) with hire := p.hire.credit n c credit }
    let judged := if marks then makeMark .hotEngagement e.energy credited else credited
    closeEngagement p = { judged with clutch := { p.clutch with engagement := none, carry := 0 } } ∧
      (p.clutchRoles = none → evaluateClutch p = closeEngagement p) ∧
      (∀ engine input torque, p.clutchRoles = some (engine, input, 0, torque) → evaluateClutch p = closeEngagement p) ∧
      (∀ engine, p.detector.engine = .running → engine ≠ .running →
        changeEngine engine p = { closeEngagement p with detector := { p.detector with engine := engine } }) ∧
      (∀ n c, p.slotOfKind .clutch = some n → p.slot n = some c →
        ∃ c', (closeEngagement p).slot n = some c' ∧
          c'.abuse = if marks then c.abuse.set 3 (min 65535 (c.abuse[3] + 1)) else c.abuse) ∧
      ∀ h, p.hire.current = some h → h.abuseList.length < 16 →
        ∃ h', (closeEngagement p).hire.current = some h' ∧
          h'.abuseList.map (fun x => (x.kind, x.slot, x.magnitude)) =
            h.abuseList.map (fun x => (x.kind, x.slot, x.magnitude)) ++
              if marks then [(.hotEngagement, p.slotOfKind .clutch, (e.energy : Int))] else [])

/-! ## Lines, clock and timers (R34 to R37, R124, R137 to R144, R174, R178, R184) -/

/-- The Device Clock's tick adds a second, staying at its limit, on every running part (R37), and on no other, starting
the next second: the model's choice (log 24); the IGN line's level is noted, and its debounce runs for 100 ms exactly
while it differs from the debounced state (R34); the drive timer's expiry releases CAPT (R141). Each changes nothing
else. Without supply a line change only moves the line: the model's reading (log 6). At the end of the debounce an AWAKE
part takes the line's level as its ignition (R34); off stops an engine in UNKNOWN (R49). Nothing else that lasts
changes. -/
def Obligations.ClockLinesAndDebounce : Prop :=
  (∀ s : State,
      (s.part.live = true →
          exec .deviceClockTick s =
            .next { s with
              part := { s.part with
                modeCtl := { s.part.modeCtl with clock := min 4294967295 (s.part.modeCtl.clock + 1), clockPhase := 1000 } } }) ∧
        (s.part.live = false → exec .deviceClockTick s = .next s) ∧
        (∀ level, s.part.powered = true →
          exec (.ignLineChange level) s =
            .next { s with
              part := { s.part with
                lines := { s.part.lines with ign := level }
                modeCtl := { s.part.modeCtl with
                  debounce :=
                    if level = s.part.modeCtl.ignition then none else some (s.part.modeCtl.debounce.getD 100) } } }) ∧
        (∀ level, s.part.powered = false →
          exec (.ignLineChange level) s = .next { s with part := { s.part with lines := { s.part.lines with ign := level } } }) ∧
        exec .captDriveTimerExpiry s =
          .next { s with part := { s.part with capture := { s.part.capture with driveTimer := none } } }) ∧
    (∀ s : State, s.part.awake = true → s.part.modeCtl.debounce.isSome = true →
      let p := s.part
      let m := { p.modeCtl with ignition := p.lines.ign, debounce := none }
      Leaves .ignDebounceExpiry s
        { p with
          modeCtl := m
          detector :=
            if p.lines.ign = false ∧ p.detector.engine = .unknown then { p.detector with engine := .stopped }
            else p.detector }
        fun t => t.modeCtl.ignition = p.lines.ign ∧ t.modeCtl.debounce = none)

/-- The quiet period's timer stops when the engine leaves STOPPED (R53), and after every event of an AWAKE part it runs
exactly while its conditions hold together and no sleep-entry checkpoint is awaited, from 30 s when it was not running
(R35). Its expiry asks for a full checkpoint for sleep entry and waits for it, no wake cause noted yet (R35); nothing
else that lasts changes. The ignition turning on wakes a sleeping part: ports RUNNING, every signal STALE with its value
kept, every role NONE, the engine STOPPED with no attempt, no engagement, an empty ring with its pointer at the next
sequence, the timers started, both channels IDLE and the quiet period not running (R36). The mode, the tables, the
slots, the hire, the closed captures and the medium stay. A port-A frame, a port-B frame carrying a request identifier,
and a request wake it in the same way and are then received as by the part so woken (R3, R36). Any other port-B frame is
counted and discarded, the part staying SLEEPING (R3). -/
def Obligations.QuietExpiryAndWake : Prop :=
  (∀ (p : Part) (engine : EngineState), p.detector.engine = .stopped → engine ≠ .stopped →
    (changeEngine engine p).modeCtl.quiet = none) ∧
  (∀ (m : Medium) (p : Part), p.awake = true →
    let q := settle m p
    q.modeCtl.quiet =
      if q.modeCtl.ignition = false ∧ q.detector.engine = .stopped ∧ (q.chan .fleet).state = .idle ∧
          (q.chan .service).state = .idle ∧ q.capture.anyOpen = false ∧ q.modeCtl.save = .idle ∧
          q.modeCtl.sleepWait = none ∧ q.storage.bus = none ∧ q.storage.short.state = .idle ∧
          q.storage.full.state = .idle ∧ q.storage.archive = [] ∧ q.storage.captureJobs = [] ∧ q.storage.readers = [] then
        some (p.modeCtl.quiet.getD 30000)
      else none) ∧
  (∀ s : State, s.part.awake = true → s.part.modeCtl.quiet.isSome = true →
    Leaves .quietPeriodExpiry s s.part fun t =>
      t.modeCtl.sleepWait = some false ∧ t.modeCtl.quiet = none ∧ t.checkpointing = true ∧ t.modeCtl.asleep = false) ∧
  (∀ s : State, s.part.live = true → s.part.modeCtl.asleep = true → s.part.modeCtl.debounce.isSome = true →
    s.part.lines.ign = true → s.part.storage.readers = [] →
    ∃ t, exec .ignDebounceExpiry s = .next t ∧ t.part.awake = true ∧ t.part.modeCtl.ignition = true ∧
      t.part.portA.state = .running ∧ t.part.portB.state = .running ∧
      t.part.signals = s.part.signals.map (fun x => { x with status := .stale, deadline := none }) ∧
      t.part.roles = s.part.roles.map (fun r => { r with source := .none, returns := 0 }) ∧
      t.part.detector = { engine := .stopped, attempt := none, windowA := none, windowB := none, firstRun := true } ∧
      t.part.clutch = { timer := some 100, engagement := none, carry := 0 } ∧ t.part.wear.timer = some 1000 ∧
      t.part.ring.records = [] ∧ t.part.ring.pointer = s.part.ring.next ∧ t.part.ring.next = s.part.ring.next ∧
      (t.part.chan .fleet).state = .idle ∧ (t.part.chan .service).state = .idle ∧ t.part.modeCtl.quiet = none ∧
      t.part.link.statusTimer = some 1000 ∧ t.part.modeCtl.mode = s.part.modeCtl.mode ∧
      t.part.modeCtl.active = s.part.modeCtl.active ∧ t.part.register.slots = s.part.register.slots ∧
      t.part.hire = s.part.hire ∧ t.part.capture.entries = s.part.capture.entries ∧ t.medium = s.medium ∧
      t.pending = s.pending) ∧
  (∀ s : State, s.part.live = true → s.part.modeCtl.asleep = true →
    let p := s.part
    let idle := fun c : Chan =>
      { c with
        state := .idle, buffer := [], length := 0, expected := 0, gap := none, outbox := [], offered := false
        restartAfter := false, busyA := none, busyB := none }
    let woken : Part :=
      { p with
        portA := { p.portA with state := .running }
        portB := { p.portB with state := .running }
        signals := p.signals.map fun x => { x with status := .stale, deadline := none }
        roles := p.roles.map fun r => { r with source := .none, returns := 0 }
        detector := { engine := .stopped, attempt := none, windowA := none, windowB := none, firstRun := true }
        clutch := { timer := some 100, engagement := none, carry := 0 }
        wear := { p.wear with timer := some 1000, running := Vector.replicate 12 false }
        ring := { p.ring with
          records := [], pointer := p.ring.next, age := none, waitingService := none, waitingFleet := none
          waitingStatus := none, queueA := [] }
        capture := { p.capture with queue := [], copier := none, postTimeout := none, driveTimer := none }
        modeCtl := { p.modeCtl with asleep := false, quiet := none, sleepWait := none }
        link := { p.link with fleet := idle p.link.fleet, service := idle p.link.service, statusTimer := some 1000 } }
    (∀ port f svc, frameOk f = true → (p.port port).state ≠ .busOff →
        ((port = .a ∨ (f.format = .base ∧ (f.ident = 0x6E0 ∨ f.ident = 0x6F0))) →
            exec (.dataFrameReceived port f svc) s = exec (.dataFrameReceived port f svc) { s with part := woken }) ∧
          (port = .b → ¬(f.format = .base ∧ (f.ident = 0x6E0 ∨ f.ident = 0x6F0)) →
            Leaves (.dataFrameReceived port f svc) s
              { p with portB := { p.portB with received := min 4294967295 (p.portB.received + 1) } }
              fun t => t.modeCtl.asleep = true ∧ t.portB.state = p.portB.state)) ∧
      ∀ i src msg, wellFormed i = true → requestOf i = some (src, msg) → (p.port (sourcePort src)).state ≠ .busOff →
        exec i s = exec i { s with part := woken })

/-- A fall of CAPT, with the trigger flag set, the part not driving the line and no capture OPEN, starts a capture in
the chosen entry, filled from the moment of the fall; the available pre is the smallest of the pre asked, the ring's
fill and 4,080 less the post asked (R137 to R139, R141). With the flag clear, or while the part drives the line, it does
nothing; with a capture OPEN the trigger queues behind fewer than two others and is missed behind two (R140). -/
def Obligations.CaptFallTriggers : Prop :=
  ∀ s : State, s.part.awake = true →
    let p := s.part
    let l := p.modeCtl.active.limits
    (l.captTrigger = false ∨ p.capture.driveTimer.isSome = true → Leaves .captLineFall s p fun _ => True) ∧
      (l.captTrigger = true → p.capture.driveTimer = none →
        (∀ e, p.capture.anyOpen = false → p.capture.nextNumber ≠ exhausted → p.capture.choose = some e →
          p.ring.fill ≤ 4096 →
          ∃ t, exec .captLineFall s = .next t ∧
            t.part.capture.entry e = some
              { number := p.capture.nextNumber, cause := .captLine, clock := p.modeCtl.clock, sync := p.modeCtl.sync
                ringTime := p.ring.time, seq := p.ring.next, preAsked := l.captPre, postAsked := l.captPost
                available := min l.captPre (min p.ring.fill (4080 - l.captPost)), stored := 0, lost := 0
                state := .opened, locked := false, read := false } ∧
            (∀ k, k ≠ e → t.part.capture.entry k = p.capture.entry k) ∧
            t.part.capture.nextNumber = p.capture.nextNumber + 1 ∧ t.part.capture.missed = p.capture.missed ∧
            t.part.hire = p.hire ∧ t.part.register.slots = p.register.slots ∧ t.medium = s.medium ∧
            t.pending = s.pending) ∧
          (p.capture.anyOpen = true → p.capture.queue.length < 2 →
            ∃ t trigger, exec .captLineFall s = .next t ∧
              t.part.capture = { p.capture with queue := p.capture.queue ++ [trigger] } ∧
              trigger.cause = .captLine ∧ trigger.seq = p.ring.next ∧ t.medium = s.medium ∧ t.pending = s.pending) ∧
          (p.capture.anyOpen = true → 2 ≤ p.capture.queue.length →
            Leaves .captLineFall s
              { p with capture := { p.capture with missed := min 65535 (p.capture.missed + 1) } } fun _ => True))

/-- The post timeout's expiry cuts the window of the OPEN capture to the last record received, unless it ends lower
already; no entry changes (R144). The age deadline of the only waiting record expires: the expired count rises by 1 and
the pointer stands at the next sequence, with no deadline running (R124). The reply timeout: a probe is answered
NO_REPLY, the reply frame absent behind its flag byte (R190; that it is one result with one flag is the model's reading,
log 12); the third unanswered attempt of a verification leaves a COUNTING slot UNVERIFIED and its silent-cycle count one
higher, up to 255; an earlier one leaves the slot as it was and the next attempt follows (R67, R68, R72). The gap
timer's expiry abandons the message being received: the channel is IDLE and one more message counts as abandoned (R174).
A response frame's timeout, where the frame waits or in the transmitter, withdraws it and abandons the response: the
channel is IDLE and one more response counts as abandoned. A BUSY answer's only withdraws it (R178); that it runs while
the answer is still held back is the model's choice (log 45). The scan timer's expiry answers SUSPENDED with the number
next to be examined, the records left and those skipped, and withdraws the pending read (R189). -/
def Obligations.TimerExpiriesAct : Prop :=
  (∀ (s : State) (k : Copier), s.part.awake = true → s.part.capture.postTimeout.isSome = true →
      s.part.capture.copier = some k →
      let r := s.part.ring
      ∃ t k', exec .postTimeoutExpiry s = .next t ∧ t.part.capture.postTimeout = none ∧
        t.part.capture.copier = some k' ∧ k'.entry = k.entry ∧
        k'.windowEnd = (if r.distance (r.next - 1) < r.distance k.windowEnd then r.next - 1 else k.windowEnd) ∧
        t.part.capture.entries = s.part.capture.entries ∧ t.part.capture.queue = s.part.capture.queue ∧
        t.part.ring.next = r.next ∧ t.part.hire = s.part.hire ∧ t.part.register.slots = s.part.register.slots ∧
        t.medium = s.medium ∧ t.pending = s.pending) ∧
    (∀ s : State, s.part.awake = true → s.part.ring.age.isSome = true →
      s.part.ring.distance s.part.ring.pointer < 0 →
      (∀ r ∈ s.part.ring.records, r.waiting = true → r.sequence = s.part.ring.pointer) →
      Leaves .ageDeadlineExpiry s s.part fun t =>
        t.ring.expired = min 4294967295 (s.part.ring.expired + 1) ∧ t.ring.pointer = s.part.ring.next ∧ t.ring.age = none) ∧
  (∀ (s : State) (q : Query), s.part.awake = true → s.part.register.query = some q →
    (q.forProbe = true → s.part.outgoing .service = [] → (∀ r ∈ s.part.storage.readers, r.ch ≠ .service) →
        Leaves .replyTimeout s s.part fun t =>
          t.responds .service ([0x19, 0x00, 0x00] ++ List.replicate 14 0)) ∧
      ∀ h c, q.forProbe = false → s.part.register.inHand = some h → s.part.slot h.slot = some c →
        (3 ≤ h.attempt →
            Leaves .replyTimeout s
              (s.part.setSlot h.slot (some
                { c with
                  verification := if c.hold = none then .unverified else c.verification
                  silent := min 255 (c.silent + 1) }))
              fun _ => True) ∧
          (h.attempt < 3 →
            Leaves .replyTimeout s s.part fun t =>
              c.query.isSome = true → s.part.register.waitingProbe = none →
                t.register.inHand = some { h with attempt := h.attempt + 1 } ∧ t.register.query.isSome = true)) ∧
  (∀ (ch : Channel) (port : PortId) (s : State), s.part.awake = true → (∀ r ∈ s.part.storage.readers, r.ch ≠ ch) →
      let c := s.part.chan ch
      let dropped := s.part.setChan ch { c with abandonedResponses := min 65535 (c.abandonedResponses + 1) }
      (c.state = .receiving → c.gap.isSome = true →
          Leaves (.gapTimerExpiry ch) s (s.part.setChan ch { c with abandoned := min 65535 (c.abandoned + 1) })
            fun t => (t.chan ch).state = .idle ∧ (t.chan ch).buffer = [] ∧ (t.chan ch).gap = none) ∧
        (∀ f, s.part.ring.waitingOf ch port = some f →
          (f.source = .response ch → c.restartAfter = false →
            Leaves (.responseTimeout (.waiting ch port)) s dropped fun t =>
              (t.chan ch).state = .idle ∧ (t.chan ch).outbox = []) ∧
          (f.source = .busy ch →
            Leaves (.responseTimeout (.waiting ch port)) s s.part fun t => (t.chan ch).state = c.state)) ∧
        (∀ f, (s.part.port port).tx = some f → f.timeout.isSome = true →
          (f.source = .response ch → c.restartAfter = false →
            Leaves (.responseTimeout (.transmitter port)) s dropped fun t =>
              (t.chan ch).state = .idle ∧ (t.chan ch).outbox = []) ∧
          (f.source = .busy ch →
            Leaves (.responseTimeout (.transmitter port)) s s.part fun t => (t.chan ch).state = c.state)) ∧
        Leaves (.responseTimeout (.held ch port)) s s.part fun t =>
          (t.chan ch).busyAt port = none ∧ (t.chan ch).state = c.state) ∧
    (∀ (ch : Channel) (s : State) (r : Reader) (next remaining field sense value skipped timer : Nat),
      s.part.awake = true → s.part.outgoing ch = [] → s.part.storage.readers.find? (·.ch == ch) = some r →
      r.task = .scan next remaining field sense value skipped timer →
      Leaves (.scanTimerExpiry ch) s s.part fun t =>
        t.responds ch ([0x41, 0x00, 0x02] ++ beBytes 4 next ++ beBytes 2 remaining ++ beBytes 2 skipped) ∧
          ∀ x ∈ t.storage.readers, x.ch ≠ ch)

/-- The status timer's expiry starts its next second and makes a status frame of the moment, on 0x6E9, which waits at
the port B arbiter or stands in port B's transmitter (R129, R184). Its bytes (R191): the mode; the ignition, SYNC,
hire-open and dropped flags; the engine state; the first condition that is not masked and how many there are; the open
hire's number cut to two bytes; the length of the closed-hire queue. -/
def Obligations.StatusFrameShowsState : Prop :=
  ∀ s : State, s.part.awake = true → s.part.link.statusTimer.isSome = true → s.part.hire.queue.length ≤ 8 →
    let p := s.part
    let shown := (List.range' 1 10).filter fun c => p.condition c && !p.link.mask.getLsbD (c - 1)
    ∃ b : List Byte,
      (Leaves .statusTimerExpiry s { p with link := { p.link with statusTimer := some 1000 } } fun t =>
        let f : TxFrame := { frame := { format := .base, ident := 0x6E9, data := b }, source := .status, timeout := none }
        t.ring.waitingStatus = some f ∨ t.portB.tx = some f) ∧
      b.length = 8 ∧ (b[0]?.map BitVec.toNat) = some p.modeCtl.mode.num ∧
      (b[1]?.map fun x => (x.getLsbD 0, x.getLsbD 1, x.getLsbD 2, x.getLsbD 3)) =
        some (p.modeCtl.ignition, p.modeCtl.sync, p.hire.current.isSome, p.hire.dropped) ∧
      (b[2]?.map BitVec.toNat) = some p.detector.engine.num ∧ (b[3]?.map BitVec.toNat) = some (shown.headD 0) ∧
      (b[4]?.map BitVec.toNat) = some shown.length ∧
      natAt b 5 2 = ((p.hire.current.map (·.number)).getD 0) % 65536 ∧
      (b[7]?.map BitVec.toNat) = some p.hire.queue.length

/-! ## Requests: admission (R172, R175, R176) -/

/-- A whole request on a channel that is PROCESSING or RESPONDING changes nothing that lasts but the count of BUSY
answers, up by 1, and makes a BUSY answer for its port, unless one waits on that port already; then it is discarded and
not counted (R175). A BUSY answer waits while it is held or offered, and no more once it stands in the transmitter: the
model's reading (log 21). -/
def Obligations.BusyChannelAnswersBusy : Prop :=
  ∀ (i : Instr) (src : Source) (msg : List Byte) (s : State), requestOf i = some (src, msg) → s.part.awake = true →
    (s.part.port (sourcePort src)).state ≠ .busOff → (∀ r ∈ s.part.storage.readers, r.ch ≠ sourceChannel src) →
    let ch := sourceChannel src
    let c := s.part.chan ch
    c.state = .processing ∨ c.state = .responding →
    (s.part.busyWaiting ch (sourcePort src) = true →
        Leaves i s s.part fun t => (t.chan ch).state = c.state) ∧
      (s.part.busyWaiting ch (sourcePort src) = false →
        Leaves i s (s.part.setChan ch { c with busyAnswers := min 65535 (c.busyAnswers + 1) }) fun t =>
          (t.chan ch).state = c.state ∧
            (((t.chan ch).busyAt (sourcePort src)).map (·.code) = some (byteAt msg 0) ∨
              ∃ f ∈ t.placedFrames, f.source = .busy ch ∧ f.frame.data = [0x02, byteAt msg 0, 0x01]))

/-- A message whose length does not fit its code is refused MALFORMED, one whose code the part does not know
UNKNOWN_REQUEST, each before any other check; a known Service request with the SVC line inactive is refused
SERVICE_LINE_OFF (R176). A refusal changes nothing that lasts. -/
def Obligations.FirstRefusals : Prop :=
  ∀ (i : Instr) (src : Source) (msg : List Byte) (s : State), wellFormed i = true → requestOf i = some (src, msg) →
    Ready src s →
    (lengthFits msg = false → Answers i src s [byteAt msg 0, 0x10] s.part) ∧
      (codeLength (byteAt msg 0).toNat = none → Answers i src s [byteAt msg 0, 0x11] s.part) ∧
      (∀ code args, i = .unknownRequest src code args →
        Answers (.unknownRequest src code args) src s [code, 0x11] s.part) ∧
      (∀ port, src = .service port false → lengthFits msg = true → codeLength (byteAt msg 0).toNat ≠ none →
        Answers i src s [byteAt msg 0, 0x13] s.part)

/-- The requests of the Service channel alone are refused NOT_PERMITTED on the Fleet channel, Write Table among them,
and those of the Fleet channel alone on the Service channel (R176, 10.3); a Set Mode that involves SETUP is a Service
request (R24). The requests that need the engine STOPPED are refused ENGINE_RUNNING in any other engine state, in a mode
they are taken in: Restart, Clear All, the slot requests, and Set Mode into SETUP as out of it (R24, R39, R40, R62, R64,
R73 to R75, R176). -/
def Obligations.LevelAndEngineAreChecked : Prop :=
  (∀ (s : State) (slot : Byte) (args : InstallArgs) (query : ProbeArgs) (events time wear : Word32) (port : PortId)
      (mask : BitVec 16) (table item : Byte) (contents : List Byte),
      (Ready .fleet s →
          Answers (.restart .fleet) .fleet s [0x05, 0x12] s.part ∧
            Answers (.clearAll .fleet) .fleet s [0x06, 0x12] s.part ∧
            Answers (.installComponent .fleet args) .fleet s [0x13, 0x12] s.part ∧
            Answers (.removeComponent .fleet slot) .fleet s [0x14, 0x12] s.part ∧
            Answers (.confirmChange .fleet slot events time wear) .fleet s [0x15, 0x12] s.part ∧
            Answers (.adoptIdentity .fleet slot) .fleet s [0x16, 0x12] s.part ∧
            Answers (.dismissMismatch .fleet slot) .fleet s [0x17, 0x12] s.part ∧
            Answers (.probe .fleet query) .fleet s [0x19, 0x12] s.part ∧
            Answers (.setMode .fleet 0x00) .fleet s [0x03, 0x12] s.part ∧
            (itemFits table contents = true →
              Answers (.writeTable .fleet table item contents) .fleet s [0x08, 0x12] s.part) ∧
            (s.part.modeCtl.mode = .setup → Answers (.setMode .fleet slot) .fleet s [0x03, 0x12] s.part)) ∧
        (Ready (.service port true) s →
          Answers (.collectHire (.service port true)) (.service port true) s [0x23, 0x12] s.part ∧
            Answers (.setConditionMask (.service port true) mask) (.service port true) s [0x4A, 0x12] s.part)) ∧
    (∀ (s : State) (port : PortId) (slot : Byte) (args : InstallArgs) (events time wear : Word32),
      let src : Source := .service port true
      Ready src s → s.part.detector.engine ≠ .stopped →
      Answers (.restart src) src s [0x05, 0x15] s.part ∧
        (s.part.modeCtl.mode = .setup → Answers (.clearAll src) src s [0x06, 0x15] s.part) ∧
        (s.part.modeCtl.mode ≠ .active →
          Answers (.installComponent src args) src s [0x13, 0x15] s.part ∧
            Answers (.removeComponent src slot) src s [0x14, 0x15] s.part) ∧
        Answers (.confirmChange src slot events time wear) src s [0x15, 0x15] s.part ∧
        Answers (.adoptIdentity src slot) src s [0x16, 0x15] s.part ∧
        Answers (.dismissMismatch src slot) src s [0x17, 0x15] s.part ∧
        (s.part.modeCtl.mode ≠ .setup → Answers (.setMode src 0x00) src s [0x03, 0x15] s.part) ∧
        (s.part.modeCtl.mode = .setup → ∀ target : Mode, target ≠ .setup →
          Answers (.setMode src (BitVec.ofNat 8 target.num)) src s [0x03, 0x15] s.part))

/-! ## Requests: reads -/

/-- The requests that only read answer DONE with what they read as it stands, and change nothing that lasts (R22, R38,
R56, R76, R100, R106, R135, R150, R170, R181). The model's choices in them (log 12): Read Open Hire's mark byte before
the hire's content, next index 2 with 0 remaining of section PORTS, an EMPTY slot's number and state alone, the rounding
of Read Live Values, what Storage Status counts as waiting, which results of Read Mode State, Read Directory and Storage
Status may be absent, and which attempt Read Slot names between two; and numbers beyond their bytes (log 35). Describe,
on either channel and in every mode and engine state, returns the vendor code, part code, revision and 6-byte serial
fixed at manufacture and the storage size of 4,096 pages of 256 bytes (R185; the widths of the codes: log 10). -/
def Obligations.ReadsChangeNothing : Prop :=
  (∀ (src : Source) (s : State), Ready src s → permitted src = true →
    let p := s.part.taken src
    (∀ area first : Byte, area.toNat ≤ 2 → (area = 1 → first.toNat ≤ 63) → (area = 2 → first.toNat ≤ 47) →
        Answers (.readDecoderState src area first) src s ([0x07, 0x00] ++ decoderState p area.toNat first.toNat) s.part) ∧
      Answers (.readModeState src) src s ([0x02, 0x00] ++ modeState p) s.part ∧
      Answers (.readLiveValues src) src s ([0x10, 0x00] ++ liveValues p) s.part ∧
      (∀ slot : Byte, slot.toNat ≤ 11 →
        Answers (.readSlot src slot) src s ([0x11, 0x00] ++ slotResult p slot.toNat) s.part ∧
          (s.part.slot slot.toNat = none → slotResult p slot.toNat = [slot, 0x00] ∧
            Answers (.readSpectrum src slot) src s [0x12, 0x20] s.part) ∧
          ∀ c, s.part.slot slot.toNat = some c →
            Answers (.readSpectrum src slot) src s ([0x12, 0x00] ++ spectrumResult p c) s.part) ∧
      (∀ h, s.part.hire.current = some h →
        Answers (.readOpenHire src) src s ([0x22, 0x00, 0x00] ++ hireContent h) s.part) ∧
      (∀ h, s.part.hire.current = none → s.part.hire.closing = some h →
        Answers (.readOpenHire src) src s ([0x22, 0x00, 0x01] ++ hireContent h) s.part) ∧
      (s.part.hire.current = none → s.part.hire.closing = none →
        Answers (.readOpenHire src) src s [0x22, 0x25] s.part) ∧
      Answers (.readForwardingCounters src) src s ([0x28, 0x00] ++ forwardingCounters p) s.part ∧
      Answers (.readDirectory src) src s ([0x34, 0x00] ++ directoryResult p) s.part ∧
      Answers (.storageStatus src) src s ([0x39, 0x00] ++ storageStatus p) s.part ∧
      Answers (.readConditions src) src s ([0x48, 0x00] ++ conditionsResult p) s.part) ∧
  (∀ (src : Source) (s : State), Ready src s → permitted src = true →
    Answers (.describe src) src s
      ([0x01, 0x00] ++ beBytes 2 Config.vendorCode.toNat ++ beBytes 2 Config.partCode.toNat ++
        beBytes 1 Config.revision.toNat ++ beBytes 6 Config.partSerial.toNat ++ [0x10, 0x00, 0x01, 0x00]) s.part)

/-- Read Table, on either channel and in every mode and engine state, returns the item of the pending set in SETUP and
of the active set otherwise, and says which; it is refused BUSY while the table save state is not IDLE, and BAD_ARGUMENT
for an index out of range. It changes nothing that lasts (R30). -/
def Obligations.ReadTableReadsModesSet : Prop :=
  ∀ (src : Source) (table item : Byte) (s : State), Ready src s → permitted src = true →
    let m := s.part.modeCtl
    (table.toNat ≤ 6 → item.toNat < itemCount table.toNat →
        (m.save ≠ .idle → Answers (.readTable src table item) src s [0x09, 0x01] s.part) ∧
          (m.save = .idle → m.mode = .setup →
            Answers (.readTable src table item) src s
              ([0x09, 0x00] ++ m.pendingSet.itemBytes table.toNat item.toNat ++ [0x00]) s.part) ∧
          (m.save = .idle → m.mode ≠ .setup →
            Answers (.readTable src table item) src s
              ([0x09, 0x00] ++ m.active.itemBytes table.toNat item.toNat ++ [0x01]) s.part)) ∧
      (6 < table.toNat → Answers (.readTable src table item) src s [0x09, 0x16, 0x00] s.part) ∧
      (table.toNat ≤ 6 → itemCount table.toNat ≤ item.toNat →
        Answers (.readTable src table item) src s [0x09, 0x16, 0x01] s.part)

/-- Acknowledge Conditions, on either channel and in every mode and engine state, clears each latched condition it lists
and leaves the standing ones and those not listed; its response carries the set that remains. A number outside 1 to 10
is refused with its index (R182). -/
def Obligations.AcknowledgeClearsLatched : Prop :=
  ∀ (src : Source) (numbers : List Byte) (s : State), Ready src s → permitted src = true → 1 ≤ numbers.length →
    numbers.length ≤ 10 →
    ((∀ n ∈ numbers, 1 ≤ n.toNat ∧ n.toNat ≤ 10) →
        let l := s.part.link
        let p := { s.part with
          link := { l with
            tableInvalid := l.tableInvalid && !numbers.contains 2
            roleLost := l.roleLost && !numbers.contains 5
            supplyGap := l.supplyGap && !numbers.contains 6
            forwardOverrun := l.forwardOverrun && !numbers.contains 7
            captureReady := l.captureReady && !numbers.contains 8 } }
        Answers (.acknowledgeConditions src numbers) src s
            ([0x49, 0x00] ++ ((List.range' 1 10).filter p.condition).map (BitVec.ofNat 8)) p ∧
          ∀ c, conditionStanding c = true → p.condition c = s.part.condition c) ∧
      ∀ k, (∀ j n, j < k → numbers[j]? = some n → 1 ≤ n.toNat ∧ n.toNat ≤ 10) →
        (∃ n, numbers[k]? = some n ∧ (n.toNat < 1 ∨ 10 < n.toNat)) →
        Answers (.acknowledgeConditions src numbers) src s [0x49, 0x16, BitVec.ofNat 8 k] s.part

/-! ## Requests: settings and modes -/

/-- Set Clock: the clock takes the value at once and SYNC is set (R37). Set Condition Mask, on the Fleet channel: the
mask is replaced by the set given, a bit beyond the ten refused (R183). Lock and Unlock Capture set and clear the locked
flag of the entry holding the number; a number held by none is refused (R148). -/
def Obligations.SettingsActAtOnce : Prop :=
  ∀ (src : Source) (s : State), Ready src s → permitted src = true →
    (∀ value : Word32,
        Answers (.setClock src value) src s [0x04, 0x00]
          { s.part with modeCtl := { s.part.modeCtl with clock := value.toNat, sync := true } }) ∧
      (∀ mask : BitVec 16, src = .fleet →
        (mask.toNat < 1024 →
          Answers (.setConditionMask src mask) src s [0x4A, 0x00]
            { s.part with link := { s.part.link with mask := BitVec.ofNat 10 mask.toNat } }) ∧
        (1024 ≤ mask.toNat → Answers (.setConditionMask src mask) src s [0x4A, 0x16, 0x00] s.part)) ∧
      ∀ number : Word32,
        (s.part.capture.entryOf number.toNat = none →
          Answers (.lockCapture src number) src s [0x31, 0x16, 0x00] s.part ∧
            Answers (.unlockCapture src number) src s [0x32, 0x16, 0x00] s.part) ∧
        ∀ e x, s.part.capture.entryOf number.toNat = some e → s.part.capture.entry e = some x →
          let locked := fun b : Bool =>
            { s.part with
              capture := { s.part.capture with entries := s.part.capture.entries.setIfInBounds e (some { x with locked := b }) } }
          Answers (.lockCapture src number) src s [0x31, 0x00] (locked true) ∧
            Answers (.unlockCapture src number) src s [0x32, 0x00] (locked false)

/-- Set Mode: PAUSED and ACTIVE are exchanged at once, and SETUP entered with the engine STOPPED makes the pending set a
copy of the active set and the validation result none; each is followed by a full checkpoint (R24 to R26). A change out
of ACTIVE closes an open engagement first, with its credit (R25). A target equal to the mode is answered and changes
nothing. Out of SETUP a set that fails validation is refused with its reason and item, and one that passes starts the
table save, the channel staying PROCESSING (R27). -/
def Obligations.SetModeChangesMode : Prop :=
  ∀ (src : Source) (s : State), Ready src s → permitted src = true → s.part.modeCtl.save = .idle →
    let p := s.part
    let left := if p.modeCtl.mode = .active then closeEngagement p else p
    let h := { left.hire with overspeed := {}, coldLoad := {}, lugging := {} }
    (p.modeCtl.mode = .paused →
        Answers (.setMode src 0x02) src s [0x03, 0x00]
          { p with
            hire := h
            wear := { p.wear with running := Vector.replicate 12 false }
            modeCtl := { p.modeCtl with mode := .active } }
          fun t => t.checkpointing = true) ∧
      (p.modeCtl.mode = .active →
        Answers (.setMode src 0x01) src s [0x03, 0x00]
          { left with hire := h, modeCtl := { p.modeCtl with mode := .paused } } fun t => t.checkpointing = true) ∧
      (∀ target : Mode, p.modeCtl.mode = target → (target = .setup → serviceOn src = true) →
        Answers (.setMode src (BitVec.ofNat 8 target.num)) src s [0x03, 0x00] p) ∧
      (serviceOn src = true → p.detector.engine = .stopped →
        (p.modeCtl.mode ≠ .setup → p.hire.current = none → p.hire.closing = none → p.capture.anyOpen = false →
            Answers (.setMode src 0x00) src s [0x03, 0x00]
              { left with
                hire := h
                modeCtl := { p.modeCtl with mode := .setup, pendingSet := p.modeCtl.active, validation := .none } }
              fun t => t.checkpointing = true) ∧
          ∀ target : Mode, target ≠ .setup → p.modeCtl.mode = .setup → p.hire.closing = none →
            (∀ reason index, validate p.register p.modeCtl.pendingSet = some (reason, index) →
              Answers (.setMode src (BitVec.ofNat 8 target.num)) src s
                [0x03, 0x29, BitVec.ofNat 8 reason, BitVec.ofNat 8 index]
                { p with modeCtl := { p.modeCtl with validation := .failed reason index } }) ∧
            (validate p.register p.modeCtl.pendingSet = none →
              Processes (.setMode src (BitVec.ofNat 8 target.num)) src s
                { p with modeCtl := { p.modeCtl with save := .saving target, savePage := 0 } }))

/-- Write Table in SETUP on the Service channel replaces the item in the pending set alone; a table, index or field out
of range is refused with the index of the argument at fault and leaves the set (R29); in another mode WRONG_MODE (R176),
and while the table save runs BUSY (R28). A table number above 6 is out of range whatever its contents, of a length that
the code allows (R29, R191). -/
def Obligations.WriteTableEditsPendingSet : Prop :=
  ∀ (port : PortId) (table item : Byte) (bytes : List Byte) (s : State),
    let src : Source := .service port true
    let m := s.part.modeCtl
    Ready src s → itemFits table bytes = true →
    (m.mode ≠ .setup → Answers (.writeTable src table item bytes) src s [0x08, 0x14] s.part) ∧
      (m.mode = .setup →
        (6 < table.toNat → Answers (.writeTable src table item bytes) src s [0x08, 0x16, 0x00] s.part) ∧
          (table.toNat ≤ 6 → itemCount table.toNat ≤ item.toNat →
            Answers (.writeTable src table item bytes) src s [0x08, 0x16, 0x01] s.part) ∧
          (table.toNat ≤ 6 → item.toNat < itemCount table.toNat →
            (∀ k, m.pendingSet.withItem table.toNat item.toNat bytes = .error k →
              Answers (.writeTable src table item bytes) src s [0x08, 0x16, BitVec.ofNat 8 k] s.part) ∧
            ∀ set, m.pendingSet.withItem table.toNat item.toNat bytes = .ok set →
              (m.save ≠ .idle → Answers (.writeTable src table item bytes) src s [0x08, 0x01] s.part) ∧
                (m.save = .idle →
                  Answers (.writeTable src table item bytes) src s [0x08, 0x00]
                    { s.part with modeCtl := { m with pendingSet := set } })))

/-- Restart, Clear All and Checkpoint Now keep their channel PROCESSING. Restart and Checkpoint Now wait for a full
checkpoint and change nothing else that lasts (R39, R158, R169). Clear All empties the slots, the hire, the captures and
their numberings at once, keeps tables, mode, clock, latched conditions and what port A has to send (R134), and hands
its invalidation to the storage arbiter (R40). That what other requesters have at the arbiter stays there is the model's
reading (log 44). -/
def Obligations.CheckpointRequestsWait : Prop :=
  ∀ (src : Source) (s : State), Ready src s → permitted src = true →
    Processes (.checkpointNow src) src s s.part (fun t => t.awaitsCheckpoint (.checkpointNow (sourceChannel src))) ∧
      (serviceOn src = true → s.part.detector.engine = .stopped → s.part.capture.anyOpen = false →
        s.part.hire.closing = none → s.part.modeCtl.save = .idle →
        Processes (.restart src) src s s.part (fun t => t.awaitsCheckpoint .restart) ∧
          (s.part.modeCtl.mode = .setup → s.part.storage.releasing = false →
            Processes (.clearAll src) src s
              { s.part with
                register := {}
                hire := {}
                capture := {}
                wear := { s.part.wear with running := Vector.replicate 12 false, countdown := 0 }
                clutch := { s.part.clutch with engagement := none, carry := 0 }
                storage := { s.part.storage with archive := s.part.storage.archive ++ [.invalidate none] } }
              fun t => (s.part.portA.tx.toList ++ s.part.ring.queueA).map (·.frame) <+:
                (t.portA.tx.toList ++ t.ring.queueA).map (·.frame)))

/-! ## Requests: components, hires, captures, records -/

/-- An Install that passes every check fills its EMPTY slot at once with the starting figures, a clear spectrum and
unbinned equal to the starting time or events, clears the slot's running flag, is answered DONE and followed by a full
checkpoint (R62, R63, R86). -/
def Obligations.InstallFillsSlot : Prop :=
  ∀ (port : PortId) (a : InstallArgs) (kind : Kind) (s : State),
    let src : Source := .service port true
    let p := s.part
    let n := a.slot.toNat
    Ready src s → p.modeCtl.mode ≠ .active → p.detector.engine = .stopped → n ≤ 11 →
    Kind.ofNat? a.kind.toNat = some kind → a.flags.toNat < 4 → installQueryFits a = true → a.wear.toNat ≤ 99999999 →
    p.hire.current = none → p.hire.closing = none → p.slot n = none →
    p.register.slots.toList.countP (fun c => c.any (·.kind == kind)) < kind.limit →
    ∃ c : Component,
      Answers (.installComponent src a) src s [0x13, 0x00] (setRunning n false (p.setSlot n (some c)))
        (fun t => t.checkpointing = true) ∧
      c.kind = kind ∧ c.hold = none ∧ c.identity = (if a.flags.getLsbD 0 then some a.identity else none) ∧
      c.query.isSome = a.flags.getLsbD 1 ∧
      c.verification = (if a.flags.getLsbD 1 then .pending else .notApplicable) ∧ c.installClock = p.modeCtl.clock ∧
      c.events = a.events.toNat ∧ c.time = a.time.toNat ∧ c.units = a.wear.toNat ∧
      c.residue = (if a.wear.toNat = 99999999 then 15999 else 0) ∧
      c.unbinned = (if kind.continuous then a.time.toNat else a.events.toNat) ∧ c.unobserved = 0 ∧
      c.cells = Vector.replicate 64 0 ∧ c.generation = 0 ∧ c.silent = 0 ∧ c.abuse = Vector.replicate 4 0 ∧
      c.uncertain = 0 ∧ c.failedStarts = 0 ∧ c.reference = none ∧ c.regressed = false ∧
      (c.saturated = true ↔ a.events.toNat = 4294967295 ∨ a.time.toNat = 4294967295 ∨ a.wear.toNat = 99999999)

/-- Remove and Confirm Change hand the slot's record, with the next archive number, to the archive level and keep their
channel PROCESSING, the slot as it stands meanwhile (R64, R65, R73). Adopt Identity and Dismiss Mismatch merge the pool
at once, and a full checkpoint follows (R74, R75). -/
def Obligations.SlotRequestsAct : Prop :=
  ∀ (port : PortId) (slot : Byte) (events time wear : Word32) (s : State) (c : Component),
    let src : Source := .service port true
    let p := s.part
    let n := slot.toNat
    let st := p.storage
    let job := fun (cause : ArchiveCause) (successor : Serial) (events time wear : Nat) =>
      ArchiveJob.component
        { number := p.register.nextArchive, cause, clock := p.modeCtl.clock, successor, slot := n, component := c } events
        time wear (Vector.replicate 4 0)
    Ready src s → p.detector.engine = .stopped → n ≤ 11 → p.slot n = some c →
    (p.modeCtl.mode ≠ .active → p.hire.current = none → p.hire.closing = none → p.register.nextArchive ≠ exhausted →
        Processes (.removeComponent src slot) src s
          { p with storage := { st with archive := st.archive ++ [job .removed 0 0 0 0] } }) ∧
      (c.hold = none →
        Answers (.adoptIdentity src slot) src s [0x16, 0x23] p ∧ Answers (.dismissMismatch src slot) src s [0x17, 0x23] p ∧
          (wear.toNat ≤ 99999999 → Answers (.confirmChange src slot events time wear) src s [0x15, 0x23] p)) ∧
      ∀ h, c.hold = some h →
        let merged := c.mergePool h.pool
        (wear.toNat ≤ 99999999 → p.register.nextArchive ≠ exhausted →
            Processes (.confirmChange src slot events time wear) src s
              { p with
                storage := { st with
                  archive := st.archive ++ [job .changed h.reported events.toNat time.toNat wear.toNat] } }) ∧
          Answers (.adoptIdentity src slot) src s [0x16, 0x00]
            (p.setSlot n (some { merged with
              identity := some h.reported, hold := none, verification := .verified, silent := 0, reference := none
              regressed := false })) (fun t => t.checkpointing = true) ∧
          Answers (.dismissMismatch src slot) src s [0x17, 0x00]
            (p.setSlot n (some { merged with hold := none, verification := .unverified }))
            (fun t => t.checkpointing = true)

/-- Verify Now queues a slot that has a query setup, which makes a COUNTING one PENDING, and answers how many it queued
newly; a slot already queued is left as it is, and one without a query setup is not queued (R66, R71). Probe waits for
the Probe Unit, which takes it at once when IDLE, its channel PROCESSING (R67, R72). -/
def Obligations.VerifyAndProbeAreServed : Prop :=
  ∀ (src : Source) (slot : Byte) (a : ProbeArgs) (s : State), Ready src s → permitted src = true → slot.toNat ≤ 11 →
    s.part.register.pollQueue.Pairwise (· < ·) →
    let p := s.part
    let n := slot.toNat
    (p.slot n = none → Answers (.verifyNow src slot) src s [0x18, 0x20] p) ∧
      (∀ c, p.slot n = some c → c.query = none → Answers (.verifyNow src slot) src s [0x18, 0x00, 0x00] p) ∧
      (∀ c, p.slot n = some c → c.query ≠ none →
        Answers (.verifyNow src slot) src s [0x18, 0x00, if p.register.pollQueue.contains n then 0x00 else 0x01]
          (p.setSlot n (some
            { c with
              verification := if c.hold = none ∧ n ∉ p.register.pollQueue then .pending else c.verification })) fun t =>
            n ∈ t.register.pollQueue ∨ t.register.inHand = some { slot := n, attempt := 1 }) ∧
      (serviceOn src = true → (∀ x ∈ probeChecks a, x.2 = true) →
        Processes (.probe src a) src s p fun t =>
          let w := probeRequest a
          (p.register.query ≠ none → t.register.waitingProbe = some w ∧ t.register.query = p.register.query) ∧
            (p.register.query = none → t.register.waitingProbe = none ∧
              t.register.query = some
                { forProbe := true, replyFormat := w.replyFormat, replyIdent := w.replyIdent, sent := false
                  timer := w.timeout }))

/-- Open Hire, outside SETUP with no hire open or closing, opens the hire with the next number, the contract, the clock,
the channel and one clear usage entry for each occupied slot in slot order; it answers the number, and a full checkpoint
follows (R103, R105). Close Hire stamps the open hire with clock, SYNC and channel, moves it to closing and hands it to
the archive level, its channel PROCESSING (R107). Collect Hire reads the record at the head of the queue as a reader,
its channel PROCESSING; with the queue empty it is refused (R112). -/
def Obligations.HireRequestsAct : Prop :=
  (∀ (src : Source) (contract : Word32) (s : State), Ready src s → permitted src = true →
      let p := s.part
      p.modeCtl.mode ≠ .setup → p.hire.closing = none →
      (p.hire.current.isSome = true → Answers (.openHire src contract) src s [0x20, 0x24] p) ∧
        (p.hire.current = none → p.hire.nextNumber = exhausted → Answers (.openHire src contract) src s [0x20, 0x27] p) ∧
        (p.hire.current = none → p.hire.nextNumber ≠ exhausted →
          let usage := (List.range 12).filterMap fun n => (p.slot n).map fun c =>
            { slot := n, kind := c.kind, serial := c.identity, events := 0, time := 0, units := 0, residue := 0, held := false
              unobserved := 0 : Usage }
          Answers (.openHire src contract) src s ([0x20, 0x00] ++ beBytes 4 p.hire.nextNumber)
            { p with
              hire := { p.hire with
                current := some
                  { number := p.hire.nextNumber, contract := contract.toNat, openClock := p.modeCtl.clock
                    openSync := p.modeCtl.sync, openChannel := sourceChannel src, usage := usage
                    abuse := Vector.replicate 4 0, abuseList := [], overflow := false, close := none }
                nextNumber := p.hire.nextNumber + 1 } } (fun t => t.checkpointing = true))) ∧
    (∀ (src : Source) (s : State), Ready src s → permitted src = true →
      let p := s.part
      let ch := sourceChannel src
      (p.hire.closing.isSome = true → Answers (.closeHire src) src s [0x21, 0x01] p) ∧
        (p.hire.closing = none → p.hire.current = none → Answers (.closeHire src) src s [0x21, 0x25] p) ∧
        (∀ h, p.hire.closing = none → p.hire.current = some h →
          Processes (.closeHire src) src s
            { p with
              hire := { p.hire with
                current := none
                closing := some { h with close := some { clock := p.modeCtl.clock, sync := p.modeCtl.sync, cause := ch } } }
              storage := { p.storage with archive := p.storage.archive ++ [.hire ch] } }) ∧
        (src = .fleet → p.hire.queue = [] → Answers (.collectHire src) src s [0x23, 0x27] p) ∧
        ∀ n rest, src = .fleet → p.hire.queue = n :: rest →
          Processes (.collectHire src) src s p fun t =>
            { ch := ch, task := .collect n p.hire.dropped, page := 0, buffer := [], spoiled := false } ∈ t.storage.readers)

/-- Capture Now, its pre and post in range: with no capture OPEN and an entry to take, it starts the capture with the
next number and answers STARTED; with one OPEN it answers PENDING with the place in the queue, or MISSED behind two
(R140, R147). The bytes of the answer, the outcome byte and then the number in 4 bytes and the place in 1, each behind
its presence flag (R190), are the model's reading (log 12; R147 fixes no layout). A pre or post out of range is refused
with its index. Release Capture: a number held by no entry is refused BAD_ARGUMENT, an OPEN entry BUSY, a locked one
LOCKED; otherwise the entry's header write waits at the capture level and the channel stays PROCESSING, the entry as it
was (R149). -/
def Obligations.CaptureRequestsAct : Prop :=
  (∀ (src : Source) (pre post : BitVec 16) (s : State), Ready src s → permitted src = true →
      let p := s.part
      let i : Instr := .captureNow src pre post
      (2048 < pre.toNat → Answers i src s [0x30, 0x16, 0x00] p) ∧
        (pre.toNat ≤ 2048 → (post.toNat < 1 ∨ 2047 < post.toNat) → Answers i src s [0x30, 0x16, 0x01] p) ∧
        (pre.toNat ≤ 2048 → 1 ≤ post.toNat → post.toNat ≤ 2047 →
          (∀ e, p.capture.anyOpen = false → p.capture.nextNumber ≠ exhausted → p.capture.choose = some e →
              ∃ t x, exec i s = .next t ∧
                t.part.responds (sourceChannel src) ([0x30, 0x00, 0x00, 0x01] ++ beBytes 4 p.capture.nextNumber ++ [0x00, 0x00]) ∧
                t.part.capture.entry e = some x ∧ x.number = p.capture.nextNumber ∧ x.cause = .request ∧
                x.seq = p.ring.next ∧ x.preAsked = pre.toNat ∧ x.postAsked = post.toNat ∧ x.state = .opened ∧
                x.stored = 0 ∧ t.part.capture.nextNumber = p.capture.nextNumber + 1 ∧
                (∀ k, k ≠ e → t.part.capture.entry k = p.capture.entry k) ∧ t.part.register.slots = p.register.slots ∧
                t.part.hire = p.hire ∧ t.medium = s.medium ∧ t.pending = s.pending) ∧
            (p.capture.anyOpen = true → p.capture.queue.length < 2 →
              ∃ t x, exec i s = .next t ∧
                t.part.responds (sourceChannel src) [0x30, 0x00, 0x01, 0x00, 0x00, 0x00, 0x00, 0x00, 0x01, BitVec.ofNat 8 (p.capture.queue.length + 1)] ∧
                t.part.capture = { p.capture with queue := p.capture.queue ++ [x] } ∧ x.cause = .request ∧
                x.preAsked = pre.toNat ∧ x.postAsked = post.toNat ∧ t.medium = s.medium ∧ t.pending = s.pending) ∧
            (p.capture.anyOpen = true → 2 ≤ p.capture.queue.length →
              Answers i src s [0x30, 0x00, 0x02, 0x00, 0x00, 0x00, 0x00, 0x00, 0x00, 0x00]
                { p with capture := { p.capture with missed := min 65535 (p.capture.missed + 1) } }))) ∧
    (∀ (src : Source) (number : Word32) (s : State), Ready src s → permitted src = true →
      let p := s.part
      let i : Instr := .releaseCapture src number
      (p.capture.entryOf number.toNat = none → Answers i src s [0x33, 0x16, 0x00] p) ∧
        ∀ e x, p.capture.entryOf number.toNat = some e → p.capture.entry e = some x →
          (x.state = .opened → Answers i src s [0x33, 0x01] p) ∧
            (x.state ≠ .opened → x.locked = true → Answers i src s [0x33, 0x26] p) ∧
            (x.state ≠ .opened → x.locked = false →
              Processes i src s
                { p with
                  storage := { p.storage with
                    captureJobs := p.storage.captureJobs ++ [.release e number.toNat (sourceChannel src)] } }))

/-- Read Records and Scan Archive that need a read become a reader with the count cut at the newest number (at the
frames stored, for a closed capture), their channel PROCESSING. What needs no read is answered at once: a number no
longer held GONE, an index at or beyond the frames stored of an OPEN capture NOT_READY, a scan above the newest number
EXHAUSTED with every number skipped (R186 to R188). That the next number of that answer is sent modulo 2^32 when it
passes 4,294,967,295 is the model's choice (log 35), and so is the next index beside a GONE entry of a capture (log 12).
An area, number, frame index or count of Read Records out of range is refused with its index, and so are start 0 and a
count, field, sense or value of Scan Archive out of range (R186, R187, R188). -/
def Obligations.ReadersAreStarted : Prop :=
  ∀ (src : Source) (number : Word32) (frame count : BitVec 16) (field sense : Byte) (value : Word32) (s : State),
    Ready src s → permitted src = true →
    let p := s.part
    let n := number.toNat
    let reads := fun (task : ReaderTask) (t : Part) =>
      { ch := sourceChannel src, task := task, page := 0, buffer := [], spoiled := false } ∈ t.storage.readers
    let read := fun area : Byte => Instr.readRecords src area number frame count
    let scan := Instr.scanArchive src number count field sense value
    (∀ area : Byte, 2 < area.toNat → Answers (read area) src s [0x40, 0x16, 0x00] p) ∧
      (n = 0 ∨ p.register.nextArchive ≤ n → Answers (read 0x00) src s [0x40, 0x16, 0x01] p) ∧
      (n = 0 ∨ p.hire.newest < n → Answers (read 0x01) src s [0x40, 0x16, 0x01] p) ∧
      (n = 0 ∨ p.capture.nextNumber ≤ n → Answers (read 0x02) src s [0x40, 0x16, 0x01] p) ∧
      (1 ≤ n → n < p.register.nextArchive → count.toNat < 1 ∨ 64 < count.toNat →
        Answers (read 0x00) src s [0x40, 0x16, 0x03] p) ∧
      (1 ≤ n → n ≤ p.hire.newest → count.toNat < 1 ∨ 320 < count.toNat →
        Answers (read 0x01) src s [0x40, 0x16, 0x03] p) ∧
      (1 ≤ n → n ≤ p.hire.newest → p.hire.newest < n + 320 → 1 ≤ count.toNat → count.toNat ≤ 320 →
        Processes (read 0x01) src s p (reads (.hires n (min count.toNat (p.hire.newest + 1 - n)) []))) ∧
      (1 ≤ n → n + 320 ≤ p.hire.newest → count = 1 →
        Answers (read 0x01) src s ([0x40, 0x00] ++ beBytes 4 (n + 1) ++ [0x00, 0x00, 0x02] ++ beBytes 4 n) p) ∧
      (1 ≤ n → n < p.register.nextArchive → p.register.nextArchive ≤ n + 64 → 1 ≤ count.toNat → count.toNat ≤ 64 →
        Processes (read 0x00) src s p (reads (.components n (min count.toNat (p.register.nextArchive - n)) []))) ∧
      (1 ≤ n → n < p.capture.nextNumber →
        (4079 < frame.toNat → Answers (read 0x02) src s [0x40, 0x16, 0x02] p) ∧
          (p.capture.entryOf n = none → frame.toNat ≤ 4079 → 1 ≤ count.toNat → count.toNat ≤ 4080 →
            Answers (read 0x02) src s
              ([0x40, 0x00] ++ beBytes 4 frame.toNat ++ [0x00, 0x00, 0x02] ++ beBytes 2 frame.toNat) p)) ∧
      (∀ e x, p.capture.entryOf n = some e → p.capture.entry e = some x → 1 ≤ n → n < p.capture.nextNumber →
        frame.toNat ≤ 4079 →
        (x.state ≠ .opened → x.stored ≤ frame.toNat → Answers (read 0x02) src s [0x40, 0x16, 0x02] p) ∧
          (x.state = .opened ∨ frame.toNat < x.stored → count.toNat < 1 ∨ 4080 < count.toNat →
            Answers (read 0x02) src s [0x40, 0x16, 0x03] p) ∧
          (1 ≤ count.toNat → count.toNat ≤ 4080 →
            (frame.toNat < x.stored →
                Processes (read 0x02) src s p
                  (reads
                    (.frames n frame.toNat
                      (if x.state = .opened then count.toNat else min count.toNat (x.stored - frame.toNat)) []))) ∧
              (x.state = .opened → x.stored ≤ frame.toNat →
                Answers (read 0x02) src s
                  ([0x40, 0x00] ++ beBytes 4 x.stored ++ beBytes 2 count.toNat ++ [0x03] ++ beBytes 2 x.stored) p))) ∧
      (n = 0 → Answers scan src s [0x41, 0x16, 0x00] p) ∧
      (1 ≤ n → count.toNat < 1 ∨ 320 < count.toNat → Answers scan src s [0x41, 0x16, 0x01] p) ∧
      (1 ≤ n → 1 ≤ count.toNat → count.toNat ≤ 320 →
        (2 < field.toNat → Answers scan src s [0x41, 0x16, 0x02] p) ∧
          (field.toNat ≤ 2 → 1 < sense.toNat → Answers scan src s [0x41, 0x16, 0x03] p) ∧
          (1 ≤ field.toNat → field.toNat ≤ 2 → sense.toNat ≤ 1 → 1 < value.toNat →
            Answers scan src s [0x41, 0x16, 0x04] p) ∧
          (field.toNat ≤ 2 → sense.toNat ≤ 1 → (field = 0 ∨ value.toNat ≤ 1) →
            (n ≤ p.hire.newest → p.hire.newest < n + 320 →
                Processes scan src s p
                  (reads (.scan n count.toNat field.toNat sense.toNat value.toNat 0 2000))) ∧
              (p.hire.newest < n →
                Answers scan src s
                  ([0x41, 0x00, 0x01] ++ beBytes 4 (n + count.toNat) ++ [0x00, 0x00] ++ beBytes 2 count.toNat) p)))

/-! ## Storage (R27, R28, R64, R73, R108, R142 to R171) -/

/-- The arbiter's order (R155, R156). A busy bus is granted to no one else. A free bus goes to the short checkpoint;
while PFW stands, else only to a read (R161); then to the full checkpoint, placed at its first page with the snapshot of
that moment (R157 to R159); to the table save or re-save; to the archive write at the head; to the capture operation at
the head; and to the reader at the head, judged again before its first page (R186). With no one waiting nothing happens.
A checkpoint is placed within the ring, on an even position when the write position and the newest are even, and never
over the newest full checkpoint (R159). -/
def Obligations.ArbiterOrderAndPlacement : Prop :=
  (∀ (m : Medium) (p : Part),
    let st := p.storage
    let grants := fun (owner : Owner) (page : Nat) (write : Bool) =>
      (grant m p).storage.bus.map (fun x => (x.owner, x.page, x.write.isSome, x.attempt, x.timer)) =
        some (owner, page, write, 1, 20)
    let head := fun (r : Reader) (rest : List Reader) (task : ReaderTask) =>
      st.readers = r :: rest → (∀ x ∈ rest, x.ch ≠ r.ch) →
        (r.page ≠ 0 ∧ task = r.task) ∨ (r.page = 0 ∧ p.readerNext r.task = .read task) →
        grants (.reader r.ch) (p.taskPage task + r.page) false
    (st.bus.isSome = true → grant m p = p) ∧
      (st.bus = none → st.short.state ≠ .idle → grants .short (32 + st.short.position + st.short.page) true) ∧
      (st.bus = none → st.short.state = .idle → p.lines.pfw = true →
        (∀ x, (grant m p).storage.bus = some x → x.write = none ∧ ∃ ch, x.owner = .reader ch) ∧
          ∀ r rest task, head r rest task) ∧
      (st.bus = none → st.short.state = .idle → p.lines.pfw = false →
        (st.full.state = .waiting →
            let position := placeAt st.newest st.writePosition 20
            grants .full (32 + position) true ∧
              (grant m p).storage.full =
                { st.full with
                  state := .writing, page := 0, sequence := st.nextSequence, position, image := some p.snapshot } ∧
              (grant m p).storage.nextSequence = st.nextSequence + 1 ∧
              (grant m p).storage.writePosition = position + 20) ∧
          (st.full.state = .writing → grants .full (32 + st.full.position + st.full.page) true) ∧
          (st.full.state = .idle → p.modeCtl.save ≠ .idle →
            grants (.table (p.modeCtl.save == .resaving)) p.modeCtl.savePage true) ∧
          (st.full.state = .idle → p.modeCtl.save = .idle →
            (∀ record events time units marks rest, st.archive = .component record events time units marks :: rest →
                grants .archive (componentPage record.number + st.archivePage) true) ∧
              (∀ ch h rest, st.archive = .hire ch :: rest → p.hire.closing = some h →
                grants .archive (hirePage h.number + st.archivePage) true) ∧
              (∀ pages page rest, st.archive = .invalidate (some pages) :: rest → pages[st.archivePage]? = some page →
                grants .archive page true) ∧
              (st.archive = [] →
                (∀ e rest,
                    st.captureJobs = .openHeader e :: rest ∨ st.captureJobs = .finalHeader e :: rest ∨
                        (∃ number ch, st.captureJobs = .release e number ch :: rest) →
                      grants .capture (2048 + 256 * e) true) ∧
                  (∀ e x k rest, st.captureJobs = .framePage e :: rest → p.capture.entry e = some x →
                    p.capture.copier = some k → grants .capture (2048 + 256 * e + 1 + x.stored / 16) true) ∧
                  (st.captureJobs = [] →
                    (∀ r rest task, head r rest task) ∧ (st.readers = [] → grant m p = p)))))) ∧
  (∀ w count sequence position : Nat, count = 4 ∨ count = 20 → w ≤ 480 → position + 20 ≤ 480 →
    let at_ := placeAt (some (sequence, position)) w count
    at_ + count ≤ 480 ∧ (at_ + count ≤ position ∨ position + 20 ≤ at_) ∧
      (w % 2 = 0 → position % 2 = 0 → at_ % 2 = 0) ∧ placeAt none w count + count ≤ 480)

/-- A verified page write of a full checkpoint: the page holds the bytes written and no other byte of the medium has
changed; the write count rises by 1 and the fault state is cleared (R153). The twentieth completes the checkpoint, which
is the newest from then on (R158); an earlier one is followed by the next page. At the last page Restart, Clear All and
Checkpoint Now are answered DONE, the last with sequence and position; at a page's second failure they are answered
STORAGE_FAULT (R39, R40, R158, R169). Sleep entry follows a checkpoint that completed when no wake cause came, nothing
waits at the arbiter and the engine is STOPPED: ports LISTENING, no freshness deadline, an empty ring, no interval,
evaluation or status timer, no verification queued or in hand, slots, mode, tables and hire kept (R3, R36); otherwise
the part stays AWAKE (R35, R43, R158). A short checkpoint goes on page by page; at its last page or its failure it ends,
and with the follow-up flag set another is placed with the content of that moment (R159, R160, R161). -/
def Obligations.VerifiedPageIsWritten : Prop :=
  (∀ (s : State) (t : Transaction) (bytes : List Byte), s.part.awake = true → s.part.storage.bus = some t →
    t.write = some bytes → bytes.length = pageSize → t.page < pageCount → t.owner = .full → s.medium.wf →
    s.part.storage.full.state = .writing → s.part.storage.full.waiters = [] → s.part.storage.full.pending = false →
    s.part.storage.readers = [] →
    let st := s.part.storage
    ∃ u, exec (.pageWriteComplete true) s = .next u ∧ u.medium.page t.page = bytes ∧
      (∀ a, a < pageSize * t.page ∨ pageSize * t.page + pageSize ≤ a → u.medium.byte a = s.medium.byte a) ∧
      u.medium.wf ∧ u.pending = s.pending ∧ u.part.storage.writes = min 4294967295 (st.writes + 1) ∧
      u.part.storage.fault = false ∧ u.part.storage.retries = st.retries ∧ u.part.storage.failures = st.failures ∧
      u.part.register.slots = s.part.register.slots ∧ u.part.hire = s.part.hire ∧ u.part.capture = s.part.capture ∧
      (st.full.page + 1 < 20 → u.part.storage.newest = st.newest ∧ u.part.storage.full.page = st.full.page + 1 ∧
        u.part.storage.full.state = .writing) ∧
      (20 ≤ st.full.page + 1 → u.part.storage.newest = some (st.full.sequence, st.full.position) ∧
        u.part.storage.full.state = .idle)) ∧
  (∀ (s : State) (t : Transaction), Writing s t .full →
    let st := s.part.storage
    let f := st.full
    let p := { s.part.pageWritten with storage := { s.part.pageWritten.storage with newest := some (f.sequence, f.position) } }
    let m := s.part.modeCtl
    let quiet := m.sleepWait = some false ∧ f.pending = false ∧ st.short.state = .idle ∧ m.save = .idle ∧ st.archive = [] ∧
      st.captureJobs = [] ∧ st.readers = [] ∧ s.part.detector.engine = .stopped
    (.sleep ∉ f.waiters →
        (20 ≤ f.page + 1 →
          Stores (.pageWriteComplete true) s (s.medium.written t) p
            (s.part.answered f.waiters (some (f.sequence, f.position)))) ∧
        (2 ≤ t.attempt → StoresFailed s t s.part.pageFailed (s.part.answered f.waiters none))) ∧
      (.sleep ∈ f.waiters →
        (20 ≤ f.page + 1 → ¬quiet →
          Stores (.pageWriteComplete true) s (s.medium.written t) p fun u =>
            u.modeCtl.asleep = false ∧ u.modeCtl.sleepWait = none) ∧
        (2 ≤ t.attempt →
          StoresFailed s t s.part.pageFailed fun u => u.modeCtl.asleep = false ∧ u.modeCtl.sleepWait = none)) ∧
      (f.waiters = [.sleep] → 20 ≤ f.page + 1 → quiet →
        ∃ u, exec (.pageWriteComplete true) s = .next u ∧ u.medium = s.medium.written t ∧ u.pending = s.pending ∧
          u.part.modeCtl = { m with asleep := true, quiet := none, sleepWait := none } ∧
          u.part.portA.state = .listening ∧ u.part.portB.state = .listening ∧ u.part.portA.tx = none ∧
          u.part.portB.tx = none ∧ u.part.signals = s.part.signals.map (fun x => { x with deadline := none }) ∧
          u.part.ring.records = [] ∧ u.part.ring.pointer = s.part.ring.next ∧ u.part.ring.next = s.part.ring.next ∧
          u.part.wear.timer = none ∧ u.part.clutch.timer = none ∧ u.part.link.statusTimer = none ∧
          u.part.register = { slots := s.part.register.slots, nextArchive := s.part.register.nextArchive } ∧
          u.part.hire.current = s.part.hire.current ∧ u.part.hire.queue = s.part.hire.queue ∧
          u.part.capture = s.part.capture ∧ u.part.storage.newest = some (f.sequence, f.position) ∧
          u.part.storage.bus = none)) ∧
  (∀ (s : State) (t : Transaction), s.part.live = true → s.part.storage.bus = some t → t.write.isSome = true →
    t.page < pageCount → t.owner = .short →
    let st := s.part.storage
    let ends := fun p : Part =>
      { p with
        storage := { p.storage with
          short :=
            if st.short.followUp then
              { sequence := st.nextSequence, position := placeAt st.newest st.writePosition 4
                image := some s.part.shortImage }
            else {} } }
    (st.short.page + 1 < 4 →
        Stores (.pageWriteComplete true) s (s.medium.written t)
          { s.part.pageWritten with
            storage := { s.part.pageWritten.storage with short := { st.short with page := st.short.page + 1 } } }) ∧
      (4 ≤ st.short.page + 1 →
        Stores (.pageWriteComplete true) s (s.medium.written t) (ends s.part.pageWritten)) ∧
      (2 ≤ t.attempt → StoresFailed s t (ends s.part.pageFailed)))

/-- A page write whose read-back differs, or a transaction the memory does not answer in time, is tried once more within
its transaction, the retry count rising by 1 (R153); the new attempt has 20 ms, for a read as for a write with its
read-back (log 15). The second failure of a full checkpoint's page write ends the transaction and the checkpoint: the
failure count rises by 1, the fault state is set, STORAGE_FAULT holds, the page is marked invalid (log 7, the model's
choice) and every other byte of the medium is as it was; the checkpoint state is IDLE again and the newest checkpoint as
before (R153, R154, R158). -/
def Obligations.FailuresAreRetriedThenSetFault : Prop :=
  (∀ (s : State) (t : Transaction), s.part.storage.bus = some t → t.attempt < 2 →
      let st := s.part.storage
      let again := { s with
        part := { s.part with
          storage := { st with
            bus := some { t with attempt := t.attempt + 1, timer := 20 }
            retries := min 4294967295 (st.retries + 1) } } }
      exec .storageAnswerTimeout s = .next again ∧
        (t.write.isSome = true → t.page < pageCount → exec (.pageWriteComplete false) s = .next again)) ∧
    (∀ (s : State) (t : Transaction), s.part.awake = true → s.part.storage.bus = some t → t.write.isSome = true →
      2 ≤ t.attempt → t.page < pageCount → t.owner = .full → s.medium.wf → s.part.storage.full.waiters = [] →
      s.part.storage.full.pending = false → s.part.storage.readers = [] →
      let st := s.part.storage
      ∃ u, exec .storageAnswerTimeout s = .next u ∧ exec (.pageWriteComplete false) s = .next u ∧ u.pending = s.pending ∧
        u.part.storage.fault = true ∧ u.part.condition 1 = true ∧
        u.part.storage.failures = min 4294967295 (st.failures + 1) ∧ u.part.storage.writes = st.writes ∧
        u.part.storage.newest = st.newest ∧ u.part.storage.full.state = .idle ∧ u.medium.anySpoiled t.page 1 = true ∧
        (∀ a, a < pageSize * t.page ∨ pageSize * t.page + pageSize ≤ a → u.medium.byte a = s.medium.byte a) ∧
        u.part.register.slots = s.part.register.slots ∧ u.part.hire = s.part.hire)

/-- The end of the leave sequence. A verified page of the table save is followed by the next; the last one promotes the
pending set: it is the active set, pass-all off, the counts of entries, signals and roles begin again, a slot whose
kind's load or speed edges differ folds its spectrum into unbinned, the engine is UNKNOWN or, with the ignition off,
STOPPED, the mode is the target with its episodes reset, the result PASSED, the response DONE, and a full checkpoint
follows (R21, R24, R27, R32, R49, R55, R99, R113). A hire that is closing then goes on closing: the model's choice (log
34), since R119 holds that none can be. A page that fails twice ends the save: SETUP and the active set stay, the result
and the response are STORAGE_WRITE_FAILED, and the active set is written back (R28). So does the engine leaving STOPPED,
answered ENGINE_RUNNING, the quiet period's timer stopped (R53). The re-save's last page, or its failure, brings the
table save state to IDLE (R28). -/
def Obligations.TableSaveEnds : Prop :=
  (∀ (s : State) (t : Transaction) (target : Mode), Writing s t (.table false) → s.part.modeCtl.save = .saving target →
    target ≠ .setup → s.part.detector.engine = .stopped →
    let p := s.part.pageWritten
    let m := p.modeCtl
    let fold := fun c : Component =>
      if (m.active.bins[c.kind.num]?.map fun r => (r.load, r.speed)) =
          (m.pendingSet.bins[c.kind.num]?.map fun r => (r.load, r.speed)) then c
      else
        { c with
          unbinned := min 4294967295 (c.unbinned + c.cells.toList.sum)
          cells := Vector.replicate 64 0
          generation := (c.generation + 1) % 256 }
    (m.savePage + 1 < 32 →
        Stores (.pageWriteComplete true) s (s.medium.written t)
          { p with modeCtl := { m with savePage := m.savePage + 1 } }) ∧
      (32 ≤ m.savePage + 1 → s.part.clearFor .service →
        Stores (.pageWriteComplete true) s (s.medium.written t)
          { p with
            modeCtl := { m with
              mode := target, active := m.pendingSet, passAll := false, save := .idle, savePage := 0
              validation := .passed }
            matcher := { p.matcher with counts := Vector.replicate 64 0 }
            signals := Vector.replicate 48 {}
            roles := Vector.replicate 10 {}
            detector := { p.detector with
              engine := if m.ignition then .unknown else .stopped, attempt := none, windowA := none, windowB := none }
            register := { p.register with slots := p.register.slots.map fun x => x.map fold }
            hire := { p.hire with overspeed := {}, coldLoad := {}, lugging := {} }
            wear := if target = .active then { p.wear with running := Vector.replicate 12 false } else p.wear }
          fun u => u.responds .service [0x03, 0x00] ∧ u.checkpointing = true) ∧
      (2 ≤ t.attempt → s.part.clearFor .service →
        StoresFailed s t
          { s.part.pageFailed with
            modeCtl := { m with save := .resaving, savePage := 0, validation := .failed 10 0 } }
          fun u => u.responds .service [0x03, 0x29, 0x0A, 0x00])) ∧
  (∀ (p : Part) (target : Mode) (engine : EngineState), p.detector.engine = .stopped → p.modeCtl.save = .saving target →
    engine ≠ .stopped → engine ≠ .running →
    let u := changeEngine engine p
    u.modeCtl = { p.modeCtl with save := .resaving, savePage := 0, validation := .none, quiet := none } ∧
      u.detector = { p.detector with engine := engine } ∧ (u.chan .service).state = .responding ∧
      (u.chan .service).outbox = segments [0x03, 0x15] ∧ u.register = p.register ∧ u.hire = p.hire ∧
      u.storage = p.storage) ∧
  (∀ (s : State) (t : Transaction), Writing s t (.table true) → s.part.modeCtl.save = .resaving →
    let p := s.part.pageWritten
    let m := p.modeCtl
    (m.savePage + 1 < 32 →
        Stores (.pageWriteComplete true) s (s.medium.written t)
          { p with modeCtl := { m with savePage := m.savePage + 1 } }) ∧
      (32 ≤ m.savePage + 1 →
        Stores (.pageWriteComplete true) s (s.medium.written t)
          { p with modeCtl := { m with save := .idle, savePage := 0 } }) ∧
      (2 ≤ t.attempt →
        StoresFailed s t { s.part.pageFailed with modeCtl := { m with save := .idle, savePage := 0 } }))

/-- The end of an archive write at the head of its level. A verified page before the last is followed by the next. After
the last page Remove empties the slot, with its queue entry, its verification in hand and its running flag (R64, R86);
Confirm Change starts the new component: the successor, the starting figures with the pool as its first usage, a clear
spectrum, the marks of the write (R73); each advances the archive number and is answered DONE with it. A closing hire is
queued, a ninth dropping the head, and answered DONE with its number (R108, R109). A full checkpoint follows each (R65,
R108). CLEAR ALL's invalidation is followed by the full checkpoint that CLEAR ALL waits for (R40, R171). A page that
fails twice ends the write: the slot stays, the hire is open again without its close fields, and the response is
STORAGE_FAULT (R40, R64, R73, R108). -/
def Obligations.ArchiveWritesEnd : Prop :=
  ∀ (s : State) (t : Transaction) (job : ArchiveJob) (rest : List ArchiveJob), Writing s t .archive →
    s.part.storage.archive = job :: rest →
    let ended := fun p : Part => { p with storage := { p.storage with archive := rest, archivePage := 0 } }
    let p := ended s.part.pageWritten
    let q := ended s.part.pageFailed
    let done := fun (p' : Part) (also : Part → Prop) =>
      Stores (.pageWriteComplete true) s (s.medium.written t) p' fun u => u.checkpointing = true ∧ also u
    (s.part.storage.archivePage + 1 < job.pages →
        Stores (.pageWriteComplete true) s (s.medium.written t)
          { s.part.pageWritten with
            storage := { s.part.pageWritten.storage with archivePage := s.part.storage.archivePage + 1 } }) ∧
      (∀ record events time units marks, job = .component record events time units marks → s.part.clearFor .service →
        let n := record.slot
        let code : Byte := if record.cause = .removed then 0x14 else 0x15
        let register := fun p : Part => { p with register := { p.register with nextArchive := record.number + 1 } }
        let answer := fun u : Part => u.responds .service ([code, 0x00] ++ beBytes 4 record.number)
        (4 ≤ s.part.storage.archivePage + 1 → record.cause = .removed →
            done (register (setRunning n false (p.setSlot n none))) fun u =>
              answer u ∧ n ∉ u.register.pollQueue ∧ ∀ h, u.register.inHand = some h → h.slot ≠ n) ∧
          (∀ c, 4 ≤ s.part.storage.archivePage + 1 → record.cause = .changed → p.slot n = some c →
            let pool := (c.hold.map (·.pool)).getD {}
            let wear := addWear units pool.residue (16000 * pool.units)
            let new : Component :=
              { kind := c.kind, identity := some record.successor, verification := .verified, query := c.query, hold := none
                installClock := p.modeCtl.clock
                events := min 4294967295 (events + pool.events)
                time := min 4294967295 (time + pool.time)
                units := wear.1
                residue := wear.2.1
                unbinned :=
                  if c.kind.continuous then min 4294967295 (time + pool.time) else min 4294967295 (events + pool.events)
                saturated :=
                  decide (4294967295 ≤ events + pool.events) || decide (4294967295 ≤ time + pool.time) ||
                    decide (4294967295 ≤ pool.unobserved) || decide (99999999 ≤ wear.1)
                unobserved := min 4294967295 pool.unobserved
                reference := none, regressed := false, uncertain := 0, failedStarts := 0, abuse := marks
                cells := Vector.replicate 64 0, generation := 0, silent := 0 }
            done (register (setRunning n false (p.setSlot n (some new)))) answer) ∧
          (2 ≤ t.attempt → StoresFailed s t q fun u => u.responds .service [code, 0x28])) ∧
      (∀ ch h, job = .hire ch → s.part.hire.closing = some h → s.part.clearFor ch →
        (4 ≤ s.part.storage.archivePage + 1 →
            let full := decide (8 ≤ p.hire.queue.length)
            done
              { p with
                hire := { p.hire with
                  queue := (if full then p.hire.queue.drop 1 else p.hire.queue) ++ [h.number]
                  dropped := p.hire.dropped || full
                  newest := h.number
                  closing := none } }
              fun u => u.responds ch ([0x21, 0x00] ++ beBytes 4 h.number)) ∧
          (2 ≤ t.attempt →
            StoresFailed s t { q with hire := { q.hire with current := some { h with close := none }, closing := none } }
              fun u => u.responds ch [0x21, 0x28])) ∧
      ∀ pages, job = .invalidate (some pages) →
        (pages.length ≤ s.part.storage.archivePage + 1 → done p fun u => u.awaitsCheckpoint .clearAll = true) ∧
          (2 ≤ t.attempt → s.part.clearFor .service →
            StoresFailed s t q fun u => u.responds .service [0x06, 0x28])

/-- The end of a capture-level write at the head of its level. The header of a started capture changes nothing more. A
frame page adds the records it held to the entry's frames stored, and the copier goes on from its cursor with an emptied
buffer, taking at most 16 of the ring's records in sequence (R142). The final header closes the capture, TRUNCATED when
a frame was lost and COMPLETE otherwise, stops its post timeout and raises CAPTURE_READY; the trigger at the head of the
queue, when it can start, leaves it and starts (R141, R145). A page of the copier that fails twice closes the capture as
FAILED and takes the copier's operations from the arbiter (R146, R156). Release Capture's header frees the entry, or
finds the number gone; its failure leaves the entry, answered STORAGE_FAULT (R149). -/
def Obligations.CaptureWritesEnd : Prop :=
  ∀ (s : State) (t : Transaction) (job : CaptureJob) (rest : List CaptureJob), Writing s t .capture →
    s.part.storage.captureJobs = job :: rest →
    let ended := fun p : Part => { p with storage := { p.storage with captureJobs := rest } }
    let p := ended s.part.pageWritten
    let q := ended s.part.pageFailed
    let closed := fun (e : Nat) (state : CaptureState) =>
      { p.capture.mapEntry e (fun x => { x with state := state }) with copier := none, postTimeout := none }
    let ready := { p.link with captureReady := true }
    (∀ e, job = .openHeader e → Stores (.pageWriteComplete true) s (s.medium.written t) p) ∧
      (∀ e x k, job = .framePage e → s.part.capture.entry e = some x → s.part.capture.copier = some k →
        ∃ u k', exec (.pageWriteComplete true) s = .next u ∧ u.medium = s.medium.written t ∧ u.pending = s.pending ∧
          u.part.capture.entry e = some { x with stored := x.stored + k.buffer.length } ∧
          (∀ j, j ≠ e → u.part.capture.entry j = s.part.capture.entry j) ∧
          u.part.capture.copier = some k' ∧ k'.entry = k.entry ∧ k'.windowEnd = k.windowEnd ∧ k'.takenAt = k.takenAt ∧
          k'.buffer.length ≤ 16 ∧ k'.cursor = k.cursor + BitVec.ofNat 32 k'.buffer.length ∧
          (∀ i, i < k'.buffer.length → k'.buffer[i]? = s.part.ring.find (k.cursor + BitVec.ofNat 32 i)) ∧
          u.part.capture.queue = s.part.capture.queue ∧ u.part.register.slots = s.part.register.slots ∧
          u.part.hire = s.part.hire ∧ u.part.storage.writes = p.storage.writes) ∧
      (∀ e x, job = .finalHeader e → s.part.capture.entry e = some x →
        let state : CaptureState := if 0 < x.lost then .truncated else .complete
        (s.part.capture.queue = [] →
            Stores (.pageWriteComplete true) s (s.medium.written t)
              { p with capture := closed e state, link := ready }) ∧
          ∀ trigger more e', s.part.capture.queue = trigger :: more → s.part.capture.nextNumber ≠ exhausted →
            (closed e state).choose = some e' →
            ∃ u y, exec (.pageWriteComplete true) s = .next u ∧ u.medium = s.medium.written t ∧
              u.part.link.captureReady = true ∧ u.part.capture.queue = more ∧ u.part.capture.entry e' = some y ∧
              y.number = s.part.capture.nextNumber ∧ y.cause = trigger.cause ∧ y.seq = trigger.seq ∧ y.state = .opened ∧
              y.stored = 0 ∧ u.part.capture.nextNumber = s.part.capture.nextNumber + 1 ∧
              ∀ j, j ≠ e' → u.part.capture.entry j = (closed e state).entry j) ∧
      (∀ e x, job = .openHeader e ∨ job = .framePage e ∨ job = .finalHeader e → s.part.capture.entry e = some x →
        2 ≤ t.attempt → s.part.capture.queue = [] →
        StoresFailed s t
          { q with
            capture := closed e .failed
            link := ready
            storage := { q.storage with
              captureJobs := rest.filter fun j => match j with
                | .release _ _ _ => true
                | _ => false } }) ∧
      ∀ e number ch, job = .release e number ch → s.part.clearFor ch →
        (∀ x, s.part.capture.entry e = some x → x.number = number →
            Stores (.pageWriteComplete true) s (s.medium.written t)
              { p with capture := { p.capture with entries := p.capture.entries.setIfInBounds e none } }
              fun u => u.responds ch [0x33, 0x00]) ∧
          ((∀ x, s.part.capture.entry e = some x → x.number ≠ number) →
            Stores (.pageWriteComplete true) s (s.medium.written t) p fun u => u.responds ch [0x33, 0x16, 0x00]) ∧
          (2 ≤ t.attempt → StoresFailed s t q fun u => u.responds ch [0x33, 0x28])

/-- The reads of the management reader. A record's page before its fourth is followed by the next page. Collect Hire
then answers with the record as stored, or CORRUPT, and takes the number from the head of the queue (R112). Read Records
gives the number's entry: CORRUPT when its check word fails or storage has it invalid, GONE when the record carries
another number, else its content; the run goes on with the next number while it has room in 1,024 bytes and a count
left, and is then answered with the next number and the count (R186). A capture's page gives its frames as far as they
fit, or one CORRUPT entry for the indices it held; the last stored frame of a closed capture sets its read flag, an OPEN
one whose stored frames are read ends with NOT_READY, and a capture that is gone with GONE (R187). Scan Archive answers
FOUND at a record that meets the sense, skips and counts one that is corrupt or of another number, and answers EXHAUSTED
when the count is used up (R188, R189). A request's next read goes behind those of other channels (R156). A read that
storage does not answer twice ends the request: STORAGE_FAULT, or DONE with what Read Records had returned, and the
failure is counted (R112, R153, R186, R189). The bytes of Collect Hire's and the CORRUPT answers, the next index beside
GONE (log 12), the next number modulo 2^32 (log 35), CORRUPT before GONE (log 36) and GONE for a capture that went
during the read (log 40) are the model's choices. -/
def Obligations.ReaderReadsEnd : Prop :=
  ∀ (s : State) (t : Transaction) (r : Reader) (rest : List Reader), ReadingFor s t r rest →
    let p := s.part
    let record := r.buffer ++ s.medium.page t.page
    let spoiled := r.spoiled || s.medium.anySpoiled t.page 1
    let bad := spoiled || !recordValid archiveSize record
    let fits := fun out entry : List Byte => 8 + out.length + entry.length ≤ 1024
    let records := fun (next remaining : Nat) (out : List Byte) =>
      [0x40, 0x00] ++ beBytes 4 next ++ beBytes 2 remaining ++ out
    let failed := fun msg : List Byte => Leaves .storageAnswerTimeout s p.pageFailed fun u => u.responds r.ch msg
    let partly := fun (next remaining : Nat) (out : List Byte) =>
      failed (if out = [] then [0x40, 0x28] else records next remaining out)
    let run := fun (newest capacity size next remaining : Nat) (out : List Byte)
        (task : Nat → Nat → List Byte → ReaderTask) =>
      let entry :=
        if bad then [0x01] ++ beBytes 4 next
        else if natAt record 0 4 ≠ next then [0x02] ++ beBytes 4 next
        else [0x00] ++ record.take size
      (¬fits out entry → ReadAnswers s r p (records next remaining out)) ∧
        (fits out entry →
          (remaining ≤ 1 → ReadAnswers s r p (records (next + 1) 0 (out ++ entry))) ∧
            (2 ≤ remaining → newest < next + 1 + capacity →
              ReadsNext s r p (task (next + 1) (remaining - 1) (out ++ entry))) ∧
            (2 ≤ remaining → next + 1 + capacity ≤ newest →
              ReadGoesOn s r p (task (next + 1) (remaining - 1) (out ++ entry))))
    (∀ number dropped, r.task = .collect number dropped →
      let queue := p.hire.queue.filter (· ≠ number)
      (4 ≤ r.page + 1 → number ∈ p.hire.queue →
          ReadAnswers s r
            { p with hire := { p.hire with queue := queue, dropped := p.hire.dropped && !queue.isEmpty } }
            ([0x23, 0x00] ++ (if bad then [0x01] ++ beBytes 4 number else [0x00] ++ record.take 591) ++
              [BitVec.ofNat 8 queue.length, if dropped then 1 else 0, if p.hire.dropped && queue.isEmpty then 1 else 0])) ∧
        (2 ≤ t.attempt → failed [0x23, 0x28])) ∧
      (∀ next remaining out, r.task = .components next remaining out →
        (4 ≤ r.page + 1 → run (p.register.nextArchive - 1) 64 370 next remaining out .components) ∧
          (2 ≤ t.attempt → partly next remaining out)) ∧
      (∀ next remaining out, r.task = .hires next remaining out →
        (4 ≤ r.page + 1 → run p.hire.newest 320 591 next remaining out .hires) ∧
          (2 ≤ t.attempt → partly next remaining out)) ∧
      (∀ next remaining field sense value skipped timer, r.task = .scan next remaining field sense value skipped timer →
        let newest := p.hire.newest
        let left := remaining - 1
        let found :=
          if field = 0 then natAt record 4 4
          else if field = 1 then ((byteAt record 16).getLsbD 2).toNat
          else if natAt record 19 8 = 0 then 0 else 1
        let skip := bad || natAt record 0 4 != next
        let skipped' := if skip then skipped + 1 else skipped
        let hit := !skip && (if sense = 0 then found == value else found != value)
        let on := ReaderTask.scan (next + 1) left field sense value skipped' timer
        (4 ≤ r.page + 1 →
            (hit = true →
                ReadAnswers s r p
                  ([0x41, 0x00, 0x00] ++ beBytes 4 next ++ beBytes 4 (next + 1) ++ beBytes 2 left ++ beBytes 2 skipped')) ∧
              (hit = false →
                (left = 0 →
                    ReadAnswers s r p ([0x41, 0x00, 0x01] ++ beBytes 4 (next + 1) ++ [0x00, 0x00] ++ beBytes 2 skipped')) ∧
                  (1 ≤ left → newest ≤ next →
                    ReadAnswers s r p
                      ([0x41, 0x00, 0x01] ++ beBytes 4 (next + 1 + left) ++ [0x00, 0x00] ++ beBytes 2 (skipped' + left))) ∧
                  (1 ≤ left → next + 1 ≤ newest → newest < next + 1 + 320 → ReadsNext s r p on) ∧
                  (1 ≤ left → next + 1 + 320 ≤ newest → ReadGoesOn s r p on))) ∧
          (2 ≤ t.attempt → failed ([0x41, 0x28] ++ beBytes 4 next ++ beBytes 2 remaining ++ beBytes 2 skipped))) ∧
      (∀ number index remaining out, r.task = .frames number index remaining out →
        let gone := [0x02] ++ beBytes 2 index
        (p.capture.entryOf number = none →
            (fits out gone → ReadAnswers s r p (records index 0 (out ++ gone))) ∧
              (¬fits out gone → ReadAnswers s r p (records index remaining out))) ∧
          (∀ e x, p.capture.entryOf number = some e → p.capture.entry e = some x →
            let first := 16 * (index / 16)
            let held := min 16 (x.stored - first)
            let covered := min remaining (first + held - index)
            let valid := !spoiled && framePageValid record
            let corrupt := [0x01] ++ beBytes 2 first ++ beBytes 1 held
            let given := min covered ((1016 - out.length) / 23)
            let end_ := index + given
            let left := remaining - given
            let out' := out ++ (List.range given).flatMap fun i =>
              frameEntryBytes x (bytesAt record (16 * (index - first + i)) 16)
            let q := { p with
              capture := p.capture.mapEntry e fun y =>
                { y with read := y.read || (x.state != .opened && decide (0 < given) && end_ == x.stored) } }
            (valid = false →
                (fits out corrupt →
                    ReadGoesOn s r p (.frames number (index + covered) (remaining - covered) (out ++ corrupt))) ∧
                  (¬fits out corrupt → ReadAnswers s r p (records index remaining out))) ∧
              (valid = true →
                (given < covered ∨ left = 0 → ReadAnswers s r q (records end_ left out')) ∧
                  (given = covered → 1 ≤ left → end_ < x.stored →
                    ReadsNext s r q
                      (.frames number end_ (if x.state = .opened then left else min left (x.stored - end_)) out')) ∧
                  (given = covered → 1 ≤ left → x.stored ≤ end_ →
                    (x.state ≠ .opened → ReadAnswers s r q (records end_ 0 out')) ∧
                      (x.state = .opened → fits out' ([0x03] ++ beBytes 2 x.stored) →
                        ReadAnswers s r q (records x.stored left (out' ++ [0x03] ++ beBytes 2 x.stored))) ∧
                      (x.state = .opened → ¬fits out' ([0x03] ++ beBytes 2 x.stored) →
                        ReadAnswers s r q (records x.stored left out'))))) ∧
          (2 ≤ t.attempt → partly index remaining out)) ∧
      (r.page + 1 < 4 → (∀ number index remaining out, r.task ≠ .frames number index remaining out) →
        Leaves .pageReadComplete s p fun u =>
          { r with page := r.page + 1, buffer := record, spoiled := spoiled } ∈ u.storage.readers)

/-- PFW on a running part with no short checkpoint under way: the transaction in progress is abandoned, its page invalid
if it wrote, and a short checkpoint of this moment is placed and granted at once (R160, R161). A full checkpoint being
written waits to be written anew (R161): who waits for it, and its cause where a RESTART is pending, are the model's
reading (log 16). During a short checkpoint only the follow-up is noted. Its withdrawal changes only the line and what
it held (R162). -/
def Obligations.PowerFailWarning : Prop :=
  ∀ s : State, s.part.live = true →
    let p := s.part
    let st := p.storage
    let place := placeCheckpoint shortPages st
    (p.lines.pfw = false → st.short.state = .idle →
        ∃ t, exec .pfwAsserted s = .next t ∧ t.part.lines.pfw = true ∧ t.medium = abandonWrite st.bus s.medium ∧
          t.pending = s.pending ∧ t.part.storage.short.state = .writing ∧ t.part.storage.short.page = 0 ∧
          t.part.storage.short.position = place.1 ∧ t.part.storage.short.sequence = st.nextSequence ∧
          t.part.storage.short.image = some p.shortImage ∧ t.part.storage.nextSequence = st.nextSequence + 1 ∧
          (t.part.storage.bus.map fun x => (x.owner, x.page)) = some (.short, ringPage place.1) ∧
          t.part.register.slots = p.register.slots ∧ t.part.hire = p.hire ∧ t.part.capture = p.capture ∧
          t.part.storage.full =
            if st.full.state = .writing then
              { st.full with
                state := .waiting
                page := 0
                image := none
                cause :=
                  if st.full.pending = true ∧ st.full.pendingCause = .restart then .restart else st.full.cause
                waiters := st.full.waiters ++ st.full.nextWaiters
                nextWaiters := [] }
            else st.full) ∧
      (p.lines.pfw = false → st.short.state ≠ .idle →
        Leaves .pfwAsserted s
          { p with
            lines := { p.lines with pfw := true }
            storage := { st with short := { st.short with followUp := true } } } fun _ => True) ∧
      (p.lines.pfw = true → exec .pfwAsserted s = .next s) ∧
      Leaves .pfwWithdrawn s { p with lines := { p.lines with pfw := false } } fun t => t.lines.pfw = false

/-- Supply loss leaves the lines and the medium, a page being written invalid; everything else is lost (R162). Supply
loss without supply and supply-on with it change nothing, and a restart abandons the page write in progress: the model's
reading (logs 23 and 17). Supply-on starts the restore with every block at its supply-on values, reading the table
image's first page (R163); the departure of Restart's DONE does the same (R39, R178), in the model also with an engine
that has left STOPPED, or an attempt, engagement or capture that has become open, since the request (log 42). A frame
received during a restore is counted and discarded (R1); the restore's page reads go on page by page through the table
image (R163), and a request message has no effect (R172). -/
def Obligations.SupplyRestartAndRestore : Prop :=
  (∀ s : State,
      (s.part.powered = true →
          exec .supplyLoss s =
            .next { s with
              medium := abandonWrite s.part.storage.bus s.medium
              part := { powered := false, lines := s.part.lines } }) ∧
        (s.part.powered = false → exec .supplyLoss s = .next s) ∧
        (s.part.powered = true → exec .supplyOn s = .next s) ∧
        (s.part.powered = false →
          exec .supplyOn s =
            .next { s with
              part :=
                { lines := s.part.lines
                  restore := some { item := .image 0 }
                  modeCtl := { debounce := if s.part.lines.ign then some 100 else none }
                  storage :=
                    { bus := some { owner := .restore, page := 0, write := none, attempt := 1, timer := 20 } } } }) ∧
        ∀ port f, s.part.awake = true → (s.part.port port).state = .running → (s.part.port port).tx = some f →
          f.source = .response .service → (s.part.chan .service).outbox = [] →
          (s.part.chan .service).restartAfter = true →
          exec (.transmissionSucceeded port) s =
            .next { s with
              medium := abandonWrite s.part.storage.bus s.medium
              part :=
                { lines := s.part.lines
                  restore := some { item := .image 0 }
                  modeCtl := { debounce := if s.part.lines.ign then some 100 else none }
                  storage :=
                    { bus := some { owner := .restore, page := 0, write := none, attempt := 1, timer := 20 } } } }) ∧
    (∀ (s : State) (r : Restore) (t : Transaction) (page : Nat), s.part.powered = true → s.part.restore = some r →
      r.item = .image page → s.part.storage.bus = some t → t.owner = .restore → t.write = none → t.page < pageCount →
      (page + 1 < 32 →
          exec .pageReadComplete s =
            .next { s with
              part := { s.part with
                restore := some { r with item := .image (page + 1) }
                storage := { s.part.storage with
                  bus := some { owner := .restore, page := page + 1, write := none, attempt := 1, timer := 20 } } } }) ∧
        (∀ port f svc, frameOk f = true → (s.part.port port).state ≠ .busOff →
          exec (.dataFrameReceived port f svc) s =
            .next { s with
              part := (s.part.setPort port
                { s.part.port port with received := min 4294967295 ((s.part.port port).received + 1) }).setLines
                  { s.part.lines with svc := svc } }) ∧
        ∀ i msg, requestOf i = some (.fleet, msg) → exec i s = .next s)

/-- Short checkpoints applied. A slot's entry applies only to an occupied slot of the same kind and install clock
(R164); of several, the newest entry that matches (log 32). It gives events, time, wear and unobserved; unbinned rises
by the time or events gained; on another spectrum generation the cells fold into unbinned and the generation is the
short's. By the HELD states the pool is the short's, is merged into the figures, or is cleared with the slot HELD. The
folded count is what the restore gives to unbinned beyond the short's, and a sum that was the time or events stays so
unless SATURATED, which is set at any limit (R164). A short's hire of the restored hire's number gives its usage
figures, a missing entry added with the slot's kind and identity; one above every hire the full checkpoint knows is kept
to be re-created; the next hire number is the greatest, and the clock the newest short's (R165). A re-created hire has
the short's number, contract, opening fields and usage, and no marks. -/
def Obligations.ShortCheckpointsApply : Prop :=
  (∀ (c : Component) (e : ShortSlot),
    let gained := c.kind.share e.events e.time - c.kind.share c.events c.time
    let same := e.generation = c.generation
    let cells := if same then c.cells else Vector.replicate 64 0
    let unbinned :=
      min 4294967295 (min 4294967295 (c.unbinned + gained) + if same then 0 else c.cells.toList.sum)
    let r := (c.applyShort e).1
    let figures : Component :=
      { c with
        events := e.events, time := e.time, units := e.units, residue := e.residue, unobserved := e.unobserved
        unbinned := unbinned, cells := cells, generation := e.generation, saturated := r.saturated }
    (c.applyShort e).2 = unbinned - e.unbinned ∧
      (c.hold = none → e.pool = none → r = figures) ∧
      (∀ h q, c.hold = some h → e.pool = some q → r = { figures with hold := some { h with pool := q } }) ∧
      (∀ h, c.hold = some h → e.pool = none → r = { figures with hold := some { h with pool := {} } }) ∧
      (∀ q, c.hold = none → e.pool = some q →
        r =
          { figures with
            events := min 4294967295 (e.events + q.events)
            time := min 4294967295 (e.time + q.time)
            units := (addWear e.units (e.residue + q.residue) (16000 * q.units)).1
            residue := (addWear e.units (e.residue + q.residue) (16000 * q.units)).2.1
            unobserved := min 4294967295 (e.unobserved + q.unobserved)
            unbinned := min 4294967295 (unbinned + c.kind.share q.events q.time) }) ∧
      (r.saturated = true ↔
        c.saturated = true ∨ 4294967295 ≤ r.events ∨ 4294967295 ≤ r.time ∨ 4294967295 ≤ r.unbinned ∨
          4294967295 ≤ r.unobserved ∨ 99999999 ≤ r.units) ∧
      (c.kind.share c.events c.time ≤ c.kind.share e.events e.time →
        c.cellSum + c.unbinned = c.kind.share c.events c.time → r.saturated = false →
        r.cellSum + r.unbinned = c.kind.share r.events r.time)) ∧
  (∀ (shorts : List ShortImage) (last : ShortImage) (n : Nat) (c : Component),
    applyShorts shorts n none = (none, 0) ∧ applyShorts [] n (some c) = (some c, 0) ∧
      (∀ e, last.slots[n]? = some (some e) → e.kind = c.kind → e.installClock = c.installClock →
        applyShorts (shorts ++ [last]) n (some c) = (some (c.applyShort e).1, (c.applyShort e).2)) ∧
      ((∀ e, last.slots[n]? = some (some e) → e.kind ≠ c.kind ∨ e.installClock ≠ c.installClock) →
        applyShorts (shorts ++ [last]) n (some c) = applyShorts shorts n (some c))) ∧
  (∀ (known : Nat) (slots : Vector (Option Component) 12) (hire : Hire) (kept : Option ShortHire) (last : ShortImage),
    let r := applyShortHire known slots (hire, kept) last
    let next := max hire.nextNumber last.nextHire
    (last.hire = none → r = ({ hire with nextNumber := next }, kept)) ∧
      ∀ sh, last.hire = some sh →
        ((∀ h, hire.current = some h → h.number ≠ sh.number) →
            (known ≤ sh.number → r = ({ hire with nextNumber := max next (sh.number + 1) }, some sh)) ∧
              (sh.number < known → r = ({ hire with nextNumber := next }, kept))) ∧
          ∀ h, hire.current = some h → h.number = sh.number → h.usage.Pairwise (fun x y => x.slot < y.slot) →
            sh.usage.Pairwise (fun x y => x.slot < y.slot) →
            ∃ usage, r = ({ hire with nextNumber := next, current := some { h with usage } }, kept) ∧
              usage.Pairwise (fun x y => x.slot < y.slot) ∧
              (∀ u ∈ h.usage, (∀ x ∈ sh.usage, x.slot ≠ u.slot) → u ∈ usage) ∧
              (∀ u ∈ h.usage, ∀ x ∈ sh.usage, x.slot = u.slot → u.takeShort x ∈ usage) ∧
              ∀ x ∈ sh.usage, (∀ u ∈ h.usage, u.slot ≠ x.slot) → ∀ c, slots[x.slot]? = some (some c) →
                ({ slot := x.slot, kind := c.kind, serial := c.identity, events := x.events, time := x.time
                   units := x.units, residue := x.residue, held := x.held, unobserved := x.unobserved } : Usage) ∈ usage) ∧
  (∀ (known : Nat) (shorts : List ShortImage) (last : ShortImage) (p : Part),
    (takeShorts known [] p).1.modeCtl = p.modeCtl ∧
      (takeShorts known (shorts ++ [last]) p).1.modeCtl = { p.modeCtl with clock := last.clock } ∧
      (∀ n, n < 12 → (takeShorts known shorts p).1.slot n = (applyShorts shorts n (p.slot n)).1) ∧
      (takeShorts known shorts p).2.2 = ((List.range 12).map fun n => (applyShorts shorts n (p.slot n)).2).sum) ∧
  (∀ (sh : ShortHire) (slots : Vector (Option Component) 12),
    sh.usage.Pairwise (fun x y => x.slot < y.slot) → (∀ x ∈ sh.usage, ∃ c, slots[x.slot]? = some (some c)) →
    ∃ usage,
      sh.recreate slots =
          { number := sh.number, contract := sh.contract, openClock := sh.openClock, openSync := sh.openSync
            openChannel := sh.openChannel, usage := usage, abuse := Vector.replicate 4 0, abuseList := [], overflow := false
            close := none } ∧
        usage.map (fun u => (u.slot, u.events, u.time, u.units, u.residue, u.unobserved, u.held)) =
          sh.usage.map (fun x => (x.slot, x.events, x.time, x.units, x.residue, x.unobserved, x.held)) ∧
        ∀ u ∈ usage, ∀ c, slots[u.slot]? = some (some c) → u.kind = c.kind ∧ u.serial = c.identity)

/-- The restore after each page it reads. The table image's last page settles the active set and pass-all: a valid
image, or the empty set and TABLE_INVALID (R33). The scan reads each even ring position and, where a header stands, its
checkpoint's pages; valid ones are noted by kind (R163). After the last position the full checkpoint with the highest
sequence gives slots, hire, queue, numberings, mode and clock, and the shorts above it are applied in ascending
sequence; without one, the counting state stays clear and the archive checks are left out (R163). A component record of
the expected number is counted and advances the number, REMOVED emptying a slot of the same kind and identity (R78,
R166); a hire record of the expected number closes the hire it is of and queues it (R109, R120, R166), also the hire
that a short would re-create, which is then not re-created: the model's reading (log 32); that the record of any other
hire is not queued is the model's choice (log 32); at any other record the check ends. Each capture header gives its
entry: FREE when invalid or FREE, FAILED with no frames when OPEN, and the checkpoint's flags for the same number
(R151). After the eighth the restore ends: HELD slots UNVERIFIED and those with a query PENDING, the re-created hire
open, SYNC clear, SUPPLY_GAP by R168, the timers started and a full checkpoint requested (R165, R167, R168). An item not
answered is taken as invalid (R163). -/
def Obligations.RestoreReadsOn : Prop :=
  ∀ (s : State) (r : Restore) (t : Transaction), Restoring s r t →
    let m := s.medium
    let p := s.part
    let reading := fun item : RestoreItem => { r with item := item }
    let noImage : Part :=
      { p with
        modeCtl := { p.modeCtl with active := TableSet.empty, pendingSet := TableSet.empty, passAll := true }
        link := { p.link with tableInvalid := true } }
    let header := fun w : Nat =>
      if m.anySpoiled (32 + w) 1 then none else (headerOf (m.page (32 + w))).filter fun x => decide (w + x.2.2.1 ≤ 480)
    let recovered := { p with
      storage := { p.storage with last := { p.storage.last with recovered := p.storage.last.recovered + 1 } } }
    (r.item = .image 31 →
        (m.validAt 0 32 = true →
          ReadsOn .pageReadComplete s
            { p with
              modeCtl := { p.modeCtl with
                active := readImage (m.pages 0 32), pendingSet := readImage (m.pages 0 32), passAll := false }
              link := { p.link with tableInvalid := false } }
            { r with item := .ringHeader 0, imageValid := true }) ∧
        (m.validAt 0 32 = false →
          ReadsOn .pageReadComplete s noImage { r with item := .ringHeader 0, imageValid := false })) ∧
      (∀ w, r.item = .ringHeader w →
        (∀ sequence kind count cause, header w = some (sequence, kind, count, cause) →
            ReadsOn .pageReadComplete s p (reading (.ringBody w 1 count))) ∧
          (header w = none → w + 2 < 480 → ReadsOn .pageReadComplete s p (reading (.ringHeader (w + 2)))) ∧
          (header w = none → 480 ≤ w + 2 →
            let next := (r.highest.map (·.1)).getD 0 + 1
            (r.fulls = [] →
                ReadsOn .pageReadComplete s
                  { p with storage := { p.storage with nextSequence := next, writePosition := 0, newest := none } }
                  (reading (.captureHeader 0))) ∧
              ∀ (sequence position : Nat) (above : List (Nat × Nat)), (sequence, position) ∈ r.fulls →
                (∀ x ∈ r.fulls, x = (sequence, position) ∨ x.1 < sequence) →
                r.shorts.Pairwise (fun x y => x.1 ≠ y.1) → above.Pairwise (fun x y => x.1 < y.1) →
                (∀ x, x ∈ above ↔ x ∈ r.shorts ∧ sequence < x.1) →
                let full := m.fullAt position
                let q : Part :=
                  { p with
                    register := { p.register with slots := full.slots, nextArchive := full.nextArchive }
                    hire := { p.hire with
                      current := full.hire, queue := full.queue, dropped := full.dropped, nextNumber := full.nextHire
                      newest := full.newestHire }
                    capture := { p.capture with nextNumber := full.nextCapture }
                    modeCtl := { p.modeCtl with
                      mode := if r.imageValid then full.mode else .setup, clock := full.clock } }
                let taken := takeShorts full.nextHire (above.map fun x => m.shortAt x.2) q
                ReadsOn .pageReadComplete s
                  { taken.1 with
                    storage := { p.storage with
                      nextSequence := next
                      writePosition := (r.highest.map (·.2)).getD 0
                      newest := some (sequence, position)
                      last := { taken := some sequence, shorts := above.length, folded := taken.2.2, recovered := 0 } } }
                  { r with
                    item := .component 0, fullFound := true, fullIsRestart := m.causeAt position == 7
                    recreate := taken.2.1, captures := full.captures })) ∧
      (∀ w page count, r.item = .ringBody w page count →
        (page + 1 < count → ReadsOn .pageReadComplete s p (reading (.ringBody w (page + 1) count))) ∧
          (count ≤ page + 1 → w + 2 < 480 →
            (m.checkpointAt w = none → ReadsOn .pageReadComplete s p (reading (.ringHeader (w + 2)))) ∧
              ∀ sequence kind pages, m.checkpointAt w = some (sequence, kind, pages) →
                ReadsOn .pageReadComplete s p
                  { r with
                    item := .ringHeader (w + 2)
                    fulls := if kind = 0 then r.fulls ++ [(sequence, w)] else r.fulls
                    shorts := if kind = 1 then r.shorts ++ [(sequence, w)] else r.shorts
                    highest :=
                      match r.highest with
                      | none => some (sequence, w + pages)
                      | some h => if h.1 < sequence then some (sequence, w + pages) else some h })) ∧
      (∀ page, r.item = .component page →
        let n := p.register.nextArchive
        let at_ := componentPage n
        let next : Part := { recovered with register := { p.register with nextArchive := n + 1 } }
        (page + 1 < 4 → ReadsOn .pageReadComplete s p (reading (.component (page + 1)))) ∧
          (4 ≤ page + 1 →
            (m.validAt at_ 4 = false ∨ readComponentRecord (m.pages at_ 4) = none →
                ReadsOn .pageReadComplete s p (reading (.hire 0))) ∧
              ∀ record, m.validAt at_ 4 = true → readComponentRecord (m.pages at_ 4) = some record →
                (record.number ≠ n → ReadsOn .pageReadComplete s p (reading (.hire 0))) ∧
                  (record.number = n →
                    (∀ c, record.cause = .removed → p.slot record.slot = some c → c.kind = record.component.kind →
                        c.identity = record.component.identity →
                        ReadsOn .pageReadComplete s (next.setSlot record.slot none) (reading (.component 0))) ∧
                      (record.cause = .changed ∨ p.slot record.slot = none ∨
                          (∃ c, p.slot record.slot = some c ∧
                            (c.kind ≠ record.component.kind ∨ c.identity ≠ record.component.identity)) →
                        ReadsOn .pageReadComplete s next (reading (.component 0)))))) ∧
      (∀ page, r.item = .hire page →
        let n := p.hire.newest + 1
        let at_ := hirePage n
        let full := decide (8 ≤ p.hire.queue.length)
        let queued : Hire :=
          { p.hire with
            newest := n
            queue := (if full then p.hire.queue.drop 1 else p.hire.queue) ++ [n]
            dropped := p.hire.dropped || full }
        (page + 1 < 4 → ReadsOn .pageReadComplete s p (reading (.hire (page + 1)))) ∧
          (4 ≤ page + 1 →
            (m.validAt at_ 4 = false ∨ natAt (m.pages at_ 4) 0 4 ≠ n →
                ReadsOn .pageReadComplete s p (reading (.captureHeader 0))) ∧
              (m.validAt at_ 4 = true → natAt (m.pages at_ 4) 0 4 = n →
                (∀ h, p.hire.current = some h → h.number = n →
                    ReadsOn .pageReadComplete s { recovered with hire := { queued with current := none } } (reading (.hire 0))) ∧
                  ((∀ h, p.hire.current = some h → h.number ≠ n) →
                    (∀ h, r.recreate = some h → h.number = n →
                        ReadsOn .pageReadComplete s { recovered with hire := queued }
                          { r with item := .hire 0, recreate := none }) ∧
                      ((∀ h, r.recreate = some h → h.number ≠ n) →
                        ReadsOn .pageReadComplete s { recovered with hire := { p.hire with newest := n } }
                          (reading (.hire 0))))))) ∧
      (∀ e, r.item = .captureHeader e →
        let valid := m.validAt (2048 + 256 * e) 1
        let found := if valid then readCaptureHeader (m.page (2048 + 256 * e)) else none
        let opened := found.any fun x => x.state == .opened
        let flags := r.captures[e]?.getD (0, false, false)
        let entry := found.map fun x =>
          { x with
            locked := if flags.1 = x.number then flags.2.1 else x.locked
            read := if flags.1 = x.number then flags.2.2 else x.read
            state := if x.state = .opened then .failed else x.state
            stored := if x.state = .opened then 0 else x.stored }
        let built : Part :=
          { p with
            capture := { p.capture with
              entries := p.capture.entries.setIfInBounds e entry
              nextNumber := max p.capture.nextNumber ((entry.map (·.number)).getD 0 + 1) }
            link := { p.link with captureReady := p.link.captureReady || opened } }
        let ended := fun q : Part =>
          { q with
            restore := none
            register := { q.register with
              slots := q.register.slots.map fun x => x.map fun c =>
                { c with
                  verification :=
                    if c.hold.isSome then .unverified else if c.query.isSome then .pending else c.verification } }
            hire := { q.hire with
              current := match r.recreate with
                | some h => some (h.recreate q.register.slots)
                | none => q.hire.current }
            wear := { q.wear with timer := some 1000 }
            clutch := { q.clutch with timer := some 100 }
            modeCtl := { q.modeCtl with sync := false }
            link := { q.link with
              supplyGap := r.fullFound && q.storage.last.shorts == 0 && !r.fullIsRestart
              statusTimer := some 1000 } }
        let asks := fun u : Part => u.checkpointing = true ∧ u.storage.full.cause = .restore
        (e + 1 < 8 →
            ReadsOn .pageReadComplete s built (reading (.captureHeader (e + 1))) ∧
              (2 ≤ t.attempt → ReadsOn .storageAnswerTimeout s p.pageFailed (reading (.captureHeader (e + 1))))) ∧
          (8 ≤ e + 1 → p.storage.full.state = .idle →
            Stores .pageReadComplete s m (ended built) asks ∧
              (2 ≤ t.attempt → Stores .storageAnswerTimeout s m (ended p.pageFailed) asks))) ∧
      (2 ≤ t.attempt →
        (∀ page, r.item = .image page →
            ReadsOn .storageAnswerTimeout s
              { noImage with storage := s.part.pageFailed.storage } { r with item := .ringHeader 0, imageValid := false }) ∧
          (∀ w, w + 2 < 480 → (r.item = .ringHeader w ∨ ∃ page count, r.item = .ringBody w page count) →
            ReadsOn .storageAnswerTimeout s p.pageFailed (reading (.ringHeader (w + 2)))) ∧
          (∀ page, r.item = .component page → ReadsOn .storageAnswerTimeout s p.pageFailed (reading (.hire 0))) ∧
          ∀ page, r.item = .hire page → ReadsOn .storageAnswerTimeout s p.pageFailed (reading (.captureHeader 0)))

/-- Where a command stops: an operand that no CAN bus carries (R1) is refused by name, and the end of a transaction on a
page that the medium does not have (R152) faults. DESIGN CHOICE of the model (logs 25 and 26). -/
def Obligations.CommandsThatStop : Prop :=
  (∀ (port : PortId) (f : Frame) (svc : Bool) (s : State),
    8 < f.data.length ∨ (f.format = .base ∧ 2047 < f.ident.toNat) →
    exec (.dataFrameReceived port f svc) s = .refused .notAFrame) ∧
  (∀ (s : State) (t : Transaction), s.part.storage.bus = some t → 4096 ≤ t.page →
    (t.write.isSome = true → ∀ equal, exec (.pageWriteComplete equal) s = .fault .noSuchPage) ∧
      (t.write = none → exec .pageReadComplete s = .fault .noSuchPage))
end

