-- ==== Sys2Proof/Laws/Medium.lean ====
section
/-! SUPPORT. The storage medium: every write keeps its canonical form, and reads give what was written. -/

namespace Sys2Proof.Machine

/-! ## One byte -/

theorem cellsWrite_mem {cells : List Host.Cell} {a : Nat} {v : Byte} {c : Host.Cell} (h : c ∈ cellsWrite cells a v) :
    c ∈ cells ∨ (c = (a, v) ∧ v ≠ blankByte) := by
  induction cells with
  | nil =>
    simp only [cellsWrite] at h
    split at h <;> simp_all
  | cons x rest ih =>
    obtain ⟨k, w⟩ := x
    simp only [cellsWrite] at h
    split_ifs at h <;> simp only [List.mem_cons] at h ⊢ <;> grind

theorem cellsWrite_lower {cells : List Host.Cell} {a low : Nat} {v : Byte} (h : ∀ c ∈ cells, low < c.1) (ha : low < a) :
    ∀ c ∈ cellsWrite cells a v, low < c.1 := by
  intro c hc
  rcases cellsWrite_mem hc with hc | ⟨rfl, -⟩
  · exact h c hc
  · exact ha

theorem cellsWrite_rising {cells : List Host.Cell} (h : cells.Pairwise fun x y => x.1 < y.1) (a : Nat) (v : Byte) :
    (cellsWrite cells a v).Pairwise fun x y => x.1 < y.1 := by
  induction cells with
  | nil =>
    simp only [cellsWrite]
    split <;> simp
  | cons x rest ih =>
    obtain ⟨k, w⟩ := x
    obtain ⟨hk, hr⟩ := List.pairwise_cons.mp h
    simp only [cellsWrite]
    split_ifs with h1 h2 h3 h4
    · exact h
    · refine List.pairwise_cons.mpr ⟨?_, h⟩
      intro y hy
      rcases List.mem_cons.mp hy with rfl | hy
      · exact h1
      · exact Nat.lt_trans h1 (hk y hy)
    · exact hr
    · subst h3; exact List.pairwise_cons.mpr ⟨hk, hr⟩
    · exact List.pairwise_cons.mpr ⟨cellsWrite_lower hk (by omega), ih hr⟩

/-- A byte written within the medium keeps the canonical form. -/
theorem cellsWrite_canonical {cells : List Host.Cell} (h : cellsCanonical cells) {a : Nat}
    (ha : a < pageCount * pageSize) (v : Byte) : cellsCanonical (cellsWrite cells a v) := by
  refine ⟨cellsWrite_rising h.1 a v, fun c hc => ?_⟩
  rcases cellsWrite_mem hc with hc | ⟨rfl, hv⟩
  · exact h.2 c hc
  · exact ⟨ha, hv⟩

theorem cellsRead_lower {cells : List Host.Cell} {a : Nat} (h : ∀ c ∈ cells, a < c.1) : cellsRead cells a = blankByte := by
  induction cells with
  | nil => rfl
  | cons x rest ih =>
    obtain ⟨k, w⟩ := x
    have hk : a < k := h (k, w) (List.mem_cons_self ..)
    simp only [cellsRead, if_neg (Nat.ne_of_gt hk)]
    exact ih fun c hc => h c (List.mem_cons_of_mem _ hc)

/-- Reading after a byte written. -/
theorem cellsRead_write {cells : List Host.Cell} (h : cells.Pairwise fun x y => x.1 < y.1) (a b : Nat) (v : Byte) :
    cellsRead (cellsWrite cells a v) b = if b = a then v else cellsRead cells b := by
  induction cells with
  | nil =>
    simp only [cellsWrite]
    split_ifs with h1 h2 <;> simp_all [cellsRead, eq_comm]
  | cons x rest ih =>
    obtain ⟨k, w⟩ := x
    obtain ⟨hk, hr⟩ := List.pairwise_cons.mp h
    simp only [cellsWrite]
    have low : ∀ c ∈ rest, k < c.1 := hk
    have none_low : ∀ d, d ≤ k → cellsRead rest d = blankByte := fun d hd =>
      cellsRead_lower fun c hc => Nat.lt_of_le_of_lt hd (low c hc)
    split_ifs <;> grind [cellsRead]

/-! ## Bytes in a row -/

theorem cellsWriteAll_canonical {bytes : List Byte} {cells : List Host.Cell} (h : cellsCanonical cells) {a : Nat}
    (ha : a + bytes.length ≤ pageCount * pageSize) : cellsCanonical (cellsWriteAll cells a bytes) := by
  induction bytes generalizing cells a with
  | nil => exact h
  | cons b rest ih =>
    simp only [List.length_cons] at ha
    exact ih (cellsWrite_canonical h (by omega) b) (by omega)

/-- Reading after bytes written in a row. -/
theorem cellsRead_writeAll {bytes : List Byte} {cells : List Host.Cell} (h : cells.Pairwise fun x y => x.1 < y.1)
    (a b : Nat) :
    cellsRead (cellsWriteAll cells a bytes) b =
      if a ≤ b ∧ b < a + bytes.length then bytes.getD (b - a) 0 else cellsRead cells b := by
  induction bytes generalizing cells a with
  | nil => simp [cellsWriteAll]
  | cons x rest ih =>
    rw [cellsWriteAll, ih (cellsWrite_rising h a x), cellsRead_write h]
    by_cases hb : b = a
    · subst hb
      simp
    · by_cases hr : a + 1 ≤ b ∧ b < a + 1 + rest.length
      · have h2 : a ≤ b ∧ b < a + (x :: rest).length := by simp only [List.length_cons]; omega
        rw [if_pos hr, if_pos h2, show b - a = (b - (a + 1)) + 1 by omega, List.getD_cons_succ]
      · have h2 : ¬(a ≤ b ∧ b < a + (x :: rest).length) := by simp only [List.length_cons]; omega
        rw [if_neg hr, if_neg h2, if_neg hb]

theorem padTo_length (n : Nat) (bs : List Byte) : (padTo n bs).length = n := by
  simp [padTo]; omega

theorem padTo_self {n : Nat} {bs : List Byte} (h : bs.length = n) : padTo n bs = bs := by
  simp [padTo, h, List.take_of_length_le]

/-! ## Pages -/

/-- A page write within the medium keeps the canonical form. -/
theorem writePage_wf {m : Medium} (h : m.wf) {page : Nat} (hp : page < pageCount) (bytes : List Byte) :
    (m.writePage page bytes).wf :=
  cellsWriteAll_canonical h (by rw [padTo_length]; simp only [pageCount, pageSize] at *; omega)

/-- A page whose write failed keeps the canonical form. -/
theorem spoilPage_wf {m : Medium} (h : m.wf) (page : Nat) : (m.spoilPage page).wf := by
  unfold Medium.spoilPage
  split
  · exact h
  · rename_i hp
    have hl : ((List.range pageSize).map fun i => Config.freeByte (m.fresh + i)).length = pageSize := by
      rw [List.length_map, List.length_range]
    generalize ((List.range pageSize).map fun i => Config.freeByte (m.fresh + i)) = bytes at hl ⊢
    exact cellsWriteAll_canonical h (by simp only [pageCount, pageSize] at *; omega)

/-- Reading a byte after a page write: the page holds what was written, every other byte is as before. -/
theorem writePage_byte {m : Medium} (h : m.wf) (page : Nat) (bytes : List Byte) (a : Nat) :
    (m.writePage page bytes).byte a =
      if pageSize * page ≤ a ∧ a < pageSize * page + pageSize then (padTo pageSize bytes).getD (a - pageSize * page) 0
      else m.byte a := by
  unfold Medium.byte Medium.writePage
  rw [cellsRead_writeAll h.1, padTo_length]

/-- A page read after it was written. -/
theorem writePage_page {m : Medium} (h : m.wf) (page : Nat) (bytes : List Byte) :
    (m.writePage page bytes).page page = padTo pageSize bytes := by
  apply List.ext_getElem
  · simp [Medium.page, padTo_length]
  · intro i h1 h2
    have hi : i < pageSize := by simpa [Medium.page] using h1
    simp only [Medium.page, List.getElem_map, List.getElem_range]
    rw [writePage_byte h, if_pos ⟨by omega, by omega⟩, Nat.add_sub_cancel_left, List.getD_eq_getElem?_getD,
      List.getElem?_eq_getElem h2, Option.getD_some]

/-- A page read after another was written. -/
theorem writePage_page_other {m : Medium} (h : m.wf) {page other : Nat} (ho : other ≠ page) (bytes : List Byte) :
    (m.writePage page bytes).page other = m.page other := by
  refine List.map_congr_left fun i hi => ?_
  have hi : i < pageSize := List.mem_range.mp hi
  rw [writePage_byte h, if_neg]
  simp only [pageSize] at *
  omega

/-! ## Records closed by a check word (R194) -/

theorem beBytes_length (n v : Nat) : (beBytes n v).length = n := by
  induction n with
  | zero => rfl
  | succ n ih => simp [beBytes, ih]

theorem sealRecord_length {size : Nat} (h : 4 ≤ size) (content : List Byte) : (sealRecord size content).length = size := by
  simp [sealRecord, padTo_length, beBytes_length]; omega

end Sys2Proof.Machine
end

