-- ==== Sys2Proof/Laws/Bytes.lean ====
section
/-! SUPPORT. Numbers as bytes, most significant first, read back; records closed by their check word are valid. -/

namespace Sys2Proof.Machine

theorem ofBe_go (bs : List Byte) (a : Nat) :
    bs.foldl (fun a b => a * 256 + b.toNat) a = a * 256 ^ bs.length + ofBe bs := by
  induction bs generalizing a with
  | nil => simp [ofBe]
  | cons b bs ih =>
    unfold ofBe
    rw [List.foldl_cons, List.foldl_cons, ih, ih (0 * 256 + b.toNat), List.length_cons, pow_succ]
    ring

theorem ofBe_cons (b : Byte) (bs : List Byte) : ofBe (b :: bs) = b.toNat * 256 ^ bs.length + ofBe bs := by
  rw [ofBe, List.foldl_cons, ofBe_go]
  simp

/-- Bytes of a number read back as the number, cut to their width. -/
theorem ofBe_beBytes (n v : Nat) : ofBe (beBytes n v) = v % 256 ^ n := by
  induction n with
  | zero => simp [beBytes, ofBe, Nat.mod_one]
  | succ n ih =>
    rw [beBytes, ofBe_cons, ih, beBytes_length, BitVec.toNat_ofNat, Nat.mul_comm,
      show (2 : Nat) ^ 8 = 256 by norm_num, Nat.add_comm, ← Nat.mod_mul, pow_succ]

theorem ofBe_beBytes_of_lt {n v : Nat} (h : v < 256 ^ n) : ofBe (beBytes n v) = v := by
  rw [ofBe_beBytes, Nat.mod_eq_of_lt h]

theorem ofBe_lt (bs : List Byte) : ofBe bs < 256 ^ bs.length := by
  induction bs with
  | nil => simp [ofBe]
  | cons b bs ih =>
    rw [ofBe_cons, List.length_cons, pow_succ]
    have : b.toNat < 256 := b.isLt
    nlinarith

/-- The bytes of the number that bytes spell are those bytes. -/
theorem beBytes_ofBe (bs : List Byte) : beBytes bs.length (ofBe bs) = bs := by
  induction bs with
  | nil => rfl
  | cons b bs ih =>
    have hlt := ofBe_lt bs
    have hpos : 0 < 256 ^ bs.length := by positivity
    rw [List.length_cons, beBytes, ofBe_cons]
    congr 1
    · rw [Nat.add_comm, Nat.add_mul_div_right _ _ hpos, Nat.div_eq_of_lt hlt, Nat.zero_add]
      simp
    · have mod : ∀ n v k, beBytes n (v + k * 256 ^ n) = beBytes n v := by
        intro n
        induction n with
        | zero => intros; rfl
        | succ n ihn =>
          intro v k
          have hp : 0 < 256 ^ n := by positivity
          rw [beBytes, beBytes]
          congr 1
          · rw [pow_succ, show k * (256 ^ n * 256) = k * 256 * 256 ^ n by ring, Nat.add_mul_div_right _ _ hp]
            apply BitVec.eq_of_toNat_eq
            simp [BitVec.toNat_ofNat, Nat.add_mod]
          · rw [pow_succ, show k * (256 ^ n * 256) = k * 256 * 256 ^ n by ring]
            exact ihn _ _
      rw [Nat.add_comm, mod, ih]

/-- The field written first in a list of fields. -/
theorem natAt_zero (n v : Nat) (rest : List Byte) : natAt (beBytes n v ++ rest) 0 n = v % 256 ^ n := by
  rw [natAt, bytesAt, List.drop_zero, List.take_left' (beBytes_length n v), ofBe_beBytes]

/-- A field after bytes skipped. -/
theorem natAt_append (bs rest : List Byte) (offset n : Nat) :
    natAt (bs ++ rest) (bs.length + offset) n = natAt rest offset n := by
  rw [natAt, bytesAt, List.drop_append, Nat.add_sub_cancel_left, List.drop_eq_nil_of_le (by omega), List.nil_append]
  rfl

theorem natAt_cons (b : Byte) (rest : List Byte) (offset n : Nat) :
    natAt (b :: rest) (offset + 1) n = natAt rest offset n := by
  rw [natAt, bytesAt, List.drop_succ_cons]
  rfl

/-! ## Records closed by a check word (R194) -/

theorem padTo_take (n : Nat) {bs : List Byte} (h : bs.length ≤ n) : (padTo n bs).take bs.length = bs := by
  simp [padTo, List.take_of_length_le h]

/-- A record closed by its check word passes its check. -/
theorem recordValid_sealRecord {size : Nat} (h : 4 ≤ size) (content : List Byte) :
    recordValid size (sealRecord size content) = true := by
  have body : (sealRecord size content).take (size - 4) = padTo (size - 4) content := by
    rw [sealRecord]
    exact List.take_left' (padTo_length _ _)
  rw [recordValid, sealRecord_length h, body]
  simp only [BEq.rfl, Bool.true_and, beq_iff_eq]
  rw [sealRecord, sealRecord, padTo_self (padTo_length _ _)]

end Sys2Proof.Machine
end

