-- ==== Sys2Proof/Laws/State.lean ====
section
/-! SUPPORT. One lemma per field of the part for each of its named updates. -/

namespace Sys2Proof.Machine

/-! ## setStorage -/

@[simp] theorem Part.setStorage_powered (p : Part) (st : Storage) : (p.setStorage st).powered = p.powered := rfl
@[simp] theorem Part.setStorage_lines (p : Part) (st : Storage) : (p.setStorage st).lines = p.lines := rfl
@[simp] theorem Part.setStorage_restore (p : Part) (st : Storage) : (p.setStorage st).restore = p.restore := rfl
@[simp] theorem Part.setStorage_now (p : Part) (st : Storage) : (p.setStorage st).now = p.now := rfl
@[simp] theorem Part.setStorage_portA (p : Part) (st : Storage) : (p.setStorage st).portA = p.portA := rfl
@[simp] theorem Part.setStorage_portB (p : Part) (st : Storage) : (p.setStorage st).portB = p.portB := rfl
@[simp] theorem Part.setStorage_matcher (p : Part) (st : Storage) : (p.setStorage st).matcher = p.matcher := rfl
@[simp] theorem Part.setStorage_signals (p : Part) (st : Storage) : (p.setStorage st).signals = p.signals := rfl
@[simp] theorem Part.setStorage_roles (p : Part) (st : Storage) : (p.setStorage st).roles = p.roles := rfl
@[simp] theorem Part.setStorage_detector (p : Part) (st : Storage) : (p.setStorage st).detector = p.detector := rfl
@[simp] theorem Part.setStorage_clutch (p : Part) (st : Storage) : (p.setStorage st).clutch = p.clutch := rfl
@[simp] theorem Part.setStorage_wear (p : Part) (st : Storage) : (p.setStorage st).wear = p.wear := rfl
@[simp] theorem Part.setStorage_register (p : Part) (st : Storage) : (p.setStorage st).register = p.register := rfl
@[simp] theorem Part.setStorage_hire (p : Part) (st : Storage) : (p.setStorage st).hire = p.hire := rfl
@[simp] theorem Part.setStorage_ring (p : Part) (st : Storage) : (p.setStorage st).ring = p.ring := rfl
@[simp] theorem Part.setStorage_capture (p : Part) (st : Storage) : (p.setStorage st).capture = p.capture := rfl
@[simp] theorem Part.setStorage_modeCtl (p : Part) (st : Storage) : (p.setStorage st).modeCtl = p.modeCtl := rfl
@[simp] theorem Part.setStorage_link (p : Part) (st : Storage) : (p.setStorage st).link = p.link := rfl
@[simp] theorem Part.setStorage_storage (p : Part) (st : Storage) : (p.setStorage st).storage = st := rfl
@[simp] theorem Part.setStorage_chan (p : Part) (st : Storage) (ch : Channel) : (p.setStorage st).chan ch = p.chan ch := by
  cases ch <;> rfl
@[simp] theorem Part.setStorage_port (p : Part) (st : Storage) (id : PortId) : (p.setStorage st).port id = p.port id := by
  cases id <;> rfl

/-! ## setChan -/

@[simp] theorem Part.setChan_powered (p : Part) (ch : Channel) (c : Chan) : (p.setChan ch c).powered = p.powered := by
  cases ch <;> rfl
@[simp] theorem Part.setChan_lines (p : Part) (ch : Channel) (c : Chan) : (p.setChan ch c).lines = p.lines := by
  cases ch <;> rfl
@[simp] theorem Part.setChan_restore (p : Part) (ch : Channel) (c : Chan) : (p.setChan ch c).restore = p.restore := by
  cases ch <;> rfl
@[simp] theorem Part.setChan_now (p : Part) (ch : Channel) (c : Chan) : (p.setChan ch c).now = p.now := by
  cases ch <;> rfl
@[simp] theorem Part.setChan_portA (p : Part) (ch : Channel) (c : Chan) : (p.setChan ch c).portA = p.portA := by
  cases ch <;> rfl
@[simp] theorem Part.setChan_portB (p : Part) (ch : Channel) (c : Chan) : (p.setChan ch c).portB = p.portB := by
  cases ch <;> rfl
@[simp] theorem Part.setChan_matcher (p : Part) (ch : Channel) (c : Chan) : (p.setChan ch c).matcher = p.matcher := by
  cases ch <;> rfl
@[simp] theorem Part.setChan_signals (p : Part) (ch : Channel) (c : Chan) : (p.setChan ch c).signals = p.signals := by
  cases ch <;> rfl
@[simp] theorem Part.setChan_roles (p : Part) (ch : Channel) (c : Chan) : (p.setChan ch c).roles = p.roles := by
  cases ch <;> rfl
@[simp] theorem Part.setChan_detector (p : Part) (ch : Channel) (c : Chan) : (p.setChan ch c).detector = p.detector := by
  cases ch <;> rfl
@[simp] theorem Part.setChan_clutch (p : Part) (ch : Channel) (c : Chan) : (p.setChan ch c).clutch = p.clutch := by
  cases ch <;> rfl
@[simp] theorem Part.setChan_wear (p : Part) (ch : Channel) (c : Chan) : (p.setChan ch c).wear = p.wear := by
  cases ch <;> rfl
@[simp] theorem Part.setChan_register (p : Part) (ch : Channel) (c : Chan) : (p.setChan ch c).register = p.register := by
  cases ch <;> rfl
@[simp] theorem Part.setChan_hire (p : Part) (ch : Channel) (c : Chan) : (p.setChan ch c).hire = p.hire := by
  cases ch <;> rfl
@[simp] theorem Part.setChan_ring (p : Part) (ch : Channel) (c : Chan) : (p.setChan ch c).ring = p.ring := by
  cases ch <;> rfl
@[simp] theorem Part.setChan_capture (p : Part) (ch : Channel) (c : Chan) : (p.setChan ch c).capture = p.capture := by
  cases ch <;> rfl
@[simp] theorem Part.setChan_modeCtl (p : Part) (ch : Channel) (c : Chan) : (p.setChan ch c).modeCtl = p.modeCtl := by
  cases ch <;> rfl
@[simp] theorem Part.setChan_storage (p : Part) (ch : Channel) (c : Chan) : (p.setChan ch c).storage = p.storage := by
  cases ch <;> rfl
@[simp] theorem Part.setChan_chan (p : Part) (ch : Channel) (c : Chan) : (p.setChan ch c).chan ch = c := by
  cases ch <;> rfl
theorem Part.setChan_other (p : Part) {ch d : Channel} (c : Chan) (h : d ≠ ch) : (p.setChan ch c).chan d = p.chan d := by
  cases ch <;> cases d <;> first | rfl | exact absurd rfl h
@[simp] theorem Part.setChan_port (p : Part) (ch : Channel) (c : Chan) (id : PortId) : (p.setChan ch c).port id = p.port id := by
  cases ch <;> cases id <;> rfl
@[simp] theorem Part.setChan_link_foreign (p : Part) (ch : Channel) (c : Chan) : (p.setChan ch c).link.foreign = p.link.foreign := by
  cases ch <;> rfl
@[simp] theorem Part.setChan_link_tableInvalid (p : Part) (ch : Channel) (c : Chan) : (p.setChan ch c).link.tableInvalid = p.link.tableInvalid := by
  cases ch <;> rfl
@[simp] theorem Part.setChan_link_roleLost (p : Part) (ch : Channel) (c : Chan) : (p.setChan ch c).link.roleLost = p.link.roleLost := by
  cases ch <;> rfl
@[simp] theorem Part.setChan_link_supplyGap (p : Part) (ch : Channel) (c : Chan) : (p.setChan ch c).link.supplyGap = p.link.supplyGap := by
  cases ch <;> rfl
@[simp] theorem Part.setChan_link_forwardOverrun (p : Part) (ch : Channel) (c : Chan) : (p.setChan ch c).link.forwardOverrun = p.link.forwardOverrun := by
  cases ch <;> rfl
@[simp] theorem Part.setChan_link_captureReady (p : Part) (ch : Channel) (c : Chan) : (p.setChan ch c).link.captureReady = p.link.captureReady := by
  cases ch <;> rfl
@[simp] theorem Part.setChan_link_mask (p : Part) (ch : Channel) (c : Chan) : (p.setChan ch c).link.mask = p.link.mask := by
  cases ch <;> rfl
@[simp] theorem Part.setChan_link_statusTimer (p : Part) (ch : Channel) (c : Chan) : (p.setChan ch c).link.statusTimer = p.link.statusTimer := by
  cases ch <;> rfl

/-! ## setPort -/

@[simp] theorem Part.setPort_powered (p : Part) (id : PortId) (q : Port) : (p.setPort id q).powered = p.powered := by
  cases id <;> rfl
@[simp] theorem Part.setPort_lines (p : Part) (id : PortId) (q : Port) : (p.setPort id q).lines = p.lines := by
  cases id <;> rfl
@[simp] theorem Part.setPort_restore (p : Part) (id : PortId) (q : Port) : (p.setPort id q).restore = p.restore := by
  cases id <;> rfl
@[simp] theorem Part.setPort_now (p : Part) (id : PortId) (q : Port) : (p.setPort id q).now = p.now := by
  cases id <;> rfl
@[simp] theorem Part.setPort_matcher (p : Part) (id : PortId) (q : Port) : (p.setPort id q).matcher = p.matcher := by
  cases id <;> rfl
@[simp] theorem Part.setPort_signals (p : Part) (id : PortId) (q : Port) : (p.setPort id q).signals = p.signals := by
  cases id <;> rfl
@[simp] theorem Part.setPort_roles (p : Part) (id : PortId) (q : Port) : (p.setPort id q).roles = p.roles := by
  cases id <;> rfl
@[simp] theorem Part.setPort_detector (p : Part) (id : PortId) (q : Port) : (p.setPort id q).detector = p.detector := by
  cases id <;> rfl
@[simp] theorem Part.setPort_clutch (p : Part) (id : PortId) (q : Port) : (p.setPort id q).clutch = p.clutch := by
  cases id <;> rfl
@[simp] theorem Part.setPort_wear (p : Part) (id : PortId) (q : Port) : (p.setPort id q).wear = p.wear := by
  cases id <;> rfl
@[simp] theorem Part.setPort_register (p : Part) (id : PortId) (q : Port) : (p.setPort id q).register = p.register := by
  cases id <;> rfl
@[simp] theorem Part.setPort_hire (p : Part) (id : PortId) (q : Port) : (p.setPort id q).hire = p.hire := by
  cases id <;> rfl
@[simp] theorem Part.setPort_ring (p : Part) (id : PortId) (q : Port) : (p.setPort id q).ring = p.ring := by
  cases id <;> rfl
@[simp] theorem Part.setPort_capture (p : Part) (id : PortId) (q : Port) : (p.setPort id q).capture = p.capture := by
  cases id <;> rfl
@[simp] theorem Part.setPort_modeCtl (p : Part) (id : PortId) (q : Port) : (p.setPort id q).modeCtl = p.modeCtl := by
  cases id <;> rfl
@[simp] theorem Part.setPort_link (p : Part) (id : PortId) (q : Port) : (p.setPort id q).link = p.link := by
  cases id <;> rfl
@[simp] theorem Part.setPort_storage (p : Part) (id : PortId) (q : Port) : (p.setPort id q).storage = p.storage := by
  cases id <;> rfl
@[simp] theorem Part.setPort_port (p : Part) (id : PortId) (q : Port) : (p.setPort id q).port id = q := by
  cases id <;> rfl
theorem Part.setPort_other (p : Part) {id other : PortId} (q : Port) (h : other ≠ id) :
    (p.setPort id q).port other = p.port other := by
  cases id <;> cases other <;> first | rfl | exact absurd rfl h
@[simp] theorem Part.setPort_chan (p : Part) (id : PortId) (q : Port) (ch : Channel) : (p.setPort id q).chan ch = p.chan ch := by
  cases id <;> cases ch <;> rfl

/-! ## setSlot -/

@[simp] theorem Part.setSlot_powered (p : Part) (n : Nat) (c : Option Component) : (p.setSlot n c).powered = p.powered := rfl
@[simp] theorem Part.setSlot_lines (p : Part) (n : Nat) (c : Option Component) : (p.setSlot n c).lines = p.lines := rfl
@[simp] theorem Part.setSlot_restore (p : Part) (n : Nat) (c : Option Component) : (p.setSlot n c).restore = p.restore := rfl
@[simp] theorem Part.setSlot_now (p : Part) (n : Nat) (c : Option Component) : (p.setSlot n c).now = p.now := rfl
@[simp] theorem Part.setSlot_portA (p : Part) (n : Nat) (c : Option Component) : (p.setSlot n c).portA = p.portA := rfl
@[simp] theorem Part.setSlot_portB (p : Part) (n : Nat) (c : Option Component) : (p.setSlot n c).portB = p.portB := rfl
@[simp] theorem Part.setSlot_matcher (p : Part) (n : Nat) (c : Option Component) : (p.setSlot n c).matcher = p.matcher := rfl
@[simp] theorem Part.setSlot_signals (p : Part) (n : Nat) (c : Option Component) : (p.setSlot n c).signals = p.signals := rfl
@[simp] theorem Part.setSlot_roles (p : Part) (n : Nat) (c : Option Component) : (p.setSlot n c).roles = p.roles := rfl
@[simp] theorem Part.setSlot_detector (p : Part) (n : Nat) (c : Option Component) : (p.setSlot n c).detector = p.detector := rfl
@[simp] theorem Part.setSlot_clutch (p : Part) (n : Nat) (c : Option Component) : (p.setSlot n c).clutch = p.clutch := rfl
@[simp] theorem Part.setSlot_wear (p : Part) (n : Nat) (c : Option Component) : (p.setSlot n c).wear = p.wear := rfl
@[simp] theorem Part.setSlot_hire (p : Part) (n : Nat) (c : Option Component) : (p.setSlot n c).hire = p.hire := rfl
@[simp] theorem Part.setSlot_ring (p : Part) (n : Nat) (c : Option Component) : (p.setSlot n c).ring = p.ring := rfl
@[simp] theorem Part.setSlot_capture (p : Part) (n : Nat) (c : Option Component) : (p.setSlot n c).capture = p.capture := rfl
@[simp] theorem Part.setSlot_modeCtl (p : Part) (n : Nat) (c : Option Component) : (p.setSlot n c).modeCtl = p.modeCtl := rfl
@[simp] theorem Part.setSlot_link (p : Part) (n : Nat) (c : Option Component) : (p.setSlot n c).link = p.link := rfl
@[simp] theorem Part.setSlot_storage (p : Part) (n : Nat) (c : Option Component) : (p.setSlot n c).storage = p.storage := rfl
@[simp] theorem Part.setSlot_register_pollQueue (p : Part) (n : Nat) (c : Option Component) :
    (p.setSlot n c).register.pollQueue = p.register.pollQueue := rfl
@[simp] theorem Part.setSlot_register_inHand (p : Part) (n : Nat) (c : Option Component) :
    (p.setSlot n c).register.inHand = p.register.inHand := rfl
@[simp] theorem Part.setSlot_register_waitingProbe (p : Part) (n : Nat) (c : Option Component) :
    (p.setSlot n c).register.waitingProbe = p.register.waitingProbe := rfl
@[simp] theorem Part.setSlot_register_query (p : Part) (n : Nat) (c : Option Component) :
    (p.setSlot n c).register.query = p.register.query := rfl
@[simp] theorem Part.setSlot_register_nextArchive (p : Part) (n : Nat) (c : Option Component) :
    (p.setSlot n c).register.nextArchive = p.register.nextArchive := rfl

/-- A slot written reads back. -/
theorem Part.setSlot_slot (p : Part) {n : Nat} (h : n < 12) (c : Option Component) : (p.setSlot n c).slot n = c := by
  simp [Part.slot, Part.setSlot, h]

/-- Writing a slot leaves the others. -/
theorem Part.setSlot_slot_other (p : Part) {n k : Nat} (h : k ≠ n) (c : Option Component) :
    (p.setSlot n c).slot k = p.slot k := by
  simp [Part.slot, Part.setSlot, Ne.symm h]

/-! ## respond and requestFull -/

@[simp] theorem respond_chan (ch : Channel) (msg : List Byte) (p : Part) :
    (respond ch msg p).chan ch = { p.chan ch with state := .responding, outbox := segments msg, offered := false } := by
  simp [respond]

theorem respond_other (msg : List Byte) (p : Part) {ch d : Channel} (h : d ≠ ch) :
    (respond ch msg p).chan d = p.chan d := by
  simp [respond, Part.setChan_other _ _ h]

@[simp] theorem respond_powered (ch : Channel) (msg : List Byte) (p : Part) : (respond ch msg p).powered = p.powered := by
  simp [respond]
@[simp] theorem respond_lines (ch : Channel) (msg : List Byte) (p : Part) : (respond ch msg p).lines = p.lines := by
  simp [respond]
@[simp] theorem respond_restore (ch : Channel) (msg : List Byte) (p : Part) : (respond ch msg p).restore = p.restore := by
  simp [respond]
@[simp] theorem respond_now (ch : Channel) (msg : List Byte) (p : Part) : (respond ch msg p).now = p.now := by
  simp [respond]
@[simp] theorem respond_portA (ch : Channel) (msg : List Byte) (p : Part) : (respond ch msg p).portA = p.portA := by
  simp [respond]
@[simp] theorem respond_portB (ch : Channel) (msg : List Byte) (p : Part) : (respond ch msg p).portB = p.portB := by
  simp [respond]
@[simp] theorem respond_matcher (ch : Channel) (msg : List Byte) (p : Part) : (respond ch msg p).matcher = p.matcher := by
  simp [respond]
@[simp] theorem respond_signals (ch : Channel) (msg : List Byte) (p : Part) : (respond ch msg p).signals = p.signals := by
  simp [respond]
@[simp] theorem respond_roles (ch : Channel) (msg : List Byte) (p : Part) : (respond ch msg p).roles = p.roles := by
  simp [respond]
@[simp] theorem respond_detector (ch : Channel) (msg : List Byte) (p : Part) : (respond ch msg p).detector = p.detector := by
  simp [respond]
@[simp] theorem respond_clutch (ch : Channel) (msg : List Byte) (p : Part) : (respond ch msg p).clutch = p.clutch := by
  simp [respond]
@[simp] theorem respond_wear (ch : Channel) (msg : List Byte) (p : Part) : (respond ch msg p).wear = p.wear := by
  simp [respond]
@[simp] theorem respond_register (ch : Channel) (msg : List Byte) (p : Part) : (respond ch msg p).register = p.register := by
  simp [respond]
@[simp] theorem respond_hire (ch : Channel) (msg : List Byte) (p : Part) : (respond ch msg p).hire = p.hire := by
  simp [respond]
@[simp] theorem respond_ring (ch : Channel) (msg : List Byte) (p : Part) : (respond ch msg p).ring = p.ring := by
  simp [respond]
@[simp] theorem respond_capture (ch : Channel) (msg : List Byte) (p : Part) : (respond ch msg p).capture = p.capture := by
  simp [respond]
@[simp] theorem respond_modeCtl (ch : Channel) (msg : List Byte) (p : Part) : (respond ch msg p).modeCtl = p.modeCtl := by
  simp [respond]
@[simp] theorem respond_storage (ch : Channel) (msg : List Byte) (p : Part) : (respond ch msg p).storage = p.storage := by
  simp [respond]
@[simp] theorem respond_link_foreign (ch : Channel) (msg : List Byte) (p : Part) :
    (respond ch msg p).link.foreign = p.link.foreign := by
  simp [respond]
@[simp] theorem respond_link_tableInvalid (ch : Channel) (msg : List Byte) (p : Part) :
    (respond ch msg p).link.tableInvalid = p.link.tableInvalid := by
  simp [respond]
@[simp] theorem respond_link_roleLost (ch : Channel) (msg : List Byte) (p : Part) :
    (respond ch msg p).link.roleLost = p.link.roleLost := by
  simp [respond]
@[simp] theorem respond_link_supplyGap (ch : Channel) (msg : List Byte) (p : Part) :
    (respond ch msg p).link.supplyGap = p.link.supplyGap := by
  simp [respond]
@[simp] theorem respond_link_forwardOverrun (ch : Channel) (msg : List Byte) (p : Part) :
    (respond ch msg p).link.forwardOverrun = p.link.forwardOverrun := by
  simp [respond]
@[simp] theorem respond_link_captureReady (ch : Channel) (msg : List Byte) (p : Part) :
    (respond ch msg p).link.captureReady = p.link.captureReady := by
  simp [respond]
@[simp] theorem respond_link_mask (ch : Channel) (msg : List Byte) (p : Part) :
    (respond ch msg p).link.mask = p.link.mask := by
  simp [respond]
@[simp] theorem respond_link_statusTimer (ch : Channel) (msg : List Byte) (p : Part) :
    (respond ch msg p).link.statusTimer = p.link.statusTimer := by
  simp [respond]
@[simp] theorem requestFull_powered (cause : CheckpointCause) (w : Option Waiter) (p : Part) :
    (requestFull cause w p).powered = p.powered := rfl
@[simp] theorem requestFull_lines (cause : CheckpointCause) (w : Option Waiter) (p : Part) :
    (requestFull cause w p).lines = p.lines := rfl
@[simp] theorem requestFull_restore (cause : CheckpointCause) (w : Option Waiter) (p : Part) :
    (requestFull cause w p).restore = p.restore := rfl
@[simp] theorem requestFull_now (cause : CheckpointCause) (w : Option Waiter) (p : Part) :
    (requestFull cause w p).now = p.now := rfl
@[simp] theorem requestFull_portA (cause : CheckpointCause) (w : Option Waiter) (p : Part) :
    (requestFull cause w p).portA = p.portA := rfl
@[simp] theorem requestFull_portB (cause : CheckpointCause) (w : Option Waiter) (p : Part) :
    (requestFull cause w p).portB = p.portB := rfl
@[simp] theorem requestFull_matcher (cause : CheckpointCause) (w : Option Waiter) (p : Part) :
    (requestFull cause w p).matcher = p.matcher := rfl
@[simp] theorem requestFull_signals (cause : CheckpointCause) (w : Option Waiter) (p : Part) :
    (requestFull cause w p).signals = p.signals := rfl
@[simp] theorem requestFull_roles (cause : CheckpointCause) (w : Option Waiter) (p : Part) :
    (requestFull cause w p).roles = p.roles := rfl
@[simp] theorem requestFull_detector (cause : CheckpointCause) (w : Option Waiter) (p : Part) :
    (requestFull cause w p).detector = p.detector := rfl
@[simp] theorem requestFull_clutch (cause : CheckpointCause) (w : Option Waiter) (p : Part) :
    (requestFull cause w p).clutch = p.clutch := rfl
@[simp] theorem requestFull_wear (cause : CheckpointCause) (w : Option Waiter) (p : Part) :
    (requestFull cause w p).wear = p.wear := rfl
@[simp] theorem requestFull_register (cause : CheckpointCause) (w : Option Waiter) (p : Part) :
    (requestFull cause w p).register = p.register := rfl
@[simp] theorem requestFull_hire (cause : CheckpointCause) (w : Option Waiter) (p : Part) :
    (requestFull cause w p).hire = p.hire := rfl
@[simp] theorem requestFull_ring (cause : CheckpointCause) (w : Option Waiter) (p : Part) :
    (requestFull cause w p).ring = p.ring := rfl
@[simp] theorem requestFull_capture (cause : CheckpointCause) (w : Option Waiter) (p : Part) :
    (requestFull cause w p).capture = p.capture := rfl
@[simp] theorem requestFull_modeCtl (cause : CheckpointCause) (w : Option Waiter) (p : Part) :
    (requestFull cause w p).modeCtl = p.modeCtl := rfl
@[simp] theorem requestFull_link (cause : CheckpointCause) (w : Option Waiter) (p : Part) :
    (requestFull cause w p).link = p.link := rfl
@[simp] theorem requestFull_chan (cause : CheckpointCause) (w : Option Waiter) (p : Part) (ch : Channel) :
    (requestFull cause w p).chan ch = p.chan ch := by
  cases ch <;> rfl
@[simp] theorem requestFull_storage_fault (cause : CheckpointCause) (w : Option Waiter) (p : Part) :
    (requestFull cause w p).storage.fault = p.storage.fault := rfl
@[simp] theorem requestFull_storage_writes (cause : CheckpointCause) (w : Option Waiter) (p : Part) :
    (requestFull cause w p).storage.writes = p.storage.writes := rfl
@[simp] theorem requestFull_storage_retries (cause : CheckpointCause) (w : Option Waiter) (p : Part) :
    (requestFull cause w p).storage.retries = p.storage.retries := rfl
@[simp] theorem requestFull_storage_failures (cause : CheckpointCause) (w : Option Waiter) (p : Part) :
    (requestFull cause w p).storage.failures = p.storage.failures := rfl
@[simp] theorem requestFull_storage_bus (cause : CheckpointCause) (w : Option Waiter) (p : Part) :
    (requestFull cause w p).storage.bus = p.storage.bus := rfl
@[simp] theorem requestFull_storage_short (cause : CheckpointCause) (w : Option Waiter) (p : Part) :
    (requestFull cause w p).storage.short = p.storage.short := rfl
@[simp] theorem requestFull_storage_archive (cause : CheckpointCause) (w : Option Waiter) (p : Part) :
    (requestFull cause w p).storage.archive = p.storage.archive := rfl
@[simp] theorem requestFull_storage_archivePage (cause : CheckpointCause) (w : Option Waiter) (p : Part) :
    (requestFull cause w p).storage.archivePage = p.storage.archivePage := rfl
@[simp] theorem requestFull_storage_captureJobs (cause : CheckpointCause) (w : Option Waiter) (p : Part) :
    (requestFull cause w p).storage.captureJobs = p.storage.captureJobs := rfl
@[simp] theorem requestFull_storage_readers (cause : CheckpointCause) (w : Option Waiter) (p : Part) :
    (requestFull cause w p).storage.readers = p.storage.readers := rfl
@[simp] theorem requestFull_storage_nextSequence (cause : CheckpointCause) (w : Option Waiter) (p : Part) :
    (requestFull cause w p).storage.nextSequence = p.storage.nextSequence := rfl
@[simp] theorem requestFull_storage_writePosition (cause : CheckpointCause) (w : Option Waiter) (p : Part) :
    (requestFull cause w p).storage.writePosition = p.storage.writePosition := rfl
@[simp] theorem requestFull_storage_newest (cause : CheckpointCause) (w : Option Waiter) (p : Part) :
    (requestFull cause w p).storage.newest = p.storage.newest := rfl
@[simp] theorem requestFull_storage_last (cause : CheckpointCause) (w : Option Waiter) (p : Part) :
    (requestFull cause w p).storage.last = p.storage.last := rfl

/-- After a request for a full checkpoint one is waiting or being written (R158). -/
theorem requestFull_state (cause : CheckpointCause) (w : Option Waiter) (p : Part) :
    (requestFull cause w p).storage.full.state ≠ .idle := by
  cases h : p.storage.full.state <;> simp [requestFull, h]

end Sys2Proof.Machine
end

