-- ==== Sys2Proof/Laws/Engine.lean ====
section
/-! SUPPORT. What a change of the engine state can do (R53), and the fields of the updates it is made of. -/

namespace Sys2Proof.Machine

/-! ## stopQuiet and setDetector -/

@[simp] theorem stopQuiet_quiet (p : Part) : (stopQuiet p).modeCtl.quiet = none := rfl
@[simp] theorem stopQuiet_mode (p : Part) : (stopQuiet p).modeCtl.mode = p.modeCtl.mode := rfl
@[simp] theorem stopQuiet_active (p : Part) : (stopQuiet p).modeCtl.active = p.modeCtl.active := rfl
@[simp] theorem stopQuiet_save (p : Part) : (stopQuiet p).modeCtl.save = p.modeCtl.save := rfl
@[simp] theorem stopQuiet_detector (p : Part) : (stopQuiet p).detector = p.detector := rfl
@[simp] theorem stopQuiet_roles (p : Part) : (stopQuiet p).roles = p.roles := rfl
@[simp] theorem stopQuiet_clutch (p : Part) : (stopQuiet p).clutch = p.clutch := rfl
@[simp] theorem stopQuiet_wear (p : Part) : (stopQuiet p).wear = p.wear := rfl
@[simp] theorem stopQuiet_register (p : Part) : (stopQuiet p).register = p.register := rfl
@[simp] theorem stopQuiet_hire (p : Part) : (stopQuiet p).hire = p.hire := rfl
@[simp] theorem stopQuiet_ring (p : Part) : (stopQuiet p).ring = p.ring := rfl
@[simp] theorem stopQuiet_capture (p : Part) : (stopQuiet p).capture = p.capture := rfl
@[simp] theorem stopQuiet_link (p : Part) : (stopQuiet p).link = p.link := rfl
@[simp] theorem stopQuiet_storage (p : Part) : (stopQuiet p).storage = p.storage := rfl

@[simp] theorem setDetector_detector (d : Detector) (p : Part) : (setDetector d p).detector = d := rfl
@[simp] theorem setDetector_modeCtl (d : Detector) (p : Part) : (setDetector d p).modeCtl = p.modeCtl := rfl
@[simp] theorem setDetector_roles (d : Detector) (p : Part) : (setDetector d p).roles = p.roles := rfl
@[simp] theorem setDetector_clutch (d : Detector) (p : Part) : (setDetector d p).clutch = p.clutch := rfl
@[simp] theorem setDetector_register (d : Detector) (p : Part) : (setDetector d p).register = p.register := rfl
@[simp] theorem setDetector_hire (d : Detector) (p : Part) : (setDetector d p).hire = p.hire := rfl
@[simp] theorem setDetector_storage (d : Detector) (p : Part) : (setDetector d p).storage = p.storage := rfl

/-! ## changeEngine -/

/-- A change to the state that stands is none. -/
theorem changeEngine_self (p : Part) : changeEngine p.detector.engine p = p := by simp [changeEngine]

/-- Out of STOPPED, not into RUNNING: a table save ends and the quiet timer stops (R28, R53). -/
theorem changeEngine_of_stopped {new : EngineState} {p : Part} (h : p.detector.engine = .stopped) (hs : new ≠ .stopped)
    (hr : new ≠ .running) :
    changeEngine new p = stopQuiet (endSave { p with detector := { p.detector with engine := new } }) := by
  simp [changeEngine, h, hs.symm, hr]

/-- The end of a save changes nothing while none runs. -/
theorem endSave_of_not_saving {p : Part} (h : ∀ m, p.modeCtl.save ≠ .saving m) : endSave p = p := by
  cases hs : p.modeCtl.save with
  | saving m => exact absurd hs (h m)
  | idle => simp [endSave, hs]
  | resaving => simp [endSave, hs]

/-- Out of RUNNING an open engagement closes and nothing else happens (R53, R95). -/
theorem changeEngine_of_running {new : EngineState} {p : Part} (h : p.detector.engine = .running) (hr : new ≠ .running) :
    changeEngine new p =
      { closeEngagement p with detector := { (closeEngagement p).detector with engine := new } } := by
  simp [changeEngine, h, hr, hr.symm]

/-- Between states other than STOPPED and RUNNING, or from one of them into STOPPED, only the state changes (R53). -/
theorem changeEngine_between {new : EngineState} {p : Part} (hs : p.detector.engine ≠ .stopped)
    (hr : p.detector.engine ≠ .running) (hn : new ≠ .running) :
    changeEngine new p = { p with detector := { p.detector with engine := new } } := by
  by_cases h : p.detector.engine = new
  · subst h
    simp [changeEngine]
  · simp [changeEngine, h, hs, hr, hn]

end Sys2Proof.Machine
end

