-- ==== Sys2Proof/Laws/Records.lean ====
section
/-! SUPPORT. Records of several pages: written page by page they read back, and sealed ones are valid in the medium. -/

namespace Sys2Proof.Machine

theorem pageOf_length (k : Nat) (bs : List Byte) : (pageOf k bs).length = pageSize := padTo_length _ _

/-- One page more of a record is written after the pages before it. -/
theorem writePages_succ (m : Medium) (page : Nat) (bytes : List Byte) (count : Nat) :
    m.writePages page bytes (count + 1) =
      (m.writePages page bytes count).writePage (page + count) (pageOf count bytes) := by
  simp [Medium.writePages, List.range_succ]

theorem writePages_wf {m : Medium} (h : m.wf) {page count : Nat} (hp : page + count ≤ pageCount) (bytes : List Byte) :
    (m.writePages page bytes count).wf := by
  induction count with
  | zero => exact h
  | succ n ih =>
    rw [writePages_succ]
    exact writePage_wf (ih (by omega)) (by omega) _

/-- A page after a record was written: its page of the record, or what it was. -/
theorem writePages_page {m : Medium} (h : m.wf) {page count : Nat} (hp : page + count ≤ pageCount) (bytes : List Byte)
    (q : Nat) :
    (m.writePages page bytes count).page q =
      if page ≤ q ∧ q < page + count then pageOf (q - page) bytes else m.page q := by
  induction count with
  | zero => rw [if_neg (by omega)]; rfl
  | succ n ih =>
    rw [writePages_succ]
    by_cases hq : q = page + n
    · subst hq
      rw [writePage_page (writePages_wf h (by omega) _), padTo_self (pageOf_length _ _), if_pos (by omega),
        Nat.add_sub_cancel_left]
    · rw [writePage_page_other (writePages_wf h (by omega) _) hq, ih (by omega)]
      congr 1
      simp only [eq_iff_iff]
      omega

/-- Consecutive pages joined. -/
theorem pages_eq (m : Medium) (page count : Nat) : m.pages page count = (List.range' page count).flatMap m.page := by
  induction count generalizing page with
  | zero => rfl
  | succ n ih => rw [Medium.pages, ih, List.range'_succ, List.flatMap_cons]

/-- The pages of bytes, joined, are the bytes. -/
theorem pageOf_flatMap (count : Nat) (bytes : List Byte) (h : bytes.length = pageSize * count) :
    (List.range count).flatMap (fun k => pageOf k bytes) = bytes := by
  induction count generalizing bytes with
  | zero => exact (List.length_eq_zero_iff.mp h).symm
  | succ n ih =>
    have hd : (bytes.drop pageSize).length = pageSize * n := by rw [List.length_drop, h]; ring_nf; omega
    have first : pageOf 0 bytes = bytes.take pageSize := by
      rw [pageOf, bytesAt, Nat.mul_zero, List.drop_zero]
      exact padTo_self (by rw [List.length_take, h]; simp only [pageSize]; omega)
    have later : ∀ k, pageOf (k + 1) bytes = pageOf k (bytes.drop pageSize) := by
      intro k
      rw [pageOf, pageOf, bytesAt, bytesAt, List.drop_drop]
      congr 3
      ring
    rw [List.range_succ_eq_map, List.flatMap_cons, List.flatMap_map, first]
    simp only [Nat.succ_eq_add_one, later]
    rw [ih _ hd, List.take_append_drop]

/-- A record written page by page reads back. -/
theorem pages_writePages {m : Medium} (h : m.wf) {page count : Nat} (hp : page + count ≤ pageCount) {bytes : List Byte}
    (hb : bytes.length = pageSize * count) : (m.writePages page bytes count).pages page count = bytes := by
  rw [pages_eq, List.range'_eq_map_range, List.flatMap_map]
  refine (List.flatMap_congr fun k hk => ?_).trans (pageOf_flatMap count bytes hb)
  rw [writePages_page h hp, if_pos (by rw [List.mem_range] at hk; omega), Nat.add_sub_cancel_left]

/-- A page written whole is invalid no more. -/
theorem writePages_spoiled (m : Medium) (page : Nat) (bytes : List Byte) (count : Nat) :
    (m.writePages page bytes count).anySpoiled page count = false := by
  have all : ∀ q ∈ (m.writePages page bytes count).spoiled, ¬(page ≤ q ∧ q < page + count) := by
    induction count with
    | zero => intro q _; omega
    | succ n ih =>
      intro q hq
      rw [writePages_succ, Medium.writePage, List.mem_filter, decide_eq_true_eq] at hq
      have := ih q hq.1
      omega
  simp only [Medium.anySpoiled, List.any_eq_false, Bool.and_eq_true, decide_eq_true_eq]
  exact all

/-- A sealed record written page by page is valid in the medium (R163, R194). -/
theorem validAt_writePages {m : Medium} (h : m.wf) {page count : Nat} (hc : 1 ≤ count) (hp : page + count ≤ pageCount)
    (content : List Byte) : (m.writePages page (sealRecord (pageSize * count) content) count).validAt page count = true := by
  have size : 4 ≤ pageSize * count := by simp only [pageSize]; omega
  rw [Medium.validAt, writePages_spoiled, pages_writePages h hp (sealRecord_length size _), recordValid_sealRecord size]
  rfl

end Sys2Proof.Machine
end

