-- ==== Sys2Proof/Laws/Settle.lean ====
section
/-! SUPPORT. What the settling after an event can do: it keeps all that lasts. -/

namespace Sys2Proof.Machine

/-! ## What lasts -/

theorem lasting_setStorage (p : Part) (st : Storage) (h : st.lasting = p.storage.lasting) :
    (p.setStorage st).lasting = p.lasting := by
  simp [Part.lasting, h]

theorem lasting_setChan (p : Part) (ch : Channel) (c : Chan) (h : c.lasting = (p.chan ch).lasting) :
    (p.setChan ch c).lasting = p.lasting := by
  cases ch <;> simp_all [Part.lasting, Part.setChan, Part.chan]

theorem lasting_ring (p : Part) (r : Ring) (h : r.lasting = p.ring.lasting) :
    ({ p with ring := r } : Part).lasting = p.lasting := by
  simp [Part.lasting, h]

theorem lasting_respond (ch : Channel) (msg : List Byte) (p : Part) : (respond ch msg p).lasting = p.lasting :=
  lasting_setChan p ch _ rfl

theorem lasting_requestFull (cause : CheckpointCause) (w : Option Waiter) (p : Part) :
    (requestFull cause w p).lasting = p.lasting := by
  unfold requestFull
  exact lasting_setStorage p _ rfl

/-! ## The arbiter -/

theorem lasting_beginTransaction (o : Owner) (page : Nat) (w : Option (List Byte)) (p : Part) :
    (beginTransaction o page w p).lasting = p.lasting := by
  unfold beginTransaction
  exact lasting_setStorage p _ rfl

theorem lasting_refreshReader (p : Part) (r : Reader) : (refreshReader p r).lasting = p.lasting := by
  unfold refreshReader Part.setReaders
  split
  · rfl
  · split
    · exact lasting_setStorage p _ rfl
    · rw [lasting_respond]; exact lasting_setStorage p _ rfl

theorem lasting_refreshReaders (p : Part) : (refreshReaders p).lasting = p.lasting := by
  unfold refreshReaders
  generalize p.storage.readers = rs
  induction rs generalizing p with
  | nil => rfl
  | cons r rs ih => rw [List.foldl_cons, ih, lasting_refreshReader]

theorem lasting_grantReader (p : Part) : (grantReader p).lasting = p.lasting := by
  unfold grantReader
  split
  · exact lasting_beginTransaction _ _ _ _
  · rfl

theorem lasting_grantFull (p : Part) : (grantFull p).lasting = p.lasting := by
  unfold grantFull
  rw [lasting_beginTransaction]
  split
  · exact lasting_setStorage p _ rfl
  · rfl

theorem lasting_grantShort (p : Part) : (grantShort p).lasting = p.lasting := by
  unfold grantShort
  rw [lasting_beginTransaction]
  exact lasting_setStorage p _ rfl

theorem lasting_drawUp (m : Medium) (j : ArchiveJob) : (drawUp m j).lasting = j.lasting := by
  unfold drawUp
  split <;> rfl

theorem lasting_grantArchive (m : Medium) (job : ArchiveJob) (rest : List ArchiveJob) (p : Part)
    (h : p.storage.archive = job :: rest) : (grantArchive m job rest p).lasting = p.lasting := by
  have key : (p.setStorage { p.storage with archive := drawUp m job :: rest }).lasting = p.lasting :=
    lasting_setStorage p _ (by simp [Storage.lasting, h, lasting_drawUp])
  unfold grantArchive
  dsimp only
  split
  · rw [lasting_beginTransaction]; exact key
  · exact key

theorem lasting_grant (m : Medium) (p : Part) : (grant m p).lasting = p.lasting := by
  unfold grant
  split_ifs
  · rfl
  · exact lasting_grantShort p
  · rw [lasting_grantReader, lasting_refreshReaders]
  · exact lasting_grantFull p
  · exact lasting_beginTransaction _ _ _ _
  · split
    · exact lasting_grantArchive m _ _ p ‹_›
    · exact lasting_beginTransaction _ _ _ _
    · rw [lasting_grantReader, lasting_refreshReaders]

/-! ## The Probe Unit -/

theorem lasting_startAttempt (n : Nat) (p : Part) : (startAttempt n p).lasting = p.lasting := by
  unfold startAttempt
  split <;> rfl

theorem lasting_probeNext (p : Part) : (probeNext p).lasting = p.lasting := by
  unfold probeNext
  dsimp only
  split
  · rfl
  · rfl
  · exact lasting_startAttempt _ p
  · rw [lasting_startAttempt]; rfl
  · rfl

/-! ## The transmitters -/

theorem lasting_movePointer (start : Word32) (p : Part) : (movePointer start p).lasting = p.lasting := rfl

theorem lasting_handOver (rec : RingRecord) (p : Part) : (handOver rec p).lasting = p.lasting := by
  unfold handOver
  rw [lasting_movePointer]
  have key : (markSent rec.sequence p.ring.records).map (fun x => { x with sent := false }) =
      p.ring.records.map (fun x => { x with sent := false }) := by
    unfold markSent
    rw [List.map_map]
    refine List.map_congr_left fun x _ => ?_
    simp only [Function.comp_apply]
    split <;> rfl
  simp [Part.lasting, Ring.lasting, key]

theorem lasting_fillA (p : Part) : (fillA p).lasting = p.lasting := by
  unfold fillA
  split
  · split <;> rfl
  · rfl

theorem lasting_fillB (p : Part) : (fillB p).lasting = p.lasting := by
  unfold fillB
  split
  · split
    · rfl
    · rfl
    · rfl
    · exact lasting_handOver _ p
    · rfl
  · rfl

theorem lasting_offerFrame (ch : Channel) (port : PortId) (f : TxFrame) (p : Part) :
    (offerFrame ch port f p).lasting = p.lasting := by
  cases port <;> cases ch <;> rfl

theorem lasting_offerNext (ch : Channel) (port : PortId) (p : Part) : (offerNext ch port p).lasting = p.lasting := by
  unfold offerNext
  split
  · rfl
  · dsimp only
    split
    · rw [lasting_offerFrame]
      exact lasting_setChan p ch _ (by cases port <;> rfl)
    · split
      · split
        · rfl
        · rw [lasting_offerFrame]
          exact lasting_setChan p ch _ rfl
      · rfl

theorem lasting_linkOffers (p : Part) : (linkOffers p).lasting = p.lasting := by
  simp only [linkOffers, lasting_offerNext]

theorem lasting_transmitSettle (p : Part) : (transmitSettle p).lasting = p.lasting := by
  simp only [transmitSettle, lasting_linkOffers, lasting_fillB, lasting_fillA]

/-- The settling after an event keeps all that lasts. -/
theorem lasting_settle (m : Medium) (p : Part) : (settle m p).lasting = p.lasting := by
  unfold settle
  split
  · rfl
  · split
    · exact lasting_grant m p
    · have key : ∀ q : Part, (settleQuiet q).lasting = q.lasting := fun _ => rfl
      rw [key, lasting_transmitSettle, lasting_probeNext, lasting_grant]

end Sys2Proof.Machine
end

