-- ==== Sys2Proof/Laws/Responses.lean ====
section
/-! SUPPORT. A response under way stays under way through the settling after an event, byte for byte. -/

namespace Sys2Proof.Machine

/-- The response frames of a channel that stand in a transmitter or wait for one. -/
def Part.placedFor (p : Part) (ch : Channel) : List TxFrame := p.placedFrames.filter (TxFrame.respondsFor ch)

/-- At most one response frame of the channel is placed, and the channel knows it. -/
def Part.steady (p : Part) (ch : Channel) : Prop :=
  (p.placedFor ch = [] ∧ (p.chan ch).offered = false) ∨ (∃ x, p.placedFor ch = [x]) ∧ (p.chan ch).offered = true

theorem outgoing_eq (p : Part) (ch : Channel) :
    p.outgoing ch = ((p.placedFor ch).map fun f => f.frame.data) ++ (p.chan ch).outbox := rfl

/-- The channel's response is as before: same state, same frames to come, at most one of them placed. -/
structure SameResponse (ch : Channel) (p q : Part) : Prop where
  state : (q.chan ch).state = (p.chan ch).state
  outgoing : q.outgoing ch = p.outgoing ch
  steady : q.steady ch

theorem SameResponse.trans {ch : Channel} {p q r : Part} (h : SameResponse ch p q) (k : SameResponse ch q r) :
    SameResponse ch p r :=
  ⟨k.state.trans h.state, k.outgoing.trans h.outgoing, k.steady⟩

theorem SameResponse.refl {ch : Channel} {p : Part} (h : p.steady ch) : SameResponse ch p p := ⟨rfl, rfl, h⟩

/-- Frames moved about among the places keep a response as it is. -/
theorem SameResponse.moved {ch : Channel} {p q : Part} (hs : p.steady ch) (hc : q.chan ch = p.chan ch)
    (hp : (q.placedFor ch).Perm (p.placedFor ch)) : SameResponse ch p q := by
  have he : q.placedFor ch = p.placedFor ch := by
    rcases hs with ⟨h, -⟩ | ⟨⟨x, h⟩, -⟩
    · rw [h] at hp ⊢; exact List.perm_nil.mp hp
    · rw [h] at hp ⊢; exact List.perm_singleton.mp hp
  refine ⟨by rw [hc], by rw [outgoing_eq, outgoing_eq, he, hc], ?_⟩
  unfold Part.steady
  rw [he, hc]; exact hs

theorem SameResponse.of_eq {ch : Channel} {p q : Part} (hs : p.steady ch) (hc : q.chan ch = p.chan ch)
    (hp : q.placedFrames = p.placedFrames) : SameResponse ch p q :=
  .moved hs hc (by rw [Part.placedFor, Part.placedFor, hp])

/-! ## The arbiter and the Probe Unit -/

theorem placedFrames_setStorage (p : Part) (st : Storage) : (p.setStorage st).placedFrames = p.placedFrames := rfl

theorem placedFrames_setChan (p : Part) (ch : Channel) (c : Chan) : (p.setChan ch c).placedFrames = p.placedFrames := by
  cases ch <;> rfl

theorem placedFrames_respond (ch : Channel) (msg : List Byte) (p : Part) :
    (respond ch msg p).placedFrames = p.placedFrames := placedFrames_setChan p ch _

theorem refreshReader_same {ch : Channel} (p : Part) (r : Reader) (hr : r.ch ≠ ch) :
    (refreshReader p r).chan ch = p.chan ch ∧ (refreshReader p r).placedFrames = p.placedFrames := by
  unfold refreshReader Part.setReaders
  split
  · exact ⟨rfl, rfl⟩
  · split
    · exact ⟨Part.setStorage_chan _ _ _, rfl⟩
    · exact ⟨by rw [respond_other _ _ hr.symm, Part.setStorage_chan], by rw [placedFrames_respond]; rfl⟩

theorem refreshReaders_same {ch : Channel} (p : Part) (h : ∀ r ∈ p.storage.readers, r.ch ≠ ch) :
    (refreshReaders p).chan ch = p.chan ch ∧ (refreshReaders p).placedFrames = p.placedFrames := by
  unfold refreshReaders
  generalize p.storage.readers = rs at h
  induction rs generalizing p with
  | nil => exact ⟨rfl, rfl⟩
  | cons r rs ih =>
    have h1 := refreshReader_same p r (h r (List.mem_cons_self ..))
    have h2 := ih (refreshReader p r) fun x hx => h x (List.mem_cons_of_mem _ hx)
    rw [List.foldl_cons]
    exact ⟨h2.1.trans h1.1, h2.2.trans h1.2⟩

theorem beginTransaction_chan (o : Owner) (page : Nat) (w : Option (List Byte)) (p : Part) (ch : Channel) :
    (beginTransaction o page w p).chan ch = p.chan ch := Part.setStorage_chan _ _ _

theorem beginTransaction_placedFrames (o : Owner) (page : Nat) (w : Option (List Byte)) (p : Part) :
    (beginTransaction o page w p).placedFrames = p.placedFrames := rfl

theorem grantReader_same {ch : Channel} (p : Part) :
    (grantReader p).chan ch = p.chan ch ∧ (grantReader p).placedFrames = p.placedFrames := by
  unfold grantReader
  split
  · exact ⟨beginTransaction_chan .., rfl⟩
  · exact ⟨rfl, rfl⟩

theorem grant_same {ch : Channel} (m : Medium) (p : Part) (h : ∀ r ∈ p.storage.readers, r.ch ≠ ch) :
    (grant m p).chan ch = p.chan ch ∧ (grant m p).placedFrames = p.placedFrames := by
  have readers := refreshReaders_same p h
  unfold grant
  split_ifs
  · exact ⟨rfl, rfl⟩
  · exact ⟨by rw [grantShort, beginTransaction_chan, Part.setStorage_chan], rfl⟩
  · exact ⟨(grantReader_same _).1.trans readers.1, (grantReader_same (ch := ch) _).2.trans readers.2⟩
  · unfold grantFull
    dsimp only
    rw [beginTransaction_chan, beginTransaction_placedFrames]
    split
    · exact ⟨Part.setStorage_chan _ _ _, rfl⟩
    · exact ⟨rfl, rfl⟩
  · exact ⟨beginTransaction_chan .., rfl⟩
  · split
    · unfold grantArchive
      dsimp only
      split
      · exact ⟨by rw [beginTransaction_chan, Part.setStorage_chan], rfl⟩
      · exact ⟨Part.setStorage_chan _ _ _, rfl⟩
    · exact ⟨beginTransaction_chan .., rfl⟩
    · exact ⟨(grantReader_same _).1.trans readers.1, (grantReader_same (ch := ch) _).2.trans readers.2⟩

theorem sendQuery_same {ch : Channel} (f : Frame) (q : Query) (p : Part) :
    (sendQuery f q p).chan ch = p.chan ch ∧ (sendQuery f q p).placedFor ch = p.placedFor ch := by
  constructor
  · cases ch <;> rfl
  · simp [Part.placedFor, Part.placedFrames, sendQuery, TxFrame.respondsFor]

theorem startAttempt_same {ch : Channel} (n : Nat) (p : Part) :
    (startAttempt n p).chan ch = p.chan ch ∧ (startAttempt n p).placedFor ch = p.placedFor ch := by
  unfold startAttempt
  split
  · exact sendQuery_same ..
  · exact ⟨by cases ch <;> rfl, rfl⟩

theorem probeNext_same {ch : Channel} (p : Part) :
    (probeNext p).chan ch = p.chan ch ∧ (probeNext p).placedFor ch = p.placedFor ch := by
  unfold probeNext
  dsimp only
  split
  · exact ⟨rfl, rfl⟩
  · exact ⟨(sendQuery_same ..).1.trans (by cases ch <;> rfl), (sendQuery_same ..).2⟩
  · exact startAttempt_same ..
  · exact ⟨(startAttempt_same ..).1.trans (by cases ch <;> rfl), (startAttempt_same ..).2⟩
  · exact ⟨rfl, rfl⟩

/-! ## The transmitters -/

theorem fillA_chan (p : Part) (ch : Channel) : (fillA p).chan ch = p.chan ch := by
  unfold fillA
  split
  · split <;> cases ch <;> rfl
  · rfl

theorem fillA_perm (p : Part) : (fillA p).placedFrames.Perm p.placedFrames := by
  unfold fillA
  split
  · rename_i h
    obtain ⟨-, h⟩ := h
    have hn : p.portA.tx = none := by simpa using h
    split
    · exact .refl _
    · rename_i f rest hq
      simp only [Part.placedFrames, hn, hq, Option.toList_none, Option.toList_some, List.nil_append,
        List.cons_append]
      exact List.perm_middle.symm
  · exact .refl _

theorem fillB_chan (p : Part) (ch : Channel) : (fillB p).chan ch = p.chan ch := by
  unfold fillB
  split
  · split <;> cases ch <;> rfl
  · rfl

theorem fillB_perm (p : Part) (ch : Channel) : ((fillB p).placedFor ch).Perm (p.placedFor ch) := by
  unfold fillB
  split
  · rename_i h
    have hn : p.portB.tx = none := by simpa using h.2
    split
    all_goals
      simp only [Part.placedFor, Part.placedFrames, handOver, movePointer, *, Option.toList_none, Option.toList_some,
        List.nil_append, List.append_assoc, List.singleton_append, List.filter_append, List.filter_cons]
    · exact .refl _
    · refine List.Perm.append_left _ ?_
      split <;> simp
    · refine List.Perm.append_left _ ?_
      split <;> simp
    · simp [TxFrame.respondsFor]
    · exact .refl _
  · exact .refl _

theorem offerFrame_chan (ch d : Channel) (port : PortId) (f : TxFrame) (p : Part) :
    (offerFrame d port f p).chan ch = p.chan ch := by
  cases port <;> cases d <;> cases ch <;> rfl

theorem offerFrame_perm (ch d : Channel) (port : PortId) (f : TxFrame) (p : Part)
    (h : p.ring.waitingOf d port = none) :
    ((offerFrame d port f p).placedFor ch).Perm (if f.respondsFor ch then f :: p.placedFor ch else p.placedFor ch) := by
  have all : (offerFrame d port f p).placedFrames.Perm (f :: p.placedFrames) := by
    cases port with
    | a => simp [offerFrame, Part.placedFrames, ← List.append_assoc, List.perm_append_singleton]
    | b =>
      cases d <;> simp only [Ring.waitingOf] at h <;>
        simp only [offerFrame, Part.placedFrames, h, Option.toList_some, Option.toList_none, List.append_nil,
          List.append_assoc, List.nil_append, List.cons_append]
      all_goals
        simp only [← List.append_assoc]
        exact .trans List.perm_middle (by simp)
  have h := all.filter (TxFrame.respondsFor ch)
  rwa [List.filter_cons] at h

theorem setBusy_same (c : Chan) (port : PortId) (b : Option Busy) :
    (c.setBusy port b).state = c.state ∧ (c.setBusy port b).outbox = c.outbox ∧ (c.setBusy port b).offered = c.offered := by
  cases port <;> exact ⟨rfl, rfl, rfl⟩

theorem busy_placed (p : Part) (ch d : Channel) (port : PortId) (b : Busy) (hw : p.ring.waitingOf d port = none) :
    ((offerFrame d port { frame := busyFrame d b.code, source := .busy d, timeout := some b.timeout }
        (p.setChan d ((p.chan d).setBusy port none))).placedFor ch).Perm (p.placedFor ch) := by
  have hp := offerFrame_perm ch d port { frame := busyFrame d b.code, source := .busy d, timeout := some b.timeout }
    (p.setChan d ((p.chan d).setBusy port none)) (by rw [Part.setChan_ring]; exact hw)
  simpa [TxFrame.respondsFor, Part.placedFor, placedFrames_setChan] using hp

theorem offerNext_same {ch d : Channel} {port : PortId} {p : Part} (hs : p.steady ch) :
    SameResponse ch p (offerNext d port p) := by
  unfold offerNext
  split
  · exact .refl hs
  · rename_i hw
    have hw : p.ring.waitingOf d port = none := by simpa using hw
    dsimp only
    split
    · rename_i b _
      have hp := busy_placed p ch d port b hw
      by_cases hd : ch = d
      · subst hd
        have same := setBusy_same (p.chan ch) port none
        have he : (offerFrame ch port { frame := busyFrame ch b.code, source := .busy ch, timeout := some b.timeout }
            (p.setChan ch ((p.chan ch).setBusy port none))).placedFor ch = p.placedFor ch := by
          rcases hs with ⟨h, -⟩ | ⟨⟨x, h⟩, -⟩
          · rw [h] at hp ⊢; exact List.perm_nil.mp hp
          · rw [h] at hp ⊢; exact List.perm_singleton.mp hp
        refine ⟨?_, ?_, ?_⟩
        · rw [offerFrame_chan, Part.setChan_chan, same.1]
        · rw [outgoing_eq, outgoing_eq, he, offerFrame_chan, Part.setChan_chan, same.2.1]
        · unfold Part.steady
          rw [he, offerFrame_chan, Part.setChan_chan, same.2.2]; exact hs
      · exact .moved hs (by rw [offerFrame_chan, Part.setChan_other _ _ hd]) hp
    · split
      · rename_i hr
        split
        · exact .refl hs
        · rename_i data rest ho
          have hp := offerFrame_perm ch d port
            { frame := responseFrame d data, source := .response d, timeout := some responseTimeoutMs }
            (p.setChan d { p.chan d with outbox := rest, offered := true }) (by rw [Part.setChan_ring]; exact hw)
          by_cases hd : ch = d
          · subst hd
            have hnil : p.placedFor ch = [] := by
              rcases hs with ⟨h, -⟩ | ⟨-, h⟩
              · exact h
              · rw [hr.2.2] at h; exact absurd h Bool.false_ne_true
            have hnil' : (p.setChan ch { p.chan ch with outbox := rest, offered := true }).placedFor ch = [] := by
              rw [Part.placedFor, placedFrames_setChan]; exact hnil
            rw [hnil', if_pos (by simp [TxFrame.respondsFor])] at hp
            have he := List.perm_singleton.mp hp
            refine ⟨?_, ?_, ?_⟩
            · rw [offerFrame_chan, Part.setChan_chan]
            · rw [outgoing_eq, outgoing_eq, he, offerFrame_chan, Part.setChan_chan, hnil, ho]; rfl
            · refine .inr ⟨⟨_, he⟩, ?_⟩
              rw [offerFrame_chan, Part.setChan_chan]
          · refine .moved hs (by rw [offerFrame_chan, Part.setChan_other _ _ hd]) ?_
            have hn : (TxFrame.respondsFor ch
                { frame := responseFrame d data, source := .response d, timeout := some responseTimeoutMs }) = false := by
              simp [TxFrame.respondsFor, Ne.symm hd]
            rw [hn] at hp
            simpa [Part.placedFor, placedFrames_setChan] using hp
      · exact .refl hs

theorem linkOffers_same {ch : Channel} {p : Part} (hs : p.steady ch) : SameResponse ch p (linkOffers p) := by
  have h1 := offerNext_same (d := .fleet) (port := .b) hs
  have h2 := offerNext_same (d := .service) (port := .b) h1.steady
  exact (h1.trans h2).trans (offerNext_same h2.steady)

theorem transmitSettle_same {ch : Channel} {p : Part} (hs : p.steady ch) : SameResponse ch p (transmitSettle p) := by
  have h1 := linkOffers_same hs
  have h2 : SameResponse ch (linkOffers p) (fillA (linkOffers p)) :=
    .moved h1.steady (fillA_chan ..) ((fillA_perm _).filter _)
  have h3 : SameResponse ch (fillA (linkOffers p)) (fillB (fillA (linkOffers p))) :=
    .moved h2.steady (fillB_chan ..) (fillB_perm ..)
  exact ((h1.trans h2).trans h3).trans (linkOffers_same h3.steady)

theorem settleQuiet_same {ch : Channel} {p : Part} (hs : p.steady ch) : SameResponse ch p (settleQuiet p) :=
  .of_eq hs (by cases ch <;> rfl) rfl

/-- The settling after an event keeps a response under way, byte for byte. -/
theorem settle_same {ch : Channel} (m : Medium) {p : Part} (hs : p.steady ch)
    (hr : ∀ r ∈ p.storage.readers, r.ch ≠ ch) : SameResponse ch p (settle m p) := by
  have hg := grant_same m p hr
  have h1 : SameResponse ch p (grant m p) := .of_eq hs hg.1 hg.2
  unfold settle
  split
  · exact .refl hs
  · split
    · exact h1
    · have hn := probeNext_same (ch := ch) (grant m p)
      have h2 : SameResponse ch (grant m p) (probeNext (grant m p)) := .moved h1.steady hn.1 (by rw [hn.2])
      have h3 := (h1.trans h2).trans (transmitSettle_same h2.steady)
      exact h3.trans (settleQuiet_same h3.steady)

/-- A response just formed on a channel with nothing under way is under way after the settling (R178). -/
theorem settle_responds (m : Medium) {ch : Channel} {msg : List Byte} {p : Part} (hs : (p.chan ch).state = .responding)
    (ho : (p.chan ch).outbox = segments msg) (hf : (p.chan ch).offered = false) (hp : p.placedFor ch = [])
    (hr : ∀ r ∈ p.storage.readers, r.ch ≠ ch) : (settle m p).responds ch msg := by
  have h := settle_same m (p := p) (ch := ch) (.inl ⟨hp, hf⟩) hr
  exact ⟨h.state.trans hs, by rw [h.outgoing, outgoing_eq, hp, ho]; rfl⟩

end Sys2Proof.Machine
end

