-- ==== Sys2Proof/Laws/Requests.lean ====
section
/-! SUPPORT. The way of a request command: admission finds the part as `Part.taken`, and a response formed there is under
way in the next state. -/

namespace Sys2Proof.Machine

theorem awake_parts {p : Part} (h : p.awake = true) :
    p.live = true ∧ p.modeCtl.asleep = false ∧ p.powered = true ∧ p.restore = none := by
  simp only [Part.awake, Part.live, Bool.and_eq_true, Bool.not_eq_true', Option.isNone_iff_eq_none] at h
  exact ⟨by simp [Part.live, h], h.2, h.1.1, h.1.2⟩

/-- The state after an event that begins no restart: the settling, the medium untouched. -/
theorem after_eq (s : State) {p : Part} (h : p.restore = none) : s.after p = { s with part := settle s.medium p } := by
  simp [State.after, h]

theorem whenAwake_eq (f : Part → Part) {p : Part} (h : p.awake = true) : whenAwake f p = f p := by
  simp [whenAwake, h]

/-- A command of the running, AWAKE part: its effect, then the settling. -/
theorem runAwake_eq (f : Part → Part) {s : State} (h : s.part.awake = true) (hf : (f s.part).restore = none) :
    runAwake f s = .next { s with part := settle s.medium (f s.part) } := by
  rw [runAwake, whenAwake_eq f h, after_eq s hf]

/-- A command on a part that is not running or not AWAKE changes nothing but what settles. -/
theorem runAwake_not (f : Part → Part) {s : State} (h : s.part.awake = false) :
    runAwake f s = .next (s.after s.part) := by
  simp [runAwake, whenAwake, h]

/-! ## The part at admission -/

theorem taken_chan (src : Source) (p : Part) :
    (p.taken src).chan (sourceChannel src) = (p.chan (sourceChannel src)).accept (sourceChannel src) (sourcePort src) := by
  cases src <;> simp [Part.taken, Part.mapChan, sourceChannel, noteWakeCause, sampleSource, Part.chan, Part.setChan]

theorem taken_lasting (src : Source) (p : Part) : (p.taken src).lasting = p.lasting := by
  cases src <;> rfl

theorem taken_placedFrames (src : Source) (p : Part) : (p.taken src).placedFrames = p.placedFrames := by
  cases src <;> rfl

@[simp] theorem taken_storage (src : Source) (p : Part) : (p.taken src).storage = p.storage := by cases src <;> rfl
@[simp] theorem taken_restore (src : Source) (p : Part) : (p.taken src).restore = p.restore := by cases src <;> rfl
@[simp] theorem taken_register (src : Source) (p : Part) : (p.taken src).register = p.register := by cases src <;> rfl
@[simp] theorem taken_hire (src : Source) (p : Part) : (p.taken src).hire = p.hire := by cases src <;> rfl
@[simp] theorem taken_capture (src : Source) (p : Part) : (p.taken src).capture = p.capture := by cases src <;> rfl
@[simp] theorem taken_ring (src : Source) (p : Part) : (p.taken src).ring = p.ring := by cases src <;> rfl
@[simp] theorem taken_detector (src : Source) (p : Part) : (p.taken src).detector = p.detector := by cases src <;> rfl
@[simp] theorem taken_powered (src : Source) (p : Part) : (p.taken src).powered = p.powered := by cases src <;> rfl
@[simp] theorem taken_mode (src : Source) (p : Part) : (p.taken src).modeCtl.mode = p.modeCtl.mode := by cases src <;> rfl
@[simp] theorem taken_save (src : Source) (p : Part) : (p.taken src).modeCtl.save = p.modeCtl.save := by cases src <;> rfl
@[simp] theorem taken_clock (src : Source) (p : Part) : (p.taken src).modeCtl.clock = p.modeCtl.clock := by
  cases src <;> rfl
@[simp] theorem taken_active (src : Source) (p : Part) : (p.taken src).modeCtl.active = p.modeCtl.active := by
  cases src <;> rfl
@[simp] theorem taken_pendingSet (src : Source) (p : Part) : (p.taken src).modeCtl.pendingSet = p.modeCtl.pendingSet := by
  cases src <;> rfl

theorem taken_slot (src : Source) (p : Part) (n : Nat) : (p.taken src).slot n = p.slot n := by
  simp [Part.slot]

/-- The SVC line at the admission of a Service message is the level the message came with. -/
theorem taken_svc (port : PortId) (svc : Bool) (p : Part) : (p.taken (.service port svc)).lines.svc = svc := rfl

/-- A message from a ready source reaches its request with the part as taken. -/
theorem presentMessage_ready {src : Source} {s : State} (h : Ready src s) (msg : List Byte) (hl : lengthFits msg = true)
    (run : Channel → Part → Part) :
    presentMessage src msg run s.part = run (sourceChannel src) (s.part.taken src) := by
  obtain ⟨ha, hp, hi, -, -⟩ := h
  obtain ⟨hlive, hawake, hpow, hres⟩ := awake_parts ha
  have l1 : (sampleSource src s.part).live = true := by cases src <;> exact hlive
  have l2 : ((sampleSource src s.part).port (sourcePort src)).state ≠ .busOff := by
    cases src with
    | fleet => exact hp
    | service port svc => cases port <;> exact hp
  have l3 : wakeCause (sampleSource src s.part) = noteWakeCause (sampleSource src s.part) := by
    have : (sampleSource src s.part).modeCtl.asleep = false := by cases src <;> exact hawake
    simp [wakeCause, this]
  have l4 : ((noteWakeCause (sampleSource src s.part)).chan (sourceChannel src)).state = .idle := by
    cases src <;> exact hi
  unfold presentMessage
  simp only [l1, l2, l3, hl, if_false, if_true, Bool.true_eq_false, takeWhole, l4, Part.taken]

/-- A request command from a ready source: its effect on the part as taken, then the settling. -/
theorem runRequest_ready {src : Source} {s : State} (h : Ready src s) {msg : List Byte} (hl : lengthFits msg = true)
    {run : Channel → Part → Part} {q : Part} (hq : run (sourceChannel src) (s.part.taken src) = q)
    (hr : q.restore = none) : runRequest src msg run s = .next { s with part := settle s.medium q } := by
  rw [runRequest, presentMessage_ready h msg hl, hq, after_eq s hr]

/-! ## Answers -/

/-- What a request leaves when it responds at once: the response on its channel and the rest of the part as the request
found it, but for what it changed. -/
structure Responding (ch : Channel) (msg : List Byte) (p q : Part) : Prop where
  state : (q.chan ch).state = .responding
  outbox : (q.chan ch).outbox = segments msg
  offered : (q.chan ch).offered = false
  placed : q.placedFrames = p.placedFrames
  readers : q.storage.readers = p.storage.readers
  restore : q.restore = p.restore

/-- A response formed last. -/
theorem responding_respond {ch : Channel} {msg : List Byte} {p q : Part} (hp : q.placedFrames = p.placedFrames)
    (hr : q.storage.readers = p.storage.readers) (he : q.restore = p.restore) :
    Responding ch msg p (respond ch msg q) :=
  ⟨by simp, by simp, by simp, by rw [placedFrames_respond, hp], by simp [hr], by simp [he]⟩

/-- A response formed before a request for a full checkpoint. -/
theorem Responding.requestFull {ch : Channel} {msg : List Byte} {p q : Part} (h : Responding ch msg p q)
    (cause : CheckpointCause) (w : Option Waiter) : Responding ch msg p (requestFull cause w q) :=
  ⟨by simpa using h.state, by simpa using h.outbox, by simpa using h.offered, h.placed, by simpa using h.readers,
    by simpa using h.restore⟩

theorem grant_checkpointing (m : Medium) (p : Part) (h : p.checkpointing = true) : (grant m p).checkpointing = true := by
  have hs : p.storage.full.state ≠ .idle := by simpa [Part.checkpointing] using h
  have readers : ∀ q : Part, q.storage.full.state ≠ .idle → (refreshReaders q).storage.full.state ≠ .idle := by
    intro q
    unfold refreshReaders
    generalize q.storage.readers = rs
    induction rs generalizing q with
    | nil => exact id
    | cons r rs ih =>
      intro hq
      rw [List.foldl_cons]
      refine ih _ ?_
      unfold refreshReader Part.setReaders
      split
      · exact hq
      · split <;> simpa using hq
  have reader : ∀ q : Part, q.storage.full.state ≠ .idle → (grantReader q).storage.full.state ≠ .idle := by
    intro q hq
    unfold grantReader
    split <;> simpa [beginTransaction] using hq
  simp only [Part.checkpointing, bne_iff_ne]
  unfold grant
  split_ifs
  · exact hs
  · simpa [grantShort, beginTransaction] using hs
  · exact reader _ (readers _ hs)
  · unfold grantFull
    simp only [beginTransaction, Part.setStorage_storage]
    split <;> simp_all

theorem offerNext_storage (ch : Channel) (port : PortId) (p : Part) : (offerNext ch port p).storage = p.storage := by
  have offer : ∀ (f : TxFrame) (q : Part), (offerFrame ch port f q).storage = q.storage := by
    intro f q; cases port <;> cases ch <;> rfl
  unfold offerNext
  split
  · rfl
  · dsimp only
    split
    · rw [offer, Part.setChan_storage]
    · split
      · split
        · rfl
        · rw [offer, Part.setChan_storage]
      · rfl

theorem fillA_storage (p : Part) : (fillA p).storage = p.storage := by
  unfold fillA
  split
  · split <;> rfl
  · rfl

theorem fillB_storage (p : Part) : (fillB p).storage = p.storage := by
  unfold fillB
  split
  · split <;> rfl
  · rfl

theorem probeNext_storage (p : Part) : (probeNext p).storage = p.storage := by
  have attempt : ∀ (n : Nat) (q : Part), (startAttempt n q).storage = q.storage := by
    intro n q
    unfold startAttempt
    split <;> rfl
  unfold probeNext
  dsimp only
  split <;> first | rfl | exact attempt _ _

theorem settleQuiet_storage (p : Part) : (settleQuiet p).storage = p.storage := rfl

/-- After the grant, the settling leaves the storage controller alone. -/
theorem settle_storage (m : Medium) {p : Part} (h : p.live = true) : (settle m p).storage = (grant m p).storage := by
  unfold settle
  simp only [h, Bool.true_eq_false, if_false]
  split
  · rfl
  · simp only [settleQuiet_storage, transmitSettle, linkOffers, offerNext_storage, fillB_storage, fillA_storage, probeNext_storage]

/-- A full checkpoint asked for stays asked for through the settling (R158). -/
theorem settle_checkpointing (m : Medium) {p : Part} (h : p.checkpointing = true) :
    (settle m p).checkpointing = true := by
  by_cases hl : p.live = true
  · unfold Part.checkpointing
    rw [settle_storage m hl]
    exact grant_checkpointing m p h
  · simpa [settle, hl] using h

/-- A request command that responds at once: the next state and what it holds. -/
theorem request_answers {i : Instr} {src : Source} {s : State} {msg : List Byte} {run : Channel → Part → Part}
    (hi : exec i s = runRequest src msg run s) (h : Ready src s) (hl : lengthFits msg = true) {m : List Byte} {q : Part}
    (hq : run (sourceChannel src) (s.part.taken src) = q)
    (ha : Responding (sourceChannel src) m (s.part.taken src) q) {p : Part → Prop}
    (also : ∀ medium, p (settle medium q)) : Answers i src s m q p := by
  have hr : q.restore = none := by rw [ha.restore, taken_restore]; exact (awake_parts h.1).2.2.2
  have hplaced : q.placedFor (sourceChannel src) = [] := by
    rw [Part.placedFor, ha.placed, taken_placedFrames]
    have := h.2.2.2.1
    rw [outgoing_eq] at this
    exact List.map_eq_nil_iff.mp (List.append_eq_nil_iff.mp this).1
  refine ⟨_, hi.trans (runRequest_ready h hl hq hr), ?_, lasting_settle _ _, also _, rfl, rfl⟩
  exact settle_responds s.medium ha.state ha.outbox ha.offered hplaced (by
    rw [ha.readers, taken_storage]; exact h.2.2.2.2)

end Sys2Proof.Machine
end

