-- ==== Sys2Proof/Tests/Slice0.lean ====
section
/-! SUPPORT. Tests of the model: the checks of WellFormed on ill-formed commands, worked examples of the spec, and for every
statement with hypotheses a state and operands that meet them. -/

namespace Sys2Proof.Tests

open Sys2Proof Sys2Proof.Machine

/-! ## States to test on -/

/-- A new part with nothing waiting at the storage arbiter. -/
def part : Part := { Part.newPart with storage := {} }

/-- That part in a state of its own. -/
def on (p : Part) : State := { part := p }

/-- The state of that part. -/
def idle : State := on part

/-- A part with its Mode Controller as given. -/
def withMode (f : ModeCtl → ModeCtl) (p : Part) : Part := { p with modeCtl := f p.modeCtl }

/-- The part in ACTIVE, out of pass-all. -/
def active : Part := withMode (fun m => { m with mode := .active, passAll := false }) part

/-- The Service channel on port B with the SVC line on. -/
def svcB : Source := .service .b true

/-- A slot's record. -/
def gearbox : Component := Component.starting .gearbox none none 5 100 7 0

/-- A slot's record with a query setup. -/
def axle : Component :=
  Component.starting .axle (some 1)
    (some { queryFormat := .base, queryIdent := 0x100, queryBytes := [], replyFormat := .base, replyIdent := 0x101
            offset := 0 }) 0 0 0 0

/-- A HELD slot's record. -/
def heldAxle : Component := { axle with hold := some { reported := 2 } }

/-- An open hire with one usage entry. -/
def hire : HireRecord where
  number := 1
  contract := 9
  openClock := 0
  openSync := false
  openChannel := .fleet
  usage := [Usage.new 3 gearbox]
  abuse := Vector.replicate 4 0
  abuseList := []
  overflow := false
  close := none

/-- A part with slot 3 occupied, slot 4 HELD and a hire open. -/
def hired (p : Part) : Part :=
  { p with
    register := { p.register with slots := (p.register.slots.set 3 (some gearbox)).set 4 (some heldAxle) }
    hire := { p.hire with current := some hire, nextNumber := 2 } }

/-- A closed capture's entry. -/
def closedEntry : CaptureEntry where
  number := 1
  cause := .request
  clock := 0
  sync := false
  ringTime := 0
  seq := 0
  preAsked := 0
  postAsked := 1
  available := 0
  stored := 1
  lost := 0
  state := .complete
  locked := false
  read := false

/-- A Capture Unit with one entry. -/
def captures (e : CaptureEntry) : Capture :=
  { entries := (Vector.replicate 8 none).set 0 (some e), nextNumber := 2 }

/-- A response frame of a channel. -/
def response (ch : Channel) : TxFrame := { frame := responseFrame ch [], source := .response ch, timeout := some 1000 }

/-- A frame from another source. -/
def sentBy (source : TxSource) : TxFrame := { frame := responseFrame .fleet [], source, timeout := none }

/-- The part with a frame in port B's transmitter. -/
def sending (f : TxFrame) (p : Part) : Part := { p with portB := { p.portB with tx := some f } }

/-- A page write of the full checkpoint in progress. -/
def writing (page attempt : Nat) : Part :=
  { part with
    storage :=
      { bus := some
          { owner := .full, page := 32 + page, write := some (List.replicate 256 0), attempt, timer := 20 }
        full := { state := .writing, page } } }

/-- A page read of Collect Hire in progress. -/
def collecting (page : Nat) : Part :=
  { part with
    hire := { queue := [1], newest := 1, nextNumber := 2 }
    storage :=
      { bus := some { owner := .reader .fleet, page := 768 + page, write := none, attempt := 1, timer := 20 }
        readers :=
          [{ ch := .fleet, task := .collect 1 false, page, buffer := List.replicate (256 * page) 0, spoiled := false }] } }

/-- A restore reading the table image. -/
def restoring (page : Nat) : Part :=
  { restore := some { item := .image page }
    storage := { bus := some { owner := .restore, page, write := none, attempt := 1, timer := 20 } } }

/-! ## WellFormed (SUPPORT for R1, R173, R176 and 10.1): each check refuses an ill-formed command -/

theorem test_wellFormed_longFrame :
    wellFormed (.dataFrameReceived .a { format := .base, ident := 1, data := List.replicate 9 0 } false) = false := by
  decide

theorem test_wellFormed_wideIdentifier :
    wellFormed (.dataFrameReceived .a { format := .base, ident := 0x800, data := [] } false) = false := by decide

theorem test_wellFormed_fleetOnPortA :
    wellFormed (.responseTimeout (.held .fleet .a)) = false ∧
      wellFormed (.responseTimeout (.waiting .fleet .a)) = false := by decide

theorem test_wellFormed_knownCode : wellFormed (.unknownRequest .fleet 0x01 []) = false := by decide

theorem test_wellFormed_longUnknown : wellFormed (.unknownRequest .fleet 0x77 (List.replicate 1024 0)) = false := by
  show ((codeLength (0x77 : Byte).toNat).isNone && messageFits (1 + (List.replicate 1024 (0 : Byte)).length)) = false
  rw [List.length_replicate]
  decide

theorem test_wellFormed_longItem : wellFormed (.writeTable .fleet 0 0 (List.replicate 1022 0)) = false := by
  show (messageFits (3 + (List.replicate 1022 (0 : Byte)).length)) = false
  rw [List.length_replicate]
  decide

theorem test_wellFormed_longList : wellFormed (.acknowledgeConditions .fleet (List.replicate 1024 0)) = false := by
  show (messageFits (1 + (List.replicate 1024 (0 : Byte)).length)) = false
  rw [List.length_replicate]
  decide

/-! ## Hypotheses that are met: the step, messages, records -/

/-- A sleeping part whose debounce runs with IGN on. -/
def asleep : Part :=
  { withMode (fun m => { m with asleep := true, debounce := some 0 }) part with lines := { ign := true } }

theorem witness_IdleStepPassesTime :
    idle.pending = [] ∧ Part.unpowered.powered = false ∧ part.powered = true ∧ part.dueCommands = [] ∧
      { part with capture := { driveTimer := some 0 } }.dueCommands = [.captDriveTimerExpiry] := by decide

theorem witness_StepKeepsMediumCanonical :
    State.reset.medium.wf ∧ ∃ t, step { State.reset with pending := [.deviceClockTick] } = .next t :=
  ⟨by decide, _, rfl⟩

theorem witness_StepKeepsPortAOwn :
    { part with portA := { tx := some (sentBy .probe) } }.portAOwn ∧
      ∃ t, step { on { part with portA := { tx := some (sentBy .probe) } } with pending := [.supplyLoss] } = .next t :=
  ⟨by decide, _, rfl⟩

theorem witness_StepKeepsCountsSound :
    (hired part).restore = none ∧ (hired part).countsSound = true ∧
      ∃ t, step { on (hired part) with pending := [.supplyLoss] } = .next t :=
  ⟨by decide, by decide, _, rfl⟩

theorem witness_RequestMessagesAreTheirRequests :
    wellFormed (.setMode .fleet 1) = true ∧ requestOf (.setMode .fleet 1) = some (.fleet, [0x03, 1]) := by decide

theorem witness_SegmentsReassemble :
    (∀ n ∈ [1, 7, 8, 1024], 1 ≤ (List.replicate n (0 : Byte)).length ∧ (List.replicate n (0 : Byte)).length ≤ 1024) ∧
      (part.chan .service).state = .idle := by
  refine ⟨fun n hn => ?_, rfl⟩
  rw [List.length_replicate]
  revert n
  decide

theorem witness_SingleFrameIsItsRequest :
    (wellFormed (.describe .fleet) = true ∧ requestOf (.describe .fleet) = some (.fleet, [0x01]) ∧
        ([0x01] ++ [0, 0, 0, 0, 0, 0] : List Byte).length ≤ 7 ∧ part.receives .b = true ∧ part.lines.svc = false) ∧
      requestOf (.setClock (.service .a true) 5) = some (.service .a true, [0x04, 0, 0, 0, 5]) ∧
        part.receives .a = true ∧ part.register.query = none := by decide

theorem witness_TableItemsReadBack :
    (0 : Nat) ≤ 6 ∧ 63 < itemCount 0 ∧ (List.replicate (itemLength 0) (0 : Byte)).length = itemLength 0 ∧
      (∃ u, TableSet.empty.withItem 0 63 (List.replicate (itemLength 0) 0) = .ok u) ∧
      9 < itemCount 2 ∧ ∃ u, TableSet.empty.withItem 2 9 (List.replicate (itemLength 2) 0) = .ok u :=
  ⟨by decide, by decide, by decide, ⟨_, rfl⟩, by decide, _, rfl⟩

theorem witness_WrittenCheckpointIsFound :
    ({} : Medium).wf ∧ (kindFull = kindFull ∧ 20 = fullPages) ∧ 460 + 20 ≤ ringPages ∧
      (kindShort = kindShort ∧ 4 = shortPages) ∧ 476 + 4 ≤ ringPages ∧ (0 : Nat) ≤ max32 ∧
      ([] : List Byte).length ≤ 248 + 251 * (4 - 1) - 4 := by decide

/-! ## Hypotheses that are met: ports -/

/-- A frame that no table entry matches. -/
def stray : Frame := { format := .base, ident := 0x7FF, data := [1, 2, 3, 4, 5, 6, 7, 8] }

theorem witness_FramesThatGoNoFurther :
    (part.receives .a = true ∧ Part.unpowered.receives .a = false) ∧
      frameOk stray = true ∧ active.awake = true ∧ (active.port .a).state ≠ .busOff ∧ active.register.query = none ∧
      isReserved stray.format stray.ident.toNat = false ∧ active.modeCtl.passAll = false ∧
      active.modeCtl.active.findFrame .a stray = none ∧ active.modeCtl.active.findFrame .b stray = none ∧
      frameOk { format := .base, ident := 0x6E0, data := [] } = true := by decide

theorem witness_FramesAreRecordedAndDecoded_passAll :
    frameOk stray = true ∧ part.awake = true ∧ part.portA.state ≠ .busOff ∧
      isReserved stray.format stray.ident.toNat = false ∧ part.modeCtl.passAll = true ∧ part.register.query = none := by
  decide

/-- A one-byte signal of a frame, read as it stands. -/
def byteOf (frame start : Nat) : SignalEntry where
  frame := frame
  start := start
  length := 8
  highFirst := false
  signed := false
  multiplier := 1
  shift := 0
  offset := 0
  minimum := 0
  maximum := 200

/-- A set whose entry 63 is the stray frame on port A, with two of its bytes as signals 0 and 47, entry 62 the same frame on
port B with a signal 1; and roles of every shape over them. -/
def decodingSet : TableSet :=
  { TableSet.empty with
    frames :=
      (TableSet.empty.frames.set 63
        (some { port := .a, format := .base, ident := 0x7FF, forward := true, period := 100 })).set 62
        (some { port := .b, format := .base, ident := 0x7FF, forward := false, period := 100 })
    signals := ((TableSet.empty.signals.set 0 (some (byteOf 63 0))).set 47 (some (byteOf 63 56))).set 1 (some (byteOf 62 0))
    roles :=
      (((TableSet.empty.roles.set 1 { primary := some 0, backup := some 1 }).set 2 { primary := some 1, backup := some 47 }).set 3
        { primary := some 0, backup := some 47 }).set 4 { primary := some 47, backup := some 0 } }

/-- The part in ACTIVE on that set, roles 1 and 2 on the source given. -/
def decoding (source : RoleSource) (returns : Nat) : Part :=
  { withMode (fun m => { m with active := decodingSet }) active with
    roles := (active.roles.set 1 { source, value := some 5, returns }).set 2 { source, value := some 5, returns } }

theorem witness_FramesAreRecordedAndDecoded :
    (decoding .none 0).awake = true ∧ ((decoding .none 0).port .a).state ≠ .busOff ∧
      (decoding .none 0).modeCtl.passAll = false ∧ (decoding .none 0).register.query = none ∧
      decodingSet.findFrame .a stray = some 63 ∧ (decodingSet.frame 63).isSome = true ∧
      decodingSet.findFrame .b stray = some 62 ∧ (decodingSet.frame 62).isSome = true ∧
      (decodingSet.signal 47).map (·.frame) = some 63 ∧ (decodingSet.signal 1).map (·.frame) = some 62 ∧
      decodingSet.signal 2 = none := by decide

/-- The sources of roles that a frame carries, and samples of it that are USABLE or not (R16). -/
theorem witness_FramesAreRecordedAndDecoded_roles :
    judgeSample (byteOf 63 56) stray.data = (.usable, 8) ∧ (judgeSample (byteOf 63 56) [1]).1 = .shortFrame ∧
      (decodingSet.roles[1].primary, decodingSet.roles[1].backup) = (some 0, some 1) ∧
      (decodingSet.roles[2].primary, decodingSet.roles[2].backup) = (some 1, some 47) ∧
      (decodingSet.roles[3].primary, decodingSet.roles[3].backup) = (some 0, some 47) ∧
      (decodingSet.roles[4].primary, decodingSet.roles[4].backup) = (some 47, some 0) ∧
      decodingSet.roles[5].primary = none ∧ (decoding .backup 1).roles[1].source = .backup ∧
      (decoding .backup 1).roles[1].returns + 1 ≠ 3 ∧ (decoding .backup 2).roles[1].returns + 1 = 3 ∧
      (decoding .primary 0).roles[2].source = .primary ∧ (decoding .none 0).roles[3].source = .none := by decide

/-- A full ring with a waiting record at the pointer before 4,095 others, and a frame in port B's transmitter. -/
def overrunning (p : Part) : Part :=
  let record : RingRecord := { sequence := 0, arrival := 0, frame := stray, forward := true, sent := false, receivedAt := 0 }
  { p with
    portB := { p.portB with tx := some (sentBy .status) }
    ring := { records := record :: List.replicate 4095 { record with sent := true }, next := 4096, age := some 1 } }

/-- A set whose entry 63, the stray frame on port A, is not forwarded. -/
def keepingSet : TableSet :=
  { TableSet.empty with
    frames := TableSet.empty.frames.set 63
      (some { port := .a, format := .base, ident := 0x7FF, forward := false, period := 100 }) }

/-- An overrun under pass-all, after which the new record is the next one waiting, or with a table entry that does not
forward, after which none waits; and a ring that is not full. -/
theorem witness_FramesAreRecordedAndDecoded_overrun :
    (∀ p ∈ [overrunning part, overrunning (withMode (fun m => { m with active := keepingSet }) active)],
        4096 ≤ p.ring.records.length ∧
          p.ring.records.head?.map (fun x => (x.forward, x.sent, x.sequence)) = some (true, false, p.ring.pointer) ∧
          p.portB.tx.isSome = true ∧ ∀ x ∈ p.ring.records.drop 1, x.waiting = false) ∧
      ((overrunning part).awake = true ∧ (overrunning part).portA.state ≠ .busOff ∧
        (overrunning part).register.query = none ∧ (overrunning part).modeCtl.passAll = true ∧
        ((0 : Word32) - 4096).toInt ≤ ((4096 : Word32) - (4096 + 1)).toInt ∧
        (overrunning part).now - (overrunning part).now < (overrunning part).modeCtl.active.limits.maximumAge) ∧
      (keepingSet.findFrame .a stray = some 63 ∧ (keepingSet.frame 63).map (·.forward) = some false) ∧
      part.ring.records.length < 4096 := by
  refine ⟨fun p hp => ?_, by decide, by decide, by decide⟩
  have h : ∀ q, 4096 ≤ (overrunning q).ring.records.length ∧
      (overrunning q).ring.records.head?.map (fun x => (x.forward, x.sent, x.sequence)) =
        some (true, false, (overrunning q).ring.pointer) ∧
      (overrunning q).portB.tx.isSome = true ∧ ∀ x ∈ (overrunning q).ring.records.drop 1, x.waiting = false := by
    intro q
    refine ⟨?_, rfl, rfl, fun x hx => ?_⟩
    · show 4096 ≤ (List.replicate 4095 _).length + 1
      rw [List.length_replicate]
    · obtain rfl := List.eq_of_mem_replicate (n := 4095) hx
      rfl
  rcases List.mem_cons.mp hp with rfl | hp
  · exact h _
  · obtain rfl := List.mem_singleton.mp hp
    exact h _

theorem witness_ErrorLevelFollowsTransmissions :
    (part.awake = true ∧ ((sending (sentBy .forward) part).port .b).state = .running ∧
        ((sending (sentBy .forward) part).port .b).tx = some (sentBy .forward) ∧
        ∀ ch, (sentBy .forward).source ≠ .response ch) ∧
      { part with portB := { part.portB with recovery := some 0 } }.portB.recovery.isSome = true ∧
      (sentBy .probe).source = .probe := by
  refine ⟨⟨by decide, by decide, by decide, fun ch => by cases ch <;> decide⟩, by decide, by decide⟩

/-- The part with the last frame of a Fleet response in port B's transmitter. -/
def lastFrame (outbox : List (List Byte)) : Part :=
  { sending (response .fleet) part with
    link := { part.link with fleet := { state := .responding, outbox, offered := true } } }

theorem witness_ResponseFrameLeaves :
    (lastFrame []).awake = true ∧ ((lastFrame []).port .b).state = .running ∧
      ((lastFrame []).port .b).tx = some (response .fleet) ∧
      ((lastFrame []).placedFrames.filter (TxFrame.respondsFor .fleet)) = [response .fleet] ∧
      ((lastFrame []).chan .fleet).state = .responding ∧ (∀ r ∈ (lastFrame []).storage.readers, r.ch ≠ .fleet) ∧
      ((lastFrame []).chan .fleet).restartAfter = false ∧ ((lastFrame [[0x21]]).chan .fleet).outbox ≠ [] := by decide

theorem witness_PortBGrantOrder :
    part.portB.state = .running ∧ part.portB.tx = none ∧
      { part with ring := { part.ring with waitingFleet := some (response .fleet) } }.ring.waitingFleet.isSome = true ∧
      ¬((sending (response .fleet) part).portB.tx = none) := by decide

/-! ## Hypotheses that are met: signals, engine starts, wear -/

/-- A one-byte signal with a multiplier of 1/2. -/
def half : SignalEntry where
  frame := 0
  start := 0
  length := 8
  highFirst := false
  signed := false
  multiplier := 1
  shift := 1
  offset := -40
  minimum := 0
  maximum := 50

/-- A sample of each of two qualities; 101 at 1/2 is 50 rounded down, less 40 (R10). -/
theorem witness_ValueIsExactFloor :
    judgeSample half [101] = (.usable, 10) ∧ (judgeSample half [10]).1 = .outOfRange := by decide

/-- The part with a role served by signal 0 and in its place a backup, signal 1. -/
def roled (status : SignalStatus) : Part :=
  { withMode (fun m => { m with
      active := { m.active with roles := m.active.roles.set 0 { primary := some 0, backup := some 1 } } }) part with
    signals := (part.signals.set 0 { status := .fresh, value := some 1, deadline := some 0 }).set 1
      { status, value := some 2 }
    roles := part.roles.set 0 { source := .primary, value := some 1 } }

theorem witness_FreshnessExpiryMakesStale :
    (roled .fresh).awake = true ∧ ((roled .fresh).signal 0).deadline.isSome = true ∧
      (roled .fresh).modeCtl.active.roles[0].primary = some 0 ∧ (roled .fresh).roles[0].source = .primary ∧
      (roled .fresh).modeCtl.active.roles[0].backup = some 1 ∧ ((roled .fresh).signal 1).status = .fresh ∧
      ((roled .fresh).signal 1).value = some 2 ∧ ((roled .stale).signal 1).status ≠ .fresh := by decide

/-- The same, for expiries of a backup, of a primary while the backup is selected, and of sources that are not selected. -/
theorem witness_FreshnessExpiryMakesStale_backup :
    let chosen := fun (source : RoleSource) (primary backup : SignalStatus) =>
      { roled .fresh with
        signals := (part.signals.set 0 { status := primary, value := some 1, deadline := some 0 }).set 1
          { status := backup, value := some 2, deadline := some 0 }
        roles := part.roles.set 0 { source, value := some 1, returns := 2 } }
    (∀ source ∈ [RoleSource.primary, .backup, .none],
        (chosen source .fresh .fresh).awake = true ∧ ((chosen source .fresh .fresh).signal 1).deadline.isSome = true ∧
          (chosen source .fresh .fresh).roles[0].source = source) ∧
      (chosen .backup .fresh .fresh).modeCtl.active.roles[0].backup = some 1 ∧
      ((chosen .backup .fresh .fresh).signal 0).value = some 1 ∧
      ((chosen .backup .stale .fresh).signal 0).status ≠ .fresh ∧
      (chosen .backup .fresh .fresh).modeCtl.active.roles[1].primary = none := by decide

/-- A required role that loses its only source in ACTIVE with the ignition on; and a part that judges no role. -/
theorem witness_FreshnessExpiryMakesStale_roleLost :
    let p := withMode (fun m => { m with mode := .active, ignition := true }) (hired (roled .stale))
    p.awake = true ∧ (p.signal 0).deadline.isSome = true ∧ p.modeCtl.mode = .active ∧ p.modeCtl.ignition = true ∧
      p.slot 3 = some gearbox ∧ 0 ∈ gearbox.kind.requiredRoles ∧ p.roles[0].source ≠ .none ∧
      (p.roleStep 0 .expiry 0).role.source = .none ∧
      (roled .stale).modeCtl.mode ≠ .active := by decide

/-- An open attempt. -/
def attempt : Attempt := { openedAt := 0, coolant := some 20, starterSeen := true, duration := none }

/-- ACTIVE, CRANKING with an attempt open, a STARTER in slot 0. -/
def cranking : Part :=
  { active with
    detector := { engine := .cranking, attempt := some attempt, windowA := some 0 }
    register := { active.register with
      slots := active.register.slots.set 0 (some (Component.starting .starter none none 0 0 0 0)) } }

/-- ACTIVE, CATCHING, an ENGINE in slot 11. -/
def catching : Part :=
  { active with
    detector := { engine := .catching, windowB := some 0 }
    register := { active.register with
      slots := active.register.slots.set 11 (some (Component.starting .engine none none 4294967295 0 0 0)) } }

theorem witness_WindowExpiriesAct :
    (cranking.awake = true ∧ cranking.detector.engine = .cranking ∧ cranking.detector.windowA.isSome = true ∧
        cranking.detector.attempt = some attempt ∧ cranking.modeCtl.mode = .active ∧ attempt.starterSeen = true ∧
        cranking.slotOfKind .starter = some 0 ∧ (cranking.slot 0).isSome = true ∧ catching.slotOfKind .starter = none) ∧
      catching.awake = true ∧ catching.detector.engine = .catching ∧ catching.detector.windowB.isSome = true ∧
        catching.slotOfKind .engine = some 11 ∧
        (catching.slot 11).any (fun c => c.hold.isNone && c.ranged) = true := by decide

/-- The ENGINE slot HELD, a query setup on it, and the first run: what window B's expiry credits and queues. -/
theorem witness_WindowExpiriesAct_start :
    let held : Component := { axle with kind := .engine, hold := some { reported := 2 } }
    let p := { catching.setSlot 11 (some held) with
      detector := { catching.detector with attempt := some { attempt with duration := some 9 }, firstRun := true } }
    p.awake = true ∧ p.detector.engine = .catching ∧ p.detector.windowB.isSome = true ∧
      p.detector.firstRun = true ∧ p.slot 11 = some held ∧ held.query ≠ none ∧ held.ranged = true ∧
      held.hold = some { reported := 2 } ∧ ({} : Pool).ranged = true ∧ axle.hold = none ∧ axle.ranged = true := by decide

/-- RUNNING with an engine speed. -/
def turning (speed : Int) : Part :=
  { active with
    detector := { engine := .running }
    roles := active.roles.set 0 { source := .primary, value := some speed } }

/-- An engine state with an attempt, an engine speed, a starter state, and a STARTER in slot 0 and an ENGINE in slot 11. -/
def engineAt (engine : EngineState) (duration : Option Nat) (speed : Option Int) (starter : Int) : Part :=
  { cranking with
    now := 1000
    detector := { engine, attempt := some { attempt with duration }, firstRun := false }
    register := { cranking.register with slots := cranking.register.slots.set 11 (catching.slot 11) }
    roles := (active.roles.set 0 { source := if speed.isSome then .primary else .none, value := speed }).set 8
      { source := .primary, value := some starter } }

theorem witness_DetectorEvaluations_speeds :
    (∀ v ∈ [(59 : Int), 60, 299, 300, 399, 400],
        (engineAt .stopped none (some v) 0).usableValue roleEngineSpeed = some v) ∧
      (engineAt .stopped none none 0).usableValue roleEngineSpeed = none ∧
      (engineAt .stopped none none 0).clutch.engagement = none ∧
      (engineAt .stopped none none 0).modeCtl.save = .idle ∧
      (engineAt .stopped none none 1).starterActive = true ∧ (engineAt .stopped none none 0).starterActive = false ∧
      (engineAt .stopped none none 0).modeCtl.active.limits.crank = 60 ∧
      (engineAt .stopped none none 0).modeCtl.active.limits.stall = 300 ∧
      (engineAt .stopped none none 0).modeCtl.active.limits.run = 400 := by decide

theorem witness_DetectorEvaluations :
    (engineAt .cranking none (some 59) 0).detector.attempt = some { attempt with duration := none } ∧
      (engineAt .catching (some 9) (some 59) 0).detector.attempt = some { attempt with duration := some 9 } ∧
      attempt.starterSeen = true ∧ (engineAt .cranking none (some 59) 0).modeCtl.mode = .active ∧
      (engineAt .cranking none (some 59) 0).slotOfKind .starter = some 0 ∧
      ((engineAt .cranking none (some 59) 0).slot 0).isSome = true ∧ part.slotOfKind .starter = none ∧
      (turning 299).clutch.engagement = none ∧ (engineAt .unknown none (some 400) 0).detector.engine = .unknown ∧
      (engineAt .unknown none (some 400) 0).detector.firstRun = false ∧
      (engineAt .unknown none (some 400) 0).judgesRoles = false ∧
      (engineAt .unknown none (some 400) 0).slotOfKind .engine = some 11 ∧
      ((engineAt .unknown none (some 400) 0).slot 11).isSome = true ∧ (turning 400).slotOfKind .engine = none := by decide

theorem witness_WearSumsAreExact :
    (99999998 ≤ 99999999 ∧ 15999 < 16000 ∧ 99999998 + (15999 + 16000) / 16000 ≤ 99999999) ∧
      99999999 < 99999999 + (15999 + 1) / 16000 := by decide

/-- A credit of one second. -/
def second (place : Placement) : Credit := { events := 0, time := 1, place, wear := 16, unobserved := 0 }

theorem witness_WearSumsAreExact_credits :
    gearbox.hold = none ∧ gearbox.saturated = false ∧ 63 < 64 ∧ (second (.cell 63 1)).place = .cell 63 1 ∧
      1 = gearbox.kind.share 0 1 ∧ gearbox.cellSum + gearbox.unbinned = gearbox.kind.share gearbox.events gearbox.time ∧
      (gearbox.credit (second (.cell 63 1))).saturated = false ∧
      (second (.unbinned 1)).place = .unbinned 1 := by decide

theorem witness_WearSumsAreExact_pool :
    heldAxle.ranged = true ∧
      heldAxle.units + 1 + (heldAxle.residue + 15999) / 16000 ≤ 99999999 ∧
      99999999 < heldAxle.units + 100000000 + (heldAxle.residue + 0) / 16000 := by decide

theorem witness_CreditGoesToSlotAndHire :
    (hired part).slot 0 = none ∧ (hired part).slot 3 = some gearbox ∧ gearbox.hold = none ∧
      (hired part).slot 4 = some heldAxle ∧ heldAxle.hold = some { reported := 2 } ∧ part.hire.current = none ∧
      (hired part).hire.current = some hire ∧ hire.usage.Pairwise (fun x y => x.slot < y.slot) ∧
      Usage.new 3 gearbox ∈ hire.usage ∧ (Usage.new 3 gearbox).slot = 3 ∧ (∀ u ∈ hire.usage, u.slot ≠ 4) ∧
      (second .nowhere).place = .nowhere ∧ (second (.unbinned 1)).place = .unbinned 1 ∧
      (second (.cell 63 1)).place = .cell (63 : Fin 64).val 1 := by decide

theorem witness_IntervalExpiryCreditsSlots :
    (hired active).awake = true ∧ (hired active).wear.timer.isSome = true ∧ (hired active).modeCtl.mode = .active ∧
      part.modeCtl.mode ≠ .active ∧ (hired active).slot 3 = some gearbox ∧ gearbox.kind.continuous = true ∧
      (cranking.slot 0).any (fun c => c.kind.continuous == false) = true ∧ part.axes .engine = (none, none) := by decide

/-- Roles of the Clutch Monitor with a slip. -/
def slipping (slip : Int) : Part :=
  { active with
    detector := { engine := .running }
    clutch := { timer := some 0, engagement := some { below := 2 } }
    roles := ((((active.roles.set 0 { source := .primary, value := some (1000 + slip) }).set 3
      { source := .primary, value := some 1000 }).set 5 { source := .primary, value := some 3 }).set 1
      { source := .primary, value := some 50 }).set 4 { source := .primary, value := some 0 } }

theorem witness_SlippingEvaluationAddsEnergy :
    (slipping 40).awake = true ∧ (slipping 40).clutch.timer.isSome = true ∧ (slipping 40).modeCtl.mode = .active ∧
      (slipping 40).detector.engine = .running ∧ (slipping 40).clutchRoles = some (1040, 1000, 3, 50) ∧ (3 : Int) ≠ 0 ∧
      (slipping 40).modeCtl.active.limits.slip ≤ (1040 - 1000 : Int).natAbs ∧ part.modeCtl.mode ≠ .active ∧
      part.clutch.timer.isSome = true := by decide

/-- An engagement open with a role not usable, in gear 0, and with the engine RUNNING. -/
theorem witness_AbuseEpisodesAndMarks_closes :
    let p := { slipping 40 with roles := (slipping 40).roles.set 3 {} }
    let q := { slipping 40 with roles := (slipping 40).roles.set 5 { source := .primary, value := some 0 } }
    p.clutch.engagement = some { below := 2 } ∧ p.clutchRoles = none ∧ q.clutch.engagement = some { below := 2 } ∧
      q.clutchRoles = some (1040, 1000, 0, 50) ∧ p.detector.engine = .running ∧ EngineState.unknown ≠ .running := by decide

theorem witness_ThirdBelowCountCloses :
    (slipping 39).clutch.engagement = some { below := 2 } ∧
      (slipping 39).clutchRoles = some (1039, 1000, 3, 50) ∧ (1039 - 1000 : Int).natAbs < 40 ∧
      (slipping 39).modeCtl.active.limits.slip = 40 ∧ 2 + 1 = 3 := by decide

/-- A part whose ENGINE slot has 200 s of own time and a reference, with 10 as its reported hours. -/
def metered (reference : Option (Nat × Nat)) (mode : Mode) : Part :=
  withMode (fun m => { m with mode })
    { hired active with
      register := { active.register with
        slots := active.register.slots.set 11
          (some { Component.starting .engine none none 0 200 0 0 with reference }) }
      roles := active.roles.set 9 { source := .primary, value := some 10 } }

theorem witness_HoursAreReconciled :
    ((metered none .active).role roleHours).value = some 10 ∧ part.slotOfKind .engine = none ∧
      (metered none .active).slotOfKind .engine = some 11 ∧
      (((metered none .active).slot 11).map fun c => (c.reference, c.time)) = some (none, 200) ∧
      (((metered (some (10, 20)) .active).slot 11).map fun c => (c.reference, c.time)) = some (some (10, 20), 200) ∧
      (metered (some (10, 20)) .paused).modeCtl.mode ≠ .active ∧ (metered (some (10, 20)) .active).modeCtl.mode = .active ∧
      (13 - 10) * 180 ≤ 200 - 20 + 360 ∧ 200 - 20 + 360 < (14 - 10) * 180 := by decide

/-- A part whose engine and clutch are abused: a run in progress of each interval kind, at the length given, and the
values that its roles show. -/
def abused (episode : Episode) (speed torque coolant : Int) : Part :=
  { hired active with
    detector := { engine := .running }
    register := { (hired active).register with
      slots := ((hired active).register.slots.set 11 (some (Component.starting .engine none none 0 0 0 0))).set 0
        (some (Component.starting .clutch none none 0 0 0 0)) }
    hire := { (hired active).hire with overspeed := episode, coldLoad := episode, lugging := episode }
    roles := ((active.roles.set 0 { source := .primary, value := some speed }).set 1
      { source := .primary, value := some torque }).set 2 { source := .primary, value := some coolant } }

/-- Conditions met at their limits and just missed, and runs that reach a duration or do not. -/
theorem witness_AbuseEpisodesAndMarks :
    (abused {} 2301 0 0).usableValue roleEngineSpeed = some 2301 ∧ abuseCondition .overspeed (abused {} 2300 0 0) = none ∧
      abuseCondition .coldLoad (abused {} 0 70 39) = some 39 ∧ abuseCondition .coldLoad (abused {} 0 70 40) = none ∧
      abuseCondition .lugging (abused {} 899 90 50) = some 899 ∧ abuseCondition .lugging (abused {} 900 90 50) = none ∧
      (abused { run := 1 } 2301 0 0).awake = true ∧ (abused { run := 1 } 2301 0 0).wear.timer.isSome = true ∧
      (abused { run := 1 } 2301 0 0).modeCtl.mode = .active ∧ abuseDuration .overspeed (abused {} 0 0 0).modeCtl.active.limits = 2 ∧
      (abused {} 0 0 0).slotOfKind .engine = some 11 ∧ ((abused {} 0 0 0).slot 11).isSome = true := by decide

/-- Limits whose OVERSPEED flag asks for a capture that drives the line. -/
def capturingAbuse : Part :=
  withMode (fun m => { m with
      active := { m.active with
        limits := { abuse := (Vector.replicate 4 ({} : AbuseCapture)).set 0 { capture := true, drive := true, pre := 1, post := 1 } } } })
    (abused {} 0 0 0)

/-- The record of a Confirm Change being written for the ENGINE slot. -/
def changeRecord : ArchiveRecord :=
  { number := 1, cause := .changed, clock := 0, successor := 9, slot := 11
    component := Component.starting .engine none none 0 0 0 0 }

theorem witness_AbuseEpisodesAndMarks_mark :
    Cause.hotEngagement.num < 4 ∧ ((abused {} 0 0 0).modeCtl.active.limits.abuse[3]?.getD ({} : AbuseCapture)).capture = false ∧
      part.hire.current = none ∧ (abused {} 0 0 0).hire.current = some hire ∧ hire.abuseList.length < 16 ∧
      { abused {} 0 0 0 with
        storage := { archive := [.component changeRecord 0 0 0 (Vector.replicate 4 0)] } }.storage.archive =
        .component changeRecord 0 0 0 (Vector.replicate 4 0) :: [] ∧ changeRecord.slot = 11 ∧
      (capturingAbuse.modeCtl.active.limits.abuse[0]?.getD ({} : AbuseCapture)).capture = true ∧ capturingAbuse.capture.anyOpen = false ∧
      capturingAbuse.capture.nextNumber ≠ exhausted ∧ capturingAbuse.capture.choose = some 0 := by decide

/-- A hire with one abuse entry. -/
def markedHire : HireRecord :=
  { hire with abuseList := [{ kind := .overspeed, clock := 0, slot := some 11, magnitude := 2301, capture := none }] }

theorem witness_AbuseEpisodesAndMarks_extreme :
    let p := abused { run := 2, marked := true, extreme := some 2301, mark := some (1, 0) } 2302 0 0
    let q := { p with
      hire := { p.hire with current := some markedHire }
      clutch := { timer := none, engagement := some { energy := 60001 } } }
    (q.hire.episode .overspeed).marked = true ∧ (q.hire.episode .overspeed).extreme = some 2301 ∧
      (q.hire.episode .overspeed).mark = some (markedHire.number, 0) ∧ q.hire.current = some markedHire ∧
      markedHire.abuseList[0]?.isSome = true ∧ abuseCondition .overspeed q = some 2302 ∧ max (2301 : Int) 2302 ≠ 2301 ∧
      q.clutch.engagement = some { energy := 60001 } ∧ q.modeCtl.active.limits.hotEnergy = 60000 ∧
      q.slotOfKind .clutch = some 0 ∧ (q.slot 0).isSome = true := by decide

/-! ## Hypotheses that are met: lines and timers -/

theorem witness_ClockLinesAndDebounce :
    part.live = true ∧ Part.unpowered.live = false ∧ part.powered = true ∧ Part.unpowered.powered = false ∧
      (withMode (fun m => { m with debounce := some 0 }) part).awake = true ∧
      (withMode (fun m => { m with debounce := some 0 }) part).modeCtl.debounce.isSome = true := by decide

theorem witness_QuietExpiryAndWake :
    asleep.live = true ∧ asleep.modeCtl.asleep = true ∧ asleep.modeCtl.debounce.isSome = true ∧
      asleep.lines.ign = true ∧ asleep.storage.readers = [] ∧
      (withMode (fun m => { m with quiet := some 0 }) part).awake = true ∧
      (withMode (fun m => { m with quiet := some 0 }) part).modeCtl.quiet.isSome = true := by decide

/-- Frames of each kind on a sleeping part's ports, a request, and a part whose quiet timer runs. -/
theorem witness_QuietExpiryAndWake_frames :
    (asleep.live = true ∧ asleep.modeCtl.asleep = true ∧ frameOk stray = true ∧ (asleep.port .a).state ≠ .busOff ∧
        (asleep.port .b).state ≠ .busOff ∧ ¬(stray.format = .base ∧ (stray.ident = 0x6E0 ∨ stray.ident = 0x6F0)) ∧
        frameOk { format := .base, ident := 0x6F0, data := [1, 1] } = true) ∧
      (wellFormed (.describe .fleet) = true ∧ requestOf (.describe .fleet) = some (.fleet, [0x01]) ∧ sourcePort .fleet = .b) ∧
      part.awake = true ∧ part.detector.engine = .stopped ∧ EngineState.cranking ≠ .stopped := by decide

/-- The part with a capture OPEN and triggers waiting. -/
def capturing (queue : List Trigger) : Part :=
  { part with capture := { captures { closedEntry with state := .opened } with queue } }

/-- A trigger. -/
def trigger : Trigger := triggerRecord .captLine 0 1 false none part

/-- The part with its CAPT trigger flag clear. -/
def captOff : Part :=
  withMode (fun m => { m with active := { m.active with limits := { captTrigger := false } } }) part

theorem witness_CaptFallTriggers :
    part.awake = true ∧ captOff.modeCtl.active.limits.captTrigger = false ∧
      part.modeCtl.active.limits.captTrigger = true ∧ part.capture.driveTimer = none ∧ part.capture.anyOpen = false ∧
      part.capture.nextNumber ≠ exhausted ∧ part.capture.choose = some 0 ∧ part.ring.fill ≤ 4096 ∧
      (capturing [trigger]).capture.anyOpen = true ∧ (capturing [trigger]).capture.queue.length < 2 ∧
      2 ≤ (capturing [trigger, trigger]).capture.queue.length := by decide

/-- The part with one waiting record in its ring. -/
def oneWaiting : Part :=
  { part with
    ring := { records := [{ sequence := 0, arrival := 0, frame := stray, forward := true, sent := false, receivedAt := 0 }]
              next := 1, age := some 0 } }

/-- The part with a copier. -/
def copying : Part :=
  { part with
    capture := { postTimeout := some 0
                 copier := some
                   { entry := 0, takenAt := 0, cursor := 0, windowEnd := 9, buffer := [], pageAsked := false
                     finalAsked := false } } }

theorem witness_TimerExpiriesAct_post_age :
    (copying.awake = true ∧ copying.capture.postTimeout.isSome = true ∧ copying.capture.copier.isSome = true) ∧
      oneWaiting.awake = true ∧ oneWaiting.ring.age.isSome = true ∧
      oneWaiting.ring.distance oneWaiting.ring.pointer < 0 ∧
      ∀ r ∈ oneWaiting.ring.records, r.waiting = true → r.sequence = oneWaiting.ring.pointer := by decide

/-- A query in progress, for a probe or for a verification attempt of slot 4. -/
def querying (forProbe : Bool) (attempt : Nat) : Part :=
  { hired part with
    register := { (hired part).register with
      query := some { forProbe, replyFormat := .base, replyIdent := 0x101, sent := true, timer := 0 }
      inHand := some { slot := 4, attempt } } }

theorem witness_TimerExpiriesAct_reply :
    (querying true 1).awake = true ∧ (querying true 1).register.query.any (·.forProbe) = true ∧
      (querying true 1).outgoing .service = [] ∧ (querying true 1).storage.readers = [] ∧
      (querying false 3).register.query.any (·.forProbe) = false ∧
      (querying false 3).register.inHand = some { slot := 4, attempt := 3 } ∧
      (querying false 2).slot 4 = some heldAxle ∧ (querying false 2).register.waitingProbe = none := by decide

/-- A query in progress whose frame has left or not, with a COUNTING, a HELD or an EMPTY slot 4 in hand or none, and replies
that carry its serial, another one, or none. -/
theorem witness_FramesAreRecordedAndDecoded_reply :
    let reply := fun data : List Byte => ({ format := .base, ident := 0x101, data } : Frame)
    let counting := (querying false 1).setSlot 4 (some axle)
    (frameOk (reply [0, 0, 0, 0, 0, 1]) = true ∧ (querying true 1).portA.state ≠ .busOff ∧
        (querying true 1).register.query.any (fun q => q.sent && q.replyFormat == .base && q.replyIdent == 0x101) = true ∧
        isReserved (reply []).format (reply []).ident.toNat = false) ∧
      (axle.query.map (·.offset)).getD 0 = 0 ∧ 0 + 6 ≤ (reply [0, 0, 0, 0, 0, 1]).data.length ∧
      (reply [0, 0, 0, 0, 1]).data.length < 0 + 6 ∧ counting.awake = true ∧ counting.slot 4 = some axle ∧ axle.hold = none ∧
      axle.identity = some (serialAt (reply [0, 0, 0, 0, 0, 1]).data 0) ∧
      axle.identity ≠ some (serialAt (reply [0, 0, 0, 0, 0, 2]).data 0) ∧ (querying false 3).slot 4 = some heldAxle ∧
      heldAxle.hold = some { reported := 2 } ∧ counting.register.inHand = some { slot := 4, attempt := 1 } ∧
      ((querying false 1).setSlot 4 none).slot 4 = none ∧
      { (querying false 1) with register := { (querying false 1).register with inHand := none } }.register.inHand = none ∧
      { forProbe := true, replyFormat := .base, replyIdent := 0x101, sent := false, timer := 0 : Query }.sent = false := by
  decide

/-- A scan in progress on the Fleet channel. -/
def scanning : Part :=
  { part with
    storage := { readers := [{ ch := .fleet, task := .scan 1 1 0 0 0 0 0, page := 0, buffer := [], spoiled := false }] } }

theorem witness_TimerExpiriesAct :
    (part.awake = true ∧ (∀ r ∈ part.storage.readers, r.ch ≠ .fleet) ∧
        { part with link := { part.link with fleet := { state := .receiving, gap := some 0 } } }.link.fleet.gap.isSome = true ∧
        { part with ring := { waitingFleet := some (response .fleet) } }.ring.waitingOf .fleet .b =
          some (response .fleet) ∧
        (response .fleet).source = .response .fleet ∧ (part.chan .fleet).restartAfter = false ∧
        (sentBy (.busy .fleet)).source = .busy .fleet ∧
        ((sending (response .fleet) part).port .b).tx = some (response .fleet) ∧
        (response .fleet).timeout.isSome = true) ∧
      scanning.awake = true ∧ scanning.outgoing .fleet = [] ∧
      (scanning.storage.readers.find? (·.ch == .fleet)).any (fun r => r.task == .scan 1 1 0 0 0 0 0) = true := by decide

theorem witness_StatusFrameShowsState :
    part.awake = true ∧ part.link.statusTimer.isSome = true ∧ part.hire.queue.length ≤ 8 ∧
      { part with hire := { part.hire with queue := [1, 2, 3, 4, 5, 6, 7, 8] } }.hire.queue.length = 8 := by decide

/-! ## Hypotheses that are met: requests -/

/-- A whole message is taken from either channel by the part with nothing under way. -/
theorem witness_Ready : Ready .fleet idle ∧ Ready svcB idle ∧ permitted .fleet = true ∧ permitted svcB = true ∧
    serviceOn svcB = true := by decide

/-- The part with the Fleet channel RESPONDING. -/
def busy (held : Option Busy) : Part :=
  { part with link := { part.link with fleet := { state := .responding, busyB := held } } }

theorem witness_BusyChannelAnswersBusy :
    requestOf (.describe .fleet) = some (.fleet, [0x01]) ∧ (busy none).awake = true ∧
      ((busy none).port .b).state ≠ .busOff ∧ ((busy none).chan .fleet).state = .responding ∧
      (busy none).busyWaiting .fleet .b = false ∧
      (busy (some { code := 1, timeout := 9 })).busyWaiting .fleet .b = true := by decide

theorem witness_FirstRefusals :
    (wellFormed (.writeTable .fleet 0 0 []) = true ∧ requestOf (.writeTable .fleet 0 0 []) = some (.fleet, [0x08, 0, 0]) ∧
        lengthFits [0x08, 0, 0] = false) ∧
      (wellFormed (.unknownRequest .fleet 0x77 []) = true ∧
        requestOf (.unknownRequest .fleet 0x77 []) = some (.fleet, [0x77]) ∧ codeLength (0x77 : Byte).toNat = none) ∧
      requestOf (.describe (.service .a false)) = some (.service .a false, [0x01]) ∧ lengthFits [0x01] = true ∧
      codeLength (0x01 : Byte).toNat ≠ none ∧ Ready .fleet idle ∧ Ready (.service .a false) idle := by decide

theorem witness_LevelAndEngineAreChecked :
    idle.part.modeCtl.mode = .setup ∧ Ready .fleet idle ∧ Ready svcB idle ∧ Ready svcB (on (turning 1)) ∧
      (turning 1).detector.engine ≠ .stopped ∧ (turning 1).modeCtl.mode ≠ .setup ∧
      { part with detector := { engine := .unknown } }.modeCtl.mode ≠ .active ∧
      Ready svcB (on { part with detector := { engine := .unknown } }) ∧
      { part with detector := { engine := .unknown } }.modeCtl.mode = .setup ∧
      itemFits 6 (List.replicate (itemLength 6) 0) = true ∧ itemFits 7 [0, 0] = true := by decide

theorem witness_ReadsChangeNothing :
    Ready .fleet (on (hired part)) ∧ (hired part).slot 0 = none ∧ (hired part).slot 3 = some gearbox ∧
      (hired part).hire.current = some hire ∧ part.hire.current = none ∧ part.hire.closing = none ∧
      { part with hire := { closing := some hire } }.hire.closing = some hire := by decide

theorem witness_ReadTableReadsModesSet :
    Ready .fleet idle ∧ part.modeCtl.save = .idle ∧ part.modeCtl.mode = .setup ∧ active.modeCtl.mode ≠ .setup ∧
      (6 : Byte).toNat ≤ 6 ∧ (0 : Byte).toNat < itemCount 6 ∧ itemCount 6 ≤ (1 : Byte).toNat ∧ 6 < (7 : Byte).toNat ∧
      (withMode (fun m => { m with save := .resaving }) part).modeCtl.save ≠ .idle := by decide

theorem witness_AcknowledgeClearsLatched :
    Ready .fleet idle ∧ 1 ≤ ([1, 10] : List Byte).length ∧
      (∀ n ∈ ([1, 10] : List Byte), 1 ≤ n.toNat ∧ n.toNat ≤ 10) ∧
      ∃ n, ([1, 11] : List Byte)[1]? = some n ∧ (n.toNat < 1 ∨ 10 < n.toNat) :=
  ⟨by decide, by decide, by decide, 11, by decide⟩

theorem witness_SettingsActAtOnce :
    Ready .fleet (on { part with capture := captures closedEntry }) ∧ (1023 : BitVec 16).toNat < 1024 ∧
      1024 ≤ (1024 : BitVec 16).toNat ∧ part.capture.entryOf (1 : Word32).toNat = none ∧
      (captures closedEntry).entryOf (1 : Word32).toNat = some 0 ∧
      (captures closedEntry).entry 0 = some closedEntry := by decide

theorem witness_SetModeChangesMode :
    Ready svcB idle ∧ part.clutch.engagement = none ∧ part.modeCtl.save = .idle ∧ active.modeCtl.mode = .active ∧
      (withMode (fun m => { m with mode := .paused }) part).modeCtl.mode = .paused ∧ part.detector.engine = .stopped ∧
      active.modeCtl.mode ≠ .setup ∧ part.hire.current = none ∧ part.hire.closing = none ∧
      part.capture.anyOpen = false ∧ part.modeCtl.mode = .setup := by decide

/-- A mode change out of ACTIVE with an engagement open. -/
theorem witness_SetModeChangesMode_engagement :
    Ready .fleet (on (slipping 40)) ∧ permitted .fleet = true ∧ (slipping 40).modeCtl.save = .idle ∧
      (slipping 40).modeCtl.mode = .active ∧ (slipping 40).clutch.engagement = some { below := 2 } := by decide

/-- A table set with a frame of a management identifier at an index: it fails validation as RESERVED_IDENTIFIER (R7). -/
def reservedSet : TableSet :=
  { TableSet.empty with
    frames := TableSet.empty.frames.set 63
      (some { port := .a, format := .base, ident := 0x6F8, forward := false, period := 100 }) }

/-- The empty set passes validation with no slot occupied (R31). -/
theorem witness_SetModeValidates :
    validate {} TableSet.empty = none ∧ validate {} reservedSet = some (2, 63) := by decide

theorem witness_WriteTableEditsPendingSet :
    Ready (.service .b true) idle ∧ itemFits 2 (List.replicate (itemLength 2) 0) = true ∧ (2 : Byte).toNat ≤ 6 ∧
      part.modeCtl.mode = .setup ∧ active.modeCtl.mode ≠ .setup ∧ (9 : Byte).toNat < itemCount 2 ∧
      itemCount 2 ≤ (10 : Byte).toNat ∧ part.modeCtl.save = .idle ∧
      (withMode (fun m => { m with save := .saving .active }) part).modeCtl.save ≠ .idle ∧ 6 < (7 : Byte).toNat ∧
      itemFits 7 [0, 0] = true := by
  decide

/-- The longest contents for a table number out of range (R191). -/
theorem witness_WriteTableEditsPendingSet_longest : itemFits 255 (List.replicate 132 0) = true := by
  rw [itemFits, List.length_replicate]
  decide

/-- A Write Table item in range, and one that is not (R29). -/
theorem witness_WriteTableItems :
    (∃ u, TableSet.empty.withItem 2 9 (List.replicate (itemLength 2) 0) = .ok u) ∧
      ∃ k, TableSet.empty.withItem 0 0 (0xFF :: List.replicate (itemLength 0 - 1) 0xFF) = .error k :=
  ⟨⟨_, rfl⟩, _, rfl⟩

theorem witness_CheckpointRequestsWait :
    Ready svcB idle ∧ part.detector.engine = .stopped ∧ part.capture.anyOpen = false ∧ part.hire.closing = none ∧
      part.modeCtl.save = .idle ∧ part.modeCtl.mode = .setup ∧ part.storage.releasing = false := by decide

/-- Install a CLUTCH with all its figures at their limits. -/
def installArgs : InstallArgs where
  slot := 11
  kind := 2
  flags := 0
  identity := 0
  query := { flags := 0, queryIdent := 0, queryBytes := 0, replyIdent := 0, offset := 0 }
  events := 4294967295
  time := 4294967295
  wear := 99999999

theorem witness_InstallFillsSlot :
    Ready (.service .b true) idle ∧ part.modeCtl.mode ≠ .active ∧ part.detector.engine = .stopped ∧
      installArgs.slot.toNat ≤ 11 ∧ Kind.ofNat? installArgs.kind.toNat = some .clutch ∧ installArgs.flags.toNat < 4 ∧
      installQueryFits installArgs = true ∧ installArgs.wear.toNat ≤ 99999999 ∧ part.hire.current = none ∧
      part.hire.closing = none ∧ part.slot installArgs.slot.toNat = none ∧
      part.register.slots.toList.countP (fun c => c.any (·.kind == .clutch)) < Kind.clutch.limit := by decide

theorem witness_SlotRequestsAct :
    Ready (.service .b true) (on (hired part)) ∧ (hired part).detector.engine = .stopped ∧
      (hired part).slot (3 : Byte).toNat = some gearbox ∧ gearbox.hold = none ∧
      (hired part).slot (4 : Byte).toNat = some heldAxle ∧ heldAxle.hold = some { reported := 2 } ∧
      part.hire.current = none ∧ part.hire.closing = none ∧ (hired part).modeCtl.mode ≠ .active ∧
      (hired part).register.nextArchive ≠ exhausted ∧ (99999999 : Word32).toNat ≤ 99999999 := by decide

/-- A Probe whose arguments lie in their ranges. -/
def probeArgs : ProbeArgs :=
  { flags := 0, ident := 0x100, length := 8, data := 0, replyIdent := 0x101, timeout := 10 }

theorem witness_VerifyAndProbeAreServed :
    let queued := { hired part with register := { (hired part).register with pollQueue := [4] } }
    Ready svcB (on (hired part)) ∧ (hired part).register.pollQueue.Pairwise (· < ·) ∧ (hired part).slot 0 = none ∧
      (hired part).slot 3 = some gearbox ∧ gearbox.query = none ∧ (hired part).slot 4 = some heldAxle ∧
      heldAxle.query ≠ none ∧ Ready svcB (on queued) ∧ 4 ∈ queued.register.pollQueue ∧ queued.slot 4 = some heldAxle ∧
      (∀ x ∈ probeChecks probeArgs, x.2 = true) ∧ part.register.query = none ∧
      (querying true 1).register.query ≠ none := by decide

theorem witness_HireRequestsAct :
    Ready .fleet (on active) ∧ Ready .fleet (on (hired active)) ∧ active.modeCtl.mode ≠ .setup ∧
      active.hire.closing = none ∧ active.hire.current = none ∧ active.hire.nextNumber ≠ exhausted ∧
      (hired active).hire.current = some hire ∧ active.hire.queue = [] ∧
      { active with hire := { queue := [1] } }.hire.queue = 1 :: [] ∧
      { active with hire := { closing := some hire } }.hire.closing.isSome = true := by decide

/-- A result that is absent keeps its place behind a clear flag (R190): the number and the place of Capture Now. -/
theorem test_capture_outcomes_keep_places :
    (TriggerOutcome.started 14).bytes = [0x00, 0x01, 0x00, 0x00, 0x00, 0x0E, 0x00, 0x00] ∧
      (TriggerOutcome.waiting 2).bytes = [0x01, 0x00, 0x00, 0x00, 0x00, 0x00, 0x01, 0x02] ∧
      TriggerOutcome.missed.bytes = [0x02, 0x00, 0x00, 0x00, 0x00, 0x00, 0x00, 0x00] := by decide

/-- Every directory entry has the same length (R150, R190), and a FREE one gives the state 0 and clear flags. -/
theorem test_directory_entries_keep_places :
    directoryEntry none = List.replicate 44 0 ∧ (directoryEntry (some closedEntry)).length = 44 ∧
      (directoryEntry (some closedEntry)).head? = some 0x01 := by decide

theorem witness_CaptureRequestsAct :
    (Ready .fleet idle ∧ 2048 < (2049 : BitVec 16).toNat ∧ (2048 : BitVec 16).toNat ≤ 2048 ∧
        (2047 : BitVec 16).toNat ≤ 2047 ∧ 2047 < (2048 : BitVec 16).toNat ∧ part.capture.anyOpen = false ∧
        part.capture.nextNumber ≠ exhausted ∧ part.capture.choose = some 0 ∧ Ready .fleet (on (capturing [trigger])) ∧
        (capturing [trigger]).capture.anyOpen = true) ∧
      part.capture.entryOf (1 : Word32).toNat = none ∧
      (captures closedEntry).entryOf (1 : Word32).toNat = some 0 ∧ (captures closedEntry).entry 0 = some closedEntry ∧
      closedEntry.state ≠ .opened ∧ closedEntry.locked = false ∧ { closedEntry with locked := true }.locked = true := by
  decide

/-- The part with archives that hold records and a closed capture. -/
def archived : Part :=
  { part with
    hire := { nextNumber := 401, newest := 400 }
    register := { part.register with nextArchive := 71 }
    capture := captures closedEntry }

theorem witness_ReadersAreStarted :
    Ready .fleet (on archived) ∧ 2 < (3 : Byte).toNat ∧ archived.hire.newest < (401 : Word32).toNat ∧
      archived.register.nextArchive ≤ (71 : Word32).toNat ∧ archived.capture.nextNumber ≤ (2 : Word32).toNat ∧
      (64 < (65 : BitVec 16).toNat ∧ 320 < (321 : BitVec 16).toNat ∧ 4080 < (4081 : BitVec 16).toNat) ∧
      ((81 : Word32).toNat ≤ archived.hire.newest ∧ archived.hire.newest < (81 : Word32).toNat + 320) ∧
      (80 : Word32).toNat + 320 ≤ archived.hire.newest ∧
      ((7 : Word32).toNat < archived.register.nextArchive ∧
        archived.register.nextArchive ≤ (7 : Word32).toNat + 64) := by
  decide

theorem witness_ReadersAreStarted_captures :
    let opened := { archived with capture := captures { closedEntry with state := .opened } }
    archived.capture.entryOf (1 : Word32).toNat = some 0 ∧ archived.capture.entry 0 = some closedEntry ∧
      (1 : Word32).toNat < archived.capture.nextNumber ∧ (0 : BitVec 16).toNat < closedEntry.stored ∧
      closedEntry.stored ≤ (1 : BitVec 16).toNat ∧ closedEntry.state ≠ .opened ∧ Ready .fleet (on opened) ∧
      opened.capture.entry 0 = some { closedEntry with state := .opened } ∧ 4079 < (4080 : BitVec 16).toNat ∧
      { archived with capture := { nextNumber := 2 } }.capture.entryOf (1 : Word32).toNat = none := by
  decide

/-- Arguments of Scan Archive in their ranges and beyond them (R188). -/
theorem witness_ReadersAreStarted_scan :
    (320 : BitVec 16).toNat ≤ 320 ∧ 320 < (321 : BitVec 16).toNat ∧ 2 < (3 : Byte).toNat ∧ 1 < (2 : Byte).toNat ∧
      1 < (2 : Word32).toNat ∧ (400 : Word32).toNat ≤ archived.hire.newest ∧
      archived.hire.newest < (400 : Word32).toNat + 320 ∧ archived.hire.newest < (401 : Word32).toNat := by decide

/-! ## Hypotheses that are met: storage -/

theorem witness_VerifiedPageIsWritten :
    (∀ page ∈ [0, 18, 19],
        (writing page 1).awake = true ∧ (writing page 1).storage.full.state = .writing ∧
          (writing page 1).storage.full.waiters = [] ∧ (writing page 1).storage.full.pending = false ∧
          (writing page 1).storage.readers = [] ∧
          (writing page 1).storage.bus.any (fun t => decide (t.page < pageCount) && t.owner == .full) = true) ∧
      ({} : Medium).wf ∧ (List.replicate 256 (0 : Byte)).length = pageSize :=
  ⟨by decide, by decide, List.length_replicate⟩

/-- The part with a transaction on the bus. -/
def onBus (owner : Owner) (page attempt : Nat) (write : Bool) (p : Part) : Part :=
  { p with
    storage := { p.storage with
      bus := some { owner, page, write := if write then some [] else none, attempt, timer := 20 } } }

/-- A write of an owner is in progress at the attempt given. -/
def writes (owner : Owner) (attempt : Nat) (p : Part) : Prop :=
  Writing (on (onBus owner 4095 attempt true p)) { owner, page := 4095, write := some [], attempt, timer := 20 } owner

/-- The last page of a full checkpoint on which sleep entry, or the waiters given, wait. -/
def fullEnds (waiters : List Waiter) (sleepWait : Option Bool) : Part :=
  { withMode (fun m => { m with sleepWait }) part with
    storage := { full := { state := .writing, page := 19, waiters } } }

theorem witness_VerifiedPageIsWritten_waiters :
    (∀ waiters ∈ [[], [Waiter.restart], [.clearAll], [.checkpointNow .fleet], [.sleep]],
        (fullEnds waiters (some false)).awake = true ∧ (fullEnds waiters (some false)).storage.full.waiters = waiters ∧
          20 ≤ (fullEnds waiters (some false)).storage.full.page + 1) ∧
      [Waiter.restart, .checkpointNow .fleet].filter (waiterOn .service) = [.restart] ∧ part.clearFor .service ∧
      writes .full 1 (fullEnds [] none) ∧ writes .full 2 (fullEnds [.sleep] (some true)) := by
  refine ⟨by decide, by decide, by decide, ?_, ?_⟩ <;>
    exact ⟨by decide, by decide, by decide, by decide, by decide⟩

/-- Sleep entry: everything at the storage arbiter at rest and the engine STOPPED, or a wake cause noted; and the pages of a
short checkpoint, one with a follow-up. -/
theorem witness_VerifiedPageIsWritten_sleep :
    ((fullEnds [.sleep] (some false)).modeCtl.sleepWait = some false ∧
        (fullEnds [.sleep] (some false)).storage.full.pending = false ∧
        (fullEnds [.sleep] (some false)).storage.short.state = .idle ∧
        (fullEnds [.sleep] (some false)).modeCtl.save = .idle ∧ (fullEnds [.sleep] (some false)).storage.archive = [] ∧
        (fullEnds [.sleep] (some false)).storage.captureJobs = [] ∧
        (fullEnds [.sleep] (some false)).storage.readers = [] ∧
        (fullEnds [.sleep] (some false)).detector.engine = .stopped) ∧
      (fullEnds [.sleep] (some true)).modeCtl.sleepWait ≠ some false ∧
      ∀ page ∈ [0, 2, 3], (onBus .short (32 + page) 2 true
        { part with storage := { short := { state := .writing, page, followUp := page == 3 } } }).live = true := by decide

theorem witness_FailuresAreRetriedThenSetFault :
    (writing 0 1).storage.bus.any (fun t => decide (t.attempt < 2) && t.write.isSome) = true ∧
      (writing 0 2).awake = true ∧
      (writing 0 2).storage.bus.any
        (fun t => decide (2 ≤ t.attempt) && t.write.isSome && decide (t.page < pageCount) && t.owner == .full) = true ∧
      ({} : Medium).wf ∧ (writing 0 2).storage.full.waiters = [] ∧ (writing 0 2).storage.full.pending = false ∧
      (writing 0 2).storage.readers = [] := by decide

/-- A page of the table save or re-save in progress. -/
def saving (save : SaveState) (savePage : Nat) : Part := withMode (fun m => { m with save, savePage }) part

theorem witness_TableSaveEnds :
    (∀ page ∈ [0, 30, 31], ∀ attempt ∈ [1, 2],
        (onBus (.table false) page attempt true (saving (.saving .active) page)).awake = true ∧
          (saving (.saving .active) page).modeCtl.save = .saving .active ∧
          (saving .resaving page).modeCtl.save = .resaving) ∧
      part.detector.engine = .stopped ∧ part.clearFor .service ∧ 30 + 1 < 32 ∧ 32 ≤ 31 + 1 ∧
      ¬(EngineState.cranking = .stopped) ∧ ¬(EngineState.cranking = .running) := by decide

theorem witness_TableSaveEnds_write :
    writes (.table false) 1 (saving (.saving .active) 31) ∧ writes (.table true) 2 (saving .resaving 31) := by
  constructor <;> exact ⟨by decide, by decide, by decide, by decide, by decide⟩

/-- The part with a job at the head of the archive level. -/
def archiving (job : ArchiveJob) (archivePage : Nat) : Part :=
  { hired part with
    hire := { (hired part).hire with closing := some { hire with number := 2 } }
    storage := { archive := [job], archivePage } }

/-- A record of slot 4's HELD component. -/
def heldRecord (cause : ArchiveCause) : ArchiveRecord :=
  { number := 1, cause, clock := 0, successor := 9, slot := 4, component := heldAxle }

/-- A component's archive write for Remove or Confirm Change. -/
def recordJob (cause : ArchiveCause) : ArchiveJob := .component (heldRecord cause) 0 0 0 (Vector.replicate 4 0)

theorem witness_ArchiveWritesEnd :
    (∀ job ∈ [recordJob .removed, recordJob .changed, .hire .fleet, .invalidate (some [512, 516, 768, 772])],
        (archiving job 3).storage.archive = [job] ∧ (archiving job 3).awake = true ∧ 4 ≤ job.pages ∧ 0 + 1 < job.pages) ∧
      part.clearFor .service ∧ (archiving (recordJob .changed) 3).clearFor .service ∧
      (archiving (.hire .fleet) 3).clearFor .fleet ∧
      (archiving (recordJob .changed) 3).slot (heldRecord .changed).slot = some heldAxle ∧
      (archiving (.hire .fleet) 3).hire.closing = some { hire with number := 2 } ∧
      ([512, 516, 768, 772] : List Nat).length ≤ 3 + 1 := by decide

theorem witness_ArchiveWritesEnd_write :
    writes .archive 1 (archiving (recordJob .removed) 3) ∧ writes .archive 2 (archiving (.hire .fleet) 0) := by
  constructor <;> exact ⟨by decide, by decide, by decide, by decide, by decide⟩

/-- The part with an OPEN capture and a job at the head of the capture level. -/
def copies (job : CaptureJob) (lost : Nat) (queue : List Trigger) : Part :=
  { copying with
    capture := { copying.capture with
      entries := (Vector.replicate 8 none).set 0 (some { closedEntry with state := .opened, lost })
      nextNumber := 2, queue }
    storage := { captureJobs := [job] } }

theorem witness_CaptureWritesEnd :
    (∀ job ∈ [CaptureJob.openHeader 0, .framePage 0, .finalHeader 0, .release 0 1 .service],
        (copies job 0 []).storage.captureJobs = [job] ∧ (copies job 0 []).clearFor .service) ∧
      ((copies (.framePage 0) 0 []).capture.entry 0).isSome = true ∧
      (copies (.framePage 0) 0 []).capture.copier.isSome = true ∧ (copies (.finalHeader 0) 1 []).capture.queue = [] ∧
      (copies (.finalHeader 0) 1 [trigger]).capture.queue = trigger :: [] ∧
      (copies (.finalHeader 0) 1 [trigger]).capture.nextNumber ≠ exhausted ∧
      (∃ state : CaptureState, state = .truncated ∧
        ({ (copies (.finalHeader 0) 1 [trigger]).capture.mapEntry 0 (fun x => { x with state }) with
          copier := none, postTimeout := none }).choose = some 1) ∧
      ((copies (.release 0 1 .service) 0 []).capture.entry 0).map (·.number) = some 1 :=
  ⟨by decide, by decide, by decide, by decide, by decide, by decide, ⟨_, rfl, by decide⟩, by decide⟩

theorem witness_CaptureWritesEnd_write :
    writes .capture 1 (copies (.framePage 0) 0 []) ∧ writes .capture 2 (copies (.finalHeader 0) 1 []) := by
  constructor <;> exact ⟨by decide, by decide, by decide, by decide, by decide⟩

/-- A reader of a hire that stands in the queue, on its first page and on a later one. -/
def collector (page : Nat) : Reader := { ch := .fleet, task := .collect 1 false, page, buffer := [], spoiled := false }

theorem witness_ArbiterOrderAndPlacement :
    (writing 0 1).storage.bus.isSome = true ∧
      { part with storage := { short := { state := .waiting } } }.storage.short.state ≠ .idle ∧
      { part with lines := { pfw := true } }.lines.pfw = true ∧
      Part.newPart.storage.full.state = .waiting ∧ (fullEnds [] none).storage.full.state = .writing ∧
      (saving .resaving 0).modeCtl.save ≠ .idle ∧ (archiving (.hire .fleet) 0).storage.archive = [.hire .fleet] ∧
      (archiving (.hire .fleet) 0).hire.closing = some { hire with number := 2 } ∧
      ([512] : List Nat)[0]? = some 512 ∧ (copies (.framePage 0) 0 []).storage.captureJobs = [.framePage 0] ∧
      ((copies (.framePage 0) 0 []).capture.entry 0).isSome = true ∧
      (copies (.framePage 0) 0 []).capture.copier.isSome = true ∧ (collector 3).page ≠ 0 ∧
      (collecting 0).readerNext (collector 0).task = .read (collector 0).task ∧ part.storage.readers = [] ∧
      ((4 = 4 ∨ 4 = 20) ∧ 480 ≤ 480 ∧ 460 + 20 ≤ 480) := by decide

/-- A reader at work on the Fleet channel, a page of its read on the bus, another reader behind it on the Service channel. -/
def reads (task : ReaderTask) (page attempt : Nat) : Part :=
  { onBus (.reader .fleet) 768 attempt false (hired part) with
    capture := captures { closedEntry with stored := 17 }
    hire := { queue := [1], newest := 400, nextNumber := 401 }
    storage :=
      { bus := some { owner := .reader .fleet, page := 768, write := none, attempt, timer := 20 }
        readers :=
          [{ ch := .fleet, task, page, buffer := [], spoiled := false },
            { ch := .service, task := .collect 1 false, page := 0, buffer := [], spoiled := false }] } }

/-- Each task, on its first page and its last, at the first attempt and the second. -/
theorem witness_ReaderReadsEnd :
    (∀ task ∈ [ReaderTask.collect 1 false, .components 1 2 [], .hires 81 2 [], .hires 79 3 [], .hires 400 1 [0, 0],
          .scan 81 2 0 0 0 1 5, .scan 400 1 2 1 0 1 5, .scan 400 2 1 0 0 1 5, .scan 79 2 0 0 0 0 5, .frames 1 0 17 [],
          .frames 1 16 1 [], .frames 2 0 1 []],
        ∀ page ∈ [0, 3], ∀ attempt ∈ [1, 2],
          ReadingFor (on (reads task page attempt)) { owner := .reader .fleet, page := 768, write := none, attempt, timer := 20 }
            { ch := .fleet, task, page, buffer := [], spoiled := false }
            [{ ch := .service, task := .collect 1 false, page := 0, buffer := [], spoiled := false }]) ∧
      (1 ∈ (reads (.collect 1 false) 3 1).hire.queue ∧ (reads (.collect 1 false) 3 1).hire.newest = 400 ∧
        400 < 81 + 320 ∧ 79 + 1 + 320 ≤ 400) ∧
      (reads (.collect 1 false) 3 1).capture.entryOf 1 = some 0 ∧ (reads (.collect 1 false) 3 1).capture.entryOf 2 = none := by
  decide

/-- Records that pass their check and meet a sense or do not, a frame page that passes, and responses with room for an entry
or none (R186 to R188). -/
theorem witness_ReaderReadsEnd_contents :
    recordValid archiveSize (sealRecord archiveSize (hireContent hire)) = true ∧
      (natAt (hireContent hire) 0 4 = 1 ∧ natAt (hireContent hire) 4 4 = 9 ∧ natAt (hireContent hire) 19 8 = 0) ∧
      framePageValid (framePageBytes closedEntry 0 []) = true ∧
      8 + (List.replicate 1011 (0 : Byte)).length + (corruptEntry 1).length ≤ 1024 ∧
      ¬(8 + (List.replicate 1012 (0 : Byte)).length + (corruptEntry 1).length ≤ 1024) ∧
      (1016 - (List.replicate 993 (0 : Byte)).length) / 23 = 1 ∧ (1016 - (List.replicate 994 (0 : Byte)).length) / 23 = 0 := by
  simp only [List.length_replicate]
  exact ⟨recordValid_sealRecord (by decide) _, by decide, by decide +kernel, by decide, by decide, by decide, by decide⟩

theorem witness_PowerFailWarning :
    part.live = true ∧ part.lines.pfw = false ∧ part.storage.short.state = .idle ∧
      { part with storage := { full := { state := .writing, pending := true, pendingCause := .restart } } }.storage.short.state =
        .idle ∧
      { part with storage := { short := { state := .writing } } }.storage.short.state ≠ .idle ∧
      { part with lines := { pfw := true } }.lines.pfw = true := by decide

/-- The part with the last frame of Restart's DONE in port B's transmitter. -/
def restarting : Part :=
  { sending (response .service) part with
    link := { part.link with service := { state := .responding, offered := true, restartAfter := true } } }

theorem witness_SupplyRestartAndRestore :
    (part.powered = true ∧ Part.unpowered.powered = false ∧ restarting.awake = true ∧
        (restarting.port .b).state = .running ∧ (restarting.port .b).tx = some (response .service) ∧
        (response .service).source = .response .service ∧ (restarting.chan .service).outbox = [] ∧
        (restarting.chan .service).restartAfter = true) ∧
      (restoring 30).powered = true ∧ (restoring 30).restore = some { item := .image 30 } ∧
      (restoring 30).storage.bus.any (fun t => t.owner == .restore && t.write.isNone && decide (t.page < pageCount)) = true ∧
      30 + 1 < 32 ∧ frameOk stray = true ∧ ((restoring 30).port .a).state ≠ .busOff ∧
      requestOf (.describe .fleet) = some (.fleet, [0x01]) := by decide

/-- A short checkpoint's entry for the gearbox, ten seconds on, on a spectrum generation and with a pool or none. -/
def shortEntry (generation : Nat) (pool : Option Pool) : ShortSlot :=
  { kind := .gearbox, installClock := 0, generation, events := 5, time := 110, units := 7, residue := 0, unbinned := 110
    unobserved := 0, pool }

/-- A short checkpoint's hire with an entry for each of slots 3 and 4. -/
def shortHire (number : Nat) : ShortHire :=
  let use := fun slot => { slot, events := 1, time := 1, units := 1, residue := 1, unobserved := 0, held := false : ShortUsage }
  { number, contract := 9, openClock := 0, openSync := false, openChannel := .fleet, usage := [use 3, use 4] }

theorem witness_ShortCheckpointsApply :
    (gearbox.hold = none ∧ (shortEntry 0 none).pool = none ∧ (shortEntry 1 (some {})).pool = some {} ∧
        heldAxle.hold = some { reported := 2 } ∧
        gearbox.kind.share gearbox.events gearbox.time ≤ gearbox.kind.share (shortEntry 0 none).events (shortEntry 0 none).time ∧
        gearbox.cellSum + gearbox.unbinned = gearbox.kind.share gearbox.events gearbox.time ∧
        (gearbox.applyShort (shortEntry 0 none)).1.saturated = false) ∧
      ((shortEntry 0 none).kind = gearbox.kind ∧ (shortEntry 0 none).installClock = gearbox.installClock ∧
        (shortEntry 0 none).kind ≠ heldAxle.kind) ∧
      ((shortHire 1).number = hire.number ∧ hire.usage.Pairwise (fun x y => x.slot < y.slot) ∧
        (shortHire 1).usage.Pairwise (fun x y => x.slot < y.slot) ∧ 2 ≤ (shortHire 2).number ∧
        ¬(hire.number = (shortHire 2).number) ∧ (shortHire 1).number < 2) ∧
      ∀ x ∈ (shortHire 1).usage, ((hired part).register.slots[x.slot]?.getD none).isSome = true := by decide

/-- A restore reading an item. -/
def restores (item : RestoreItem) (attempt : Nat) : Part :=
  { onBus .restore 0 attempt false part with restore := some { item, fulls := [(1, 0)], shorts := [(2, 20)] } }

/-- The last page of each item, and of a scan that found a full checkpoint and a short one above it. -/
theorem witness_RestoreReadsOn :
    (∀ item ∈ [RestoreItem.image 31, .ringHeader 0, .ringHeader 478, .ringBody 0 1 4, .ringBody 460 19 20, .component 3,
          .hire 3, .captureHeader 0, .captureHeader 7],
        ∀ attempt ∈ [1, 2],
          (restores item attempt).powered = true ∧ (restores item attempt).restore.map (·.item) = some item ∧
            (restores item attempt).storage.bus =
              some { owner := .restore, page := 0, write := none, attempt, timer := 20 }) ∧
      (1, 0) ∈ ([(1, 0)] : List (Nat × Nat)) ∧ (∀ x ∈ ([(1, 0)] : List (Nat × Nat)), x = (1, 0) ∨ x.1 < 1) ∧
      ([(2, 20)] : List (Nat × Nat)).Pairwise (fun x y => x.1 < y.1) ∧
      (∀ x ∈ ([(2, 20)] : List (Nat × Nat)), 1 < x.1) ∧ part.storage.full.state = .idle := by decide

/-- The blank medium with a sealed record written from a page on. -/
def recorded (page count : Nat) (content : List Byte) : Medium :=
  ({} : Medium).writePages page (sealRecord (pageSize * count) content) count

theorem recorded_valid (page count : Nat) (content : List Byte) (hc : 1 ≤ count) (hp : page + count ≤ pageCount) :
    (recorded page count content).validAt page count = true ∧
      (recorded page count content).pages page count = sealRecord (pageSize * count) content :=
  ⟨validAt_writePages (by decide) hc hp content,
    pages_writePages (by decide) hp (sealRecord_length (by simp only [pageSize]; omega) content)⟩

/-- A medium with a valid table image, and one without. -/
theorem witness_RestoreReadsOn_image :
    (recorded 0 32 []).validAt 0 32 = true ∧ ({ spoiled := [31] } : Medium).validAt 0 32 = false :=
  ⟨(recorded_valid 0 32 [] (by decide) (by decide)).1, by decide⟩

/-- A medium with a valid component record, of a slot that holds its component, in every state that has that medium. -/
theorem witness_RestoreReadsOn_component :
    let m := recorded (componentPage 1) 4 (componentContent (heldRecord .removed))
    m.validAt (componentPage 1) 4 = true ∧
      ((readComponentRecord (m.pages (componentPage 1) 4)).map fun r => (r.number, r.cause, r.slot, r.component.kind)) =
        some (1, .removed, 4, heldAxle.kind) ∧
      (hired part).register.nextArchive = 1 ∧ (hired part).slot 4 = some heldAxle := by
  intro m
  obtain ⟨valid, pages⟩ := recorded_valid (componentPage 1) 4 (componentContent (heldRecord .removed)) (by decide)
    (by decide)
  refine ⟨valid, ?_, by decide, by decide⟩
  rw [show m.pages (componentPage 1) 4 = _ from pages]
  decide +kernel

/-- A medium with a valid hire record of the number after the newest, the number of the hire that is open. -/
theorem witness_RestoreReadsOn_hire :
    let m := recorded (hirePage 1) 4 (hireContent hire)
    m.validAt (hirePage 1) 4 = true ∧ natAt (m.pages (hirePage 1) 4) 0 4 = 1 ∧ (hired part).hire.newest + 1 = 1 ∧
      (hired part).hire.current = some hire ∧ hire.number = 1 ∧ part.hire.current = none ∧ (shortHire 1).number = 1 := by
  intro m
  obtain ⟨valid, pages⟩ := recorded_valid (hirePage 1) 4 (hireContent hire) (by decide) (by decide)
  refine ⟨valid, ?_, by decide, by decide, by decide, by decide, by decide⟩
  rw [show m.pages (hirePage 1) 4 = _ from pages]
  decide +kernel

/-- A ring position with a valid short checkpoint and its header; and positions without a header. -/
theorem witness_RestoreReadsOn_checkpoint :
    let m := ({} : Medium).writePages (ringPage 460) (checkpointBytes kindShort 2 4 0 (List.replicate 997 0xFF)) 4
    m.checkpointAt 460 = some (2, kindShort, 4) ∧ (headerOf (m.page (32 + 460))).isSome = true ∧
      headerOf (m.page (32 + 478)) = none ∧ m.checkpointAt 478 = none := by decide +kernel

theorem witness_CommandsThatStop :
    8 < (List.replicate 9 (0 : Byte)).length ∧ 2047 < (0x800 : Ident).toNat ∧
      { part with
        storage := { bus := some { owner := .full, page := 4096, write := some [], attempt := 1, timer := 1 } } }.storage.bus.any
          (fun t : Transaction => decide (4096 ≤ t.page)) = true := by decide

/-! ## Worked examples of the spec -/

/-- Signal 0 of chapter 1's worked decoding examples. -/
def engineSpeed : SignalEntry where
  frame := 3
  start := 24
  length := 16
  highFirst := false
  signed := false
  multiplier := 1
  shift := 3
  offset := 0
  minimum := 0
  maximum := 8000

/-- Signal 1 of the same examples. -/
def engineTorque : SignalEntry :=
  { engineSpeed with start := 16, length := 8, shift := 0, offset := -125, minimum := -125, maximum := 125 }

/-- Chapter 1, worked decoding examples: the engine frame's values. -/
theorem test_decoding_values :
    judgeSample engineSpeed [0, 0, 0xBB, 0x50, 0x2D, 0, 0, 0] = (.usable, 1450) ∧
      judgeSample engineTorque [0, 0, 0xBB, 0x50, 0x2D, 0, 0, 0] = (.usable, 62) := by decide

/-- Chapter 1, worked decoding examples: the quality cases. -/
theorem test_decoding_qualities :
    (judgeSample engineSpeed [0, 0, 0, 0xFF, 0xFF, 0, 0, 0]).1 = .notAvailable ∧
      (judgeSample engineSpeed [0, 0, 0, 0xFE, 0xFF, 0, 0, 0]).1 = .errorIndicated ∧
      judgeSample engineSpeed [0, 0, 0, 0x00, 0xFA, 0, 0, 0] = (.usable, 8000) ∧
      (judgeSample engineSpeed [0, 0, 0, 0x08, 0xFA, 0, 0, 0]).1 = .outOfRange ∧
      (judgeSample engineSpeed [0, 0, 0xBB, 0x50]).1 = .shortFrame ∧
      judgeSample engineTorque [0, 0, 0xBB, 0x50] = (.usable, 62) := by decide

/-- Chapter 1, worked decoding examples: a signed HIGH_FIRST field, floor(-15 / 4) = -4. -/
theorem test_decoding_signed :
    judgeSample
        { engineSpeed with
          start := 7, highFirst := true, signed := true, multiplier := 5, shift := 2, minimum := -10, maximum := 10 }
        [0xFF, 0xFD] = (.usable, -4) := by decide

/-- Evaluations of chapter 5's clutch launch: 800 Nm and 500 rpm each. -/
def launch (n : Nat) : Engagement × Nat :=
  (List.range n).foldl (fun x _ => slipStep x.1 x.2 500 40 2000) ({}, 0)

/-- Chapter 5, a clutch launch: evaluations 1, 5 and 12 (R93). -/
theorem test_clutch_launch :
    ((launch 1).1.energy, (launch 1).2) = (4188, 800000) ∧ ((launch 5).1.energy, (launch 5).2) = (20944, 0) ∧
      ((launch 12).1.energy, (launch 12).1.slipTime, (launch 12).2) = (50265, 12, 600000) := by decide

/-- The roles of chapter 5's interval on a moving truck, for ENGINE: its edges, and a weight of 250 in cell 36. -/
def truck : Part :=
  { withMode (fun m => { m with
      active := { m.active with
        bins := m.active.bins.set 0
          { load := #v[10, 25, 40, 55, 70, 85, 100], speed := #v[800, 1000, 1200, 1400, 1600, 1800, 2000]
            temperature := #v[40, 70, 100] }
        weights := m.active.weights.set 0
          { cells := (Vector.replicate 64 0).set 36 250, factors := Vector.replicate 4 16 } } }) active with
    detector := { engine := .running }
    roles := ((active.roles.set 0 { source := .primary, value := some 1450 }).set 1
      { source := .primary, value := some 62 }).set 2 { source := .primary, value := some 85 } }

/-- Chapter 5, an interval on a moving truck: slot 0's cell and increment, and the carry of its residue (R85, R88). -/
theorem test_interval_engine :
    truck.intervalCredit 0 .engine = { events := 0, time := 1, place := .cell 36 1, wear := 4000, unobserved := 0 } ∧
      addWear 0 14500 4000 = (1, 2500, false) := by decide

/-- Chapter 9, a hire closed as the supply fails: the places that the checkpoints take (R159). -/
theorem test_placement :
    placeAt (some (1203, 440)) 460 20 = 460 ∧ placeAt (some (1204, 460)) 480 20 = 0 ∧
      placeAt (some (1204, 460)) 20 4 = 20 ∧ placeAt (some (1204, 460)) 24 20 = 24 ∧ hirePage 71 = 1048 := by decide

/-- Chapter 9, the same example: short 1,206 applied to the ENGINE slot; 303 seconds folded (R164). -/
theorem test_short_applied :
    let full : Component :=
      { Component.starting .engine none none 0 1820000 9310 0 with
        residue := 6000, unbinned := 52000, cells := (Vector.replicate 64 0).set 36 1768000 }
    let short : ShortSlot :=
      { kind := .engine, installClock := 0, generation := 0, events := 0, time := 1820310, units := 9313,
        residue := 10000, unbinned := 52007, unobserved := 0, pool := none }
    short.matches full = true ∧ (full.applyShort short).1.time = 1820310 ∧
      (full.applyShort short).1.unbinned = 52310 ∧ (full.applyShort short).1.units = 9313 ∧
      (full.applyShort short).1.residue = 10000 ∧ (full.applyShort short).2 = 303 := by decide

/-- Capture 14 of chapter 11's example: its window starts at sequence 49,488. -/
def capture14 : CaptureEntry :=
  { closedEntry with number := 14, ringTime := 7200000, seq := 50000, available := 512 }

/-- Frame 49,500 of the same example. -/
def frame49500 : RingRecord where
  sequence := 49500
  arrival := 7199500
  frame := { format := .extended, ident := 0x0C1A0210, data := [0, 0, 0xBB, 0x50, 0x2D, 0, 0, 0] }
  forward := false
  sent := false
  receivedAt := 500

/-- Chapter 11, one stored frame: the record, and the entry that Read Records makes of it (R193). -/
theorem test_stored_frame :
    frameRecordBytes capture14 1000 frame49500 0 =
        [0x80, 0x0C, 0xFE, 0x0C, 0x2C, 0x1A, 0x02, 0x10, 0, 0, 0xBB, 0x50, 0x2D, 0, 0, 0] ∧
      frameEntryBytes capture14 (frameRecordBytes capture14 1000 frame49500 3) =
        beBytes 1 0 ++ beBytes 4 49500 ++ beBytes 4 7199500 ++ [0x01] ++ beBytes 4 0x0C1A0210 ++ beBytes 1 8 ++
          [0, 0, 0xBB, 0x50, 0x2D, 0, 0, 0] := by decide

/-! ## One step each -/

/-- R35, R53: an engine that leaves STOPPED and is back within one event starts the quiet timer at 30 s again. -/
theorem test_quiet_restarts :
    (settleQuiet (changeEngine .stopped (changeEngine .cranking (withMode (fun m => { m with quiet := some 5 }) part)))).modeCtl.quiet =
        some 30000 ∧
      (settleQuiet (withMode (fun m => { m with quiet := some 5 }) part)).modeCtl.quiet = some 5 := by decide

/-- The port after a step on it. -/
def portAfter (i : Instr) (s : State) (port : PortId) : Option Port :=
  match exec i s with
  | .next t => some (t.part.port port)
  | _ => none

/-- R2: 247 + 8 stays at 255, 248 + 8 enters BUS_OFF with level 0. -/
theorem test_error_level :
    let sendAt := fun n => on { part with portB := { part.portB with errorLevel := n, tx := some (sentBy .forward) } }
    (portAfter (.transmissionFailed .b) (sendAt 247) .b).map (fun q => (q.state, q.errorLevel)) =
        some (.running, 255) ∧
      (portAfter (.transmissionFailed .b) (sendAt 248) .b).map (fun q => (q.state, q.errorLevel, q.recovery)) =
        some (.busOff, 0, some 200) := by decide

/-- R176, R190, 10.1: a code the part does not know is answered on 0x6E8 by a SINGLE frame of 2 bytes, 0x11 the second. -/
theorem test_unknown_request :
    ((portAfter (.unknownRequest .fleet 0x77 []) idle .b).bind fun q => q.tx.map (·.frame)) =
      some { format := .base, ident := 0x6E8, data := [0x02, 0x77, 0x11] } := by decide

/-- R176, R178: a Fleet RESTART is refused NOT_PERMITTED on the Fleet channel's identifier. -/
theorem test_restart_on_fleet :
    ((portAfter (.restart .fleet) idle .b).bind fun q => q.tx.map (·.frame)) =
      some { format := .base, ident := 0x6E8, data := [0x02, 0x05, 0x12] } := by decide

/-- R37: a tick adds a second to the Device Clock. -/
theorem test_clock_tick :
    (match exec .deviceClockTick (on (withMode (fun m => { m with clock := 4294967294 }) part)) with
      | .next t => t.part.modeCtl.clock
      | _ => 0) = 4294967295 := by decide

end Sys2Proof.Tests
end

section
/-! What the accounting leaves alone: credits, marks, captures and the Engine Start Detector touch neither the ports, the
lines, the matcher, the signals, the roles nor the ring. -/

namespace Sys2Proof.Machine

/-- What a credit, a mark or an anchor leaves of a component: its kind, and whether it is HELD. -/
def Component.face (c : Component) : Component :=
  { (default : Component) with kind := c.kind, hold := c.hold.map fun _ => default }

/-- The part without what the producers of credits, the Capture Unit and the Engine Start Detector change: what is left
are the ports, the lines, the matcher, the signals, the roles, the ring, the mode and the tables, what stands in the
slots, the query in progress, and the conditions of lost roles and overrun. -/
def Part.still (p : Part) : Part :=
  { p with
    detector := {}, clutch := {}, wear := {}, hire := {}, capture := {}, storage := {}
    register := { slots := p.register.slots.map (Option.map Component.face), query := p.register.query }
    link := { roleLost := p.link.roleLost, forwardOverrun := p.link.forwardOverrun }
    modeCtl := { p.modeCtl with save := .idle, savePage := 0, validation := .none, quiet := none } }

/-- What each step of a fold keeps, the fold keeps. -/
theorem foldl_keeps {α β : Type} (g : Part → β) {f : Part → α → Part} (h : ∀ p x, g (f p x) = g p) (xs : List α)
    (p : Part) : g (xs.foldl f p) = g p := by
  induction xs generalizing p with
  | nil => rfl
  | cons x xs ih => rw [List.foldl_cons, ih, h]

/-- A component replaced by one of its kind, HELD when it was, leaves the slots as the rest of the part sees them. -/
theorem setSlot_still {n : Nat} {c d : Component} {p : Part} (h : p.slot n = some c) (hf : d.face = c.face) :
    (p.setSlot n (some d)).still = p.still := by
  have slots : (p.register.slots.setIfInBounds n (some d)).map (Option.map Component.face) =
      p.register.slots.map (Option.map Component.face) := by
    ext k hk : 1
    by_cases same : n = k
    · subst same
      have old : p.register.slots[n] = some c := by simpa [Part.slot, hk] using h
      simp [hf, old]
    · simp [same]
  simp only [Part.still, Part.setSlot, slots]

theorem credit_face (c : Component) (a : Credit) : (c.credit a).face = c.face := by
  unfold Component.credit
  split
  · cases h : a.place <;> simp only [Component.creditFigures, h] <;> rfl
  · rename_i held
    simp [Component.face, held]

/-! ## Credits and captures -/

theorem setChan_still (ch : Channel) (c : Chan) (p : Part) : (p.setChan ch c).still = p.still := by
  cases ch <;> rfl

theorem respond_still (ch : Channel) (msg : List Byte) (p : Part) : (respond ch msg p).still = p.still :=
  setChan_still ch _ p

theorem creditSlot_still (n : Nat) (a : Credit) (p : Part) : (creditSlot n a p).still = p.still := by
  unfold creditSlot
  split
  · rfl
  · exact setSlot_still ‹_› (credit_face _ a)

theorem copierRun_still (p : Part) : (copierRun p).still = p.still := by
  unfold copierRun
  split
  · rfl
  · dsimp only
    split <;> rfl

theorem startCapture_still (t : Trigger) (p : Part) : (startCapture t p).1.still = p.still := by
  unfold startCapture
  split
  · rfl
  · split
    · rfl
    · exact copierRun_still _

theorem takeTrigger_still (t : Trigger) (p : Part) : (takeTrigger t p).1.still = p.still := by
  unfold takeTrigger
  split
  · exact startCapture_still t p
  · split <;> rfl

theorem startPending_still (ts : List Trigger) (p : Part) : (startPending ts p).still = p.still := by
  induction ts generalizing p with
  | nil => rfl
  | cons t ts ih =>
    have h := startCapture_still t p
    unfold startPending
    split <;> rename_i heq <;> rw [heq] at h
    · exact h
    · exact (ih _).trans h

theorem closeCapture_still (e : Nat) (state : CaptureState) (p : Part) : (closeCapture e state p).still = p.still :=
  startPending_still _ _

theorem failCapture_still (e : Nat) (p : Part) : (failCapture e p).still = p.still := closeCapture_still _ _ _

theorem copierLoses_still (q : Word32) (p : Part) : (copierLoses q p).still = p.still := by
  unfold copierLoses
  split
  · split <;> rfl
  · rfl

/-! ## Marks -/

theorem markSlot_still (kind : Cause) (p : Part) : (markSlot kind p).still = p.still := by
  unfold markSlot
  split
  · rfl
  · split
    · rfl
    · rename_i h
      exact (congrArg Part.still rfl).trans (setSlot_still h rfl)

theorem makeMark_still (kind : Cause) (magnitude : Int) (p : Part) : (makeMark kind magnitude p).still = p.still := by
  unfold makeMark
  dsimp only
  split
  · exact (takeTrigger_still _ _).trans (markSlot_still kind p)
  · exact markSlot_still kind p

theorem judgeKind_still (kind : Cause) (p : Part) : (judgeKind kind p).still = p.still := by
  unfold judgeKind
  dsimp only
  split
  · rfl
  · split
    · rfl
    · split
      · exact makeMark_still kind _ p
      · rfl

theorem judgeInterval_still (p : Part) : (judgeInterval p).still = p.still := by
  simp only [judgeInterval, judgeKind_still]

theorem judgeEngagement_still (energy : Nat) (p : Part) : (judgeEngagement energy p).still = p.still := by
  unfold judgeEngagement
  split
  · exact makeMark_still _ _ p
  · rfl

/-! ## The Wear Engine and the Clutch Monitor -/

theorem countPeriod_still (p : Part) : (countPeriod p).still = p.still := by
  unfold countPeriod
  split <;> rfl

theorem creditInterval_still (p : Part) (n : Nat) : (creditInterval n p).still = p.still := by
  unfold creditInterval
  split
  · rfl
  · split
    · rfl
    · split
      · dsimp only
        split
        · exact (countPeriod_still _).trans (creditSlot_still n _ p)
        · exact creditSlot_still n _ p
      · rfl

theorem creditAll_still (p : Part) : (creditAll p).still = p.still :=
  foldl_keeps Part.still (fun p n => creditInterval_still p n) _ p

theorem starterEvent_still (duration : Nat) (coolant : Option Int) (failed : Bool) (p : Part) :
    (starterEvent duration coolant failed p).still = p.still := by
  unfold starterEvent
  split
  · rfl
  · split
    · rfl
    · dsimp only
      split
      · split
        · rename_i h
          refine Eq.trans (setSlot_still h ?_) (creditSlot_still _ _ p)
          rfl
        · exact creditSlot_still _ _ p
      · exact creditSlot_still _ _ p

theorem startCredit_still (p : Part) : (startCredit p).still = p.still := by
  unfold startCredit
  split
  · rfl
  · split
    · rfl
    · exact creditSlot_still _ _ p

theorem engagementCredit_still (e : Engagement) (p : Part) : (engagementCredit e p).still = p.still := by
  unfold engagementCredit
  split
  · rfl
  · exact creditSlot_still _ _ p

theorem closeEngagement_still (p : Part) : (closeEngagement p).still = p.still := by
  unfold closeEngagement
  split
  · rfl
  · exact (judgeEngagement_still _ _).trans (engagementCredit_still _ p)

theorem evaluateClutch_still (p : Part) : (evaluateClutch p).still = p.still := by
  unfold evaluateClutch
  dsimp only
  split
  · exact closeEngagement_still p
  · split
    · exact closeEngagement_still p
    · split
      · split <;> rfl
      · split
        · rfl
        · split
          · exact closeEngagement_still p
          · rfl

theorem anchor_still (n v : Nat) (regressed : Bool) (p : Part) : (anchor n v regressed p).still = p.still := by
  unfold anchor
  split
  · rfl
  · rename_i h
    exact setSlot_still h rfl

theorem reconcileHours_still (v : Nat) (p : Part) : (reconcileHours v p).still = p.still := by
  unfold reconcileHours
  split
  · rfl
  · split
    · rfl
    · split
      · exact anchor_still _ _ _ p
      · split_ifs
        · rfl
        · exact anchor_still _ _ _ p
        · exact anchor_still _ _ _ p
        · dsimp only
          split
          · exact (anchor_still _ _ _ _).trans (creditSlot_still _ _ p)
          · exact anchor_still _ _ _ p

/-! ## The Engine Start Detector -/

theorem queueVerification_still (p : Part) (n : Nat) : (queueVerification n p).still = p.still := by
  unfold queueVerification
  split
  · split
    · dsimp only
      split
      · rfl
      · rename_i h _ _
        exact setSlot_still (p := { p with register := { p.register with pollQueue := insertSlot n p.register.pollQueue } })
          h rfl
    · rfl
  · rfl

theorem queueAll_still (p : Part) : (queueAll p).still = p.still :=
  foldl_keeps Part.still (fun p n => queueVerification_still p n) _ p

theorem endSave_still (p : Part) : (endSave p).still = p.still := by
  unfold endSave
  split
  · exact respond_still _ _ _
  · rfl

theorem endAttempt_still (failed : Bool) (duration : Nat) (p : Part) : (endAttempt failed duration p).still = p.still := by
  unfold endAttempt
  dsimp only
  split
  · split
    · exact starterEvent_still _ _ _ _
    · rfl
  · rfl

theorem seeStarter_still (p : Part) : (seeStarter p).still = p.still := by
  unfold seeStarter
  split <;> rfl

theorem countResume_still (p : Part) : (countResume p).still = p.still := by
  unfold countResume
  split
  · rfl
  · split
    · rename_i h
      exact setSlot_still h rfl
    · rfl

/-! ## ROLE_LOST (R20) -/

/-- The part without its latched ROLE_LOST. -/
def Part.unlatched (p : Part) : Part := { p with link := { p.link with roleLost := false } }

/-- What an update of a role does to the still part: nothing but ROLE_LOST, which may rise while it is judged (R20). -/
structure Part.Updated (p q : Part) : Prop where
  still : q.still.unlatched = p.still.unlatched
  rises : p.link.roleLost = true → q.link.roleLost = true
  unjudged : p.judgesRoles = false → q.link.roleLost = p.link.roleLost

theorem judgesRoles_of_still {p q : Part} (h : q.still.unlatched = p.still.unlatched) : q.judgesRoles = p.judgesRoles :=
  (congrArg Part.judgesRoles h : q.still.unlatched.judgesRoles = p.still.unlatched.judgesRoles)

theorem Part.Updated.of_still {p q : Part} (h : q.still = p.still) : p.Updated q :=
  have lost : q.link.roleLost = p.link.roleLost :=
    (congrArg (fun r : Part => r.link.roleLost) h : q.still.link.roleLost = p.still.link.roleLost)
  ⟨congrArg Part.unlatched h, fun hp => lost.trans hp, fun _ => lost⟩

theorem Part.Updated.refl (p : Part) : p.Updated p := .of_still rfl

theorem Part.Updated.trans {p q r : Part} (h : p.Updated q) (k : q.Updated r) : p.Updated r :=
  ⟨k.still.trans h.still, fun hp => k.rises (h.rises hp), fun hp =>
    (k.unjudged ((judgesRoles_of_still h.still).trans hp)).trans (h.unjudged hp)⟩

theorem Part.Updated.after_still {p p' q : Part} (h : p'.Updated q) (hs : p'.still = p.still) : p.Updated q :=
  (Part.Updated.of_still hs).trans h

theorem raiseRoleLost_updated {p : Part} (h : p.judgesRoles = true) : p.Updated (raiseRoleLost p) :=
  ⟨rfl, fun _ => rfl, fun hp => absurd (h.symm.trans hp) (by decide)⟩

theorem enterRunning_updated (p : Part) : p.Updated (enterRunning p) := by
  have raised : p.Updated (if p.judgesRoles && p.missingRole then raiseRoleLost p else p) := by
    split
    · exact raiseRoleLost_updated (by simp_all)
    · exact .refl p
  unfold enterRunning
  dsimp only
  generalize (if p.judgesRoles && p.missingRole then raiseRoleLost p else p) = q at raised ⊢
  split
  · exact raised.trans (.of_still (queueAll_still _))
  · exact raised

theorem changeEngine_updated (new : EngineState) (p : Part) : p.Updated (changeEngine new p) := by
  unfold changeEngine
  dsimp only
  by_cases same : p.detector.engine = new
  · rw [if_pos same]
    exact .refl p
  · rw [if_neg same]
    have h1 : (if p.detector.engine = .running then closeEngagement p else p).still = p.still := by
      split
      · exact closeEngagement_still p
      · rfl
    generalize (if p.detector.engine = .running then closeEngagement p else p) = q at h1 ⊢
    have h2 : (if p.detector.engine = .stopped then
        stopQuiet (endSave { q with detector := { q.detector with engine := new } })
        else { q with detector := { q.detector with engine := new } }).still = p.still := by
      split
      · exact (endSave_still _).trans h1
      · exact h1
    split
    · exact (Part.Updated.of_still h2).trans (enterRunning_updated _)
    · exact .of_still h2

theorem beginCranking_updated (p : Part) : p.Updated (beginCranking p) := (changeEngine_updated _ _).after_still rfl

theorem beginCatching_updated (p : Part) : p.Updated (beginCatching p) := (changeEngine_updated _ _).after_still rfl

theorem evaluateStopped_updated (speed : Int) (p : Part) : p.Updated (evaluateStopped speed p) := by
  unfold evaluateStopped
  dsimp only
  split_ifs
  · exact (beginCatching_updated _).after_still rfl
  · exact beginCranking_updated p
  · exact .refl p

theorem evaluateCranking_updated (speed : Int) (p : Part) : p.Updated (evaluateCranking speed p) := by
  have seen := Part.Updated.of_still (seeStarter_still p)
  unfold evaluateCranking
  dsimp only
  split_ifs
  · exact seen.trans ((beginCatching_updated _).after_still rfl)
  · exact seen.trans ((changeEngine_updated _ _).after_still (endAttempt_still _ _ _))
  · exact seen

theorem evaluateCatching_updated (speed : Int) (p : Part) : p.Updated (evaluateCatching speed p) := by
  have ended := Part.Updated.of_still (endAttempt_still true p.attemptDuration p)
  unfold evaluateCatching
  dsimp only
  split_ifs
  · exact ended.trans (changeEngine_updated _ _)
  · exact ended.trans (beginCranking_updated _)
  · exact .refl p

theorem evaluateRunning_updated (speed : Int) (p : Part) : p.Updated (evaluateRunning speed p) := by
  unfold evaluateRunning
  split
  · exact changeEngine_updated _ p
  · exact .refl p

theorem resumeFrom_updated (speed : Int) (p : Part) : p.Updated (resumeFrom speed p) := by
  unfold resumeFrom
  split
  · exact (changeEngine_updated _ _).after_still (countResume_still p)
  · exact (changeEngine_updated _ p).trans (evaluateStopped_updated _ _)

theorem loseSpeed_updated (p : Part) : p.Updated (loseSpeed p) := (changeEngine_updated _ _).after_still rfl

/-- An evaluation of the detector touches no port, no role and no ring record. -/
theorem evaluateDetector_updated (onSpeed : Bool) (p : Part) : p.Updated (evaluateDetector onSpeed p) := by
  unfold evaluateDetector
  split
  · split
    · exact loseSpeed_updated p
    · exact .refl p
  · split
    · exact evaluateStopped_updated _ p
    · exact evaluateCranking_updated _ p
    · exact evaluateCatching_updated _ p
    · exact evaluateRunning_updated _ p
    · split
      · exact resumeFrom_updated _ p
      · exact .refl p

theorem expireWindowA_updated (p : Part) : p.Updated (expireWindowA p) := by
  unfold expireWindowA
  split
  · exact (beginCranking_updated _).after_still (endAttempt_still _ _ p)
  · exact .refl p

theorem expireWindowB_updated (p : Part) : p.Updated (expireWindowB p) := by
  unfold expireWindowB
  split
  · exact (changeEngine_updated _ _).after_still ((startCredit_still _).trans (endAttempt_still _ _ p))
  · exact .refl p

theorem handUpdate_updated (r : Nat) (sample : Bool) (p : Part) : p.Updated (handUpdate r sample p) := by
  unfold handUpdate
  split_ifs
  · exact evaluateDetector_updated true p
  · exact evaluateDetector_updated false p
  · split
    · exact .of_still (reconcileHours_still _ p)
    · exact .refl p
  · exact .refl p

end Sys2Proof.Machine
end

section
/-! Port A's transmitter and queue: what each block's doings leave of them, and the invariant that they hold only the
part's own frames (R5, R128, R130). -/

namespace Sys2Proof.Machine

/-- The frames at port A: that in the transmitter, then the queue. -/
def Part.framesA (p : Part) : List TxFrame := p.portA.tx.toList ++ p.ring.queueA

theorem portAOwn_iff (p : Part) : p.portAOwn ↔ ∀ f ∈ p.framesA, f.ownA = true := Iff.rfl

theorem portAOwn_of_framesA {p q : Part} (h : q.framesA = p.framesA) (hp : p.portAOwn) : q.portAOwn := by
  rw [portAOwn_iff, h]
  exact hp

theorem framesA_of_still {p q : Part} (h : q.still = p.still) : q.framesA = p.framesA :=
  (congrArg Part.framesA h : q.still.framesA = p.still.framesA)

theorem framesA_of_updated {p q : Part} (h : p.Updated q) : q.framesA = p.framesA :=
  (congrArg Part.framesA h.still : q.still.unlatched.framesA = p.still.unlatched.framesA)

theorem setChan_framesA (ch : Channel) (c : Chan) (p : Part) : (p.setChan ch c).framesA = p.framesA := by
  cases ch <;> rfl

theorem respond_framesA (ch : Channel) (msg : List Byte) (p : Part) : (respond ch msg p).framesA = p.framesA :=
  setChan_framesA ch _ p

/-! ## The ring, the decoder and the roles -/

theorem movePointer_framesA (start : Word32) (p : Part) : (movePointer start p).framesA = p.framesA := rfl

theorem recordFrame_framesA (f : Frame) (forward : Bool) (p : Part) : (recordFrame f forward p).framesA = p.framesA := by
  have lost : (match p.ring.replaced with
      | some old => copierLoses old.sequence p
      | none => p).still = p.still := by
    split
    · exact copierLoses_still _ p
    · rfl
  unfold recordFrame
  dsimp only
  refine (framesA_of_still (copierRun_still _)).trans ?_
  have tx := congrArg (fun q : Part => q.portA.tx) lost
  split_ifs
  all_goals exact congrArg (fun tx : Option TxFrame => tx.toList ++ p.ring.queueA) tx

theorem applyRole_framesA (i : Nat) (ev : RoleEvent) (p : Part) (r : Nat) :
    (applyRole i ev p r).framesA = p.framesA := by
  unfold applyRole
  dsimp only
  split
  · refine (framesA_of_updated (handUpdate_updated _ _ _)).trans ?_
    split <;> rfl
  · split <;> rfl

theorem applyRoles_framesA (i : Nat) (ev : RoleEvent) (p : Part) : (applyRoles i ev p).framesA = p.framesA :=
  foldl_keeps Part.framesA (applyRole_framesA i ev) _ p

theorem applySample_framesA (i : Nat) (e : SignalEntry) (period : Nat) (data : List Byte) (p : Part) :
    (applySample i e period data p).framesA = p.framesA := applyRoles_framesA _ _ _

theorem decodeFrame_framesA (entry period : Nat) (data : List Byte) (p : Part) :
    (decodeFrame entry period data p).framesA = p.framesA := by
  refine foldl_keeps Part.framesA (fun q i => ?_) _ p
  split
  · split
    · exact applySample_framesA _ _ _ _ q
    · rfl
  · rfl

theorem expireSignal_framesA (i : Nat) (p : Part) : (expireSignal i p).framesA = p.framesA := by
  unfold expireSignal
  dsimp only
  split
  · exact applyRoles_framesA _ _ _
  · rfl

theorem countUnmatched_framesA (port : PortId) (p : Part) : (countUnmatched port p).framesA = p.framesA := by
  cases port <;> rfl

/-- No frame received on either port reaches port A (R5). -/
theorem matchFrame_framesA (port : PortId) (f : Frame) (p : Part) : (matchFrame port f p).framesA = p.framesA := by
  unfold matchFrame
  split
  · split
    · exact recordFrame_framesA _ _ p
    · exact countUnmatched_framesA _ p
  · split
    · exact countUnmatched_framesA _ p
    · split
      · exact countUnmatched_framesA _ p
      · dsimp only
        refine (decodeFrame_framesA _ _ _ _).trans ?_
        split
        · exact recordFrame_framesA _ _ _
        · rfl

/-! ## The power states, the mode and the engine -/

theorem wakeCause_own {p : Part} (hp : p.portAOwn) : (wakeCause p).portAOwn := by
  unfold wakeCause
  split
  · exact fun f hf => hp f (List.mem_append_left _ (List.mem_append.mp hf |>.resolve_right List.not_mem_nil))
  · exact hp

theorem sleepEntry_own (p : Part) : (sleepEntry p).portAOwn := fun _ hf => absurd hf List.not_mem_nil

theorem enterMode_framesA (target : Mode) (p : Part) : (enterMode target p).framesA = p.framesA := by
  cases target <;> rfl

theorem changeMode_framesA (target : Mode) (p : Part) : (changeMode target p).framesA = p.framesA := by
  have left : (leaveActive p).framesA = p.framesA := by
    unfold leaveActive
    split
    · exact framesA_of_still (closeEngagement_still p)
    · rfl
  exact (enterMode_framesA target _).trans left

theorem promote_framesA (p : Part) : (promote p).framesA = p.framesA := by
  unfold promote
  dsimp only
  split
  · exact (movePointer_framesA _ _).trans ((framesA_of_updated (loseSpeed_updated _)).trans rfl)
  · exact (framesA_of_updated (loseSpeed_updated _)).trans rfl

theorem settleIgn_own {p : Part} (hp : p.portAOwn) : (settleIgn p).portAOwn := by
  unfold settleIgn
  dsimp only
  split_ifs
  · exact hp
  · exact hp
  · exact wakeCause_own hp
  · exact portAOwn_of_framesA (framesA_of_updated (changeEngine_updated _ _)) hp
  · exact hp

/-! ## The restore -/

theorem restoreRead_framesA (p : Part) : (restoreRead p).framesA = p.framesA := by
  unfold restoreRead
  split <;> rfl

theorem continueRestore_framesA (r : Restore) (p : Part) : (continueRestore r p).framesA = p.framesA :=
  restoreRead_framesA _

theorem beginRestore_own (p : Part) : (beginRestore p).portAOwn := fun _ hf => absurd hf List.not_mem_nil

theorem setStorage_framesA (st : Storage) (p : Part) : (p.setStorage st).framesA = p.framesA := rfl

theorem takeShorts_framesA (known : Nat) (shorts : List ShortImage) (p : Part) :
    (takeShorts known shorts p).1.framesA = p.framesA := rfl

theorem endScan_framesA (m : Medium) (r : Restore) (p : Part) : (endScan m r p).1.framesA = p.framesA := by
  unfold endScan
  dsimp only
  split
  · rfl
  · rw [setStorage_framesA, takeShorts_framesA]
    rfl

theorem endPosition_framesA (m : Medium) (position : Nat) (r : Restore) (p : Part) :
    (endPosition m position r p).framesA = p.framesA := by
  unfold endPosition
  split
  · exact continueRestore_framesA _ p
  · exact (continueRestore_framesA _ _).trans (endScan_framesA m r p)

theorem endCheckpoint_framesA (m : Medium) (position : Nat) (r : Restore) (p : Part) :
    (endCheckpoint m position r p).framesA = p.framesA := by
  unfold endCheckpoint
  split <;> exact endPosition_framesA _ _ _ p

theorem recoverComponent_framesA (record : ArchiveRecord) (p : Part) :
    (recoverComponent record p).framesA = p.framesA := by
  unfold recoverComponent
  dsimp only
  split
  · split <;> rfl
  · rfl

theorem endComponent_framesA (m : Medium) (r : Restore) (p : Part) : (endComponent m r p).framesA = p.framesA := by
  unfold endComponent
  dsimp only
  split
  · split
    · exact (continueRestore_framesA _ _).trans (recoverComponent_framesA _ p)
    · exact continueRestore_framesA _ p
  · exact continueRestore_framesA _ p

theorem recoverHire_framesA (number : Nat) (r : Restore) (p : Part) :
    (recoverHire number r p).1.framesA = p.framesA := by
  unfold recoverHire
  dsimp only
  split_ifs <;> rfl

theorem endHire_framesA (m : Medium) (r : Restore) (p : Part) : (endHire m r p).framesA = p.framesA := by
  unfold endHire
  dsimp only
  split
  · exact (continueRestore_framesA _ _).trans (recoverHire_framesA _ r _)
  · exact continueRestore_framesA _ p

theorem endHeader_framesA (entry : Nat) (r : Restore) (p : Part) : (endHeader entry r p).framesA = p.framesA := by
  unfold endHeader
  split
  · exact continueRestore_framesA _ p
  · rfl

theorem restoreTook_framesA (m : Medium) (p : Part) : (restoreTook m p).framesA = p.framesA := by
  unfold restoreTook
  split
  · rfl
  · split
    · split
      · exact continueRestore_framesA _ p
      · exact continueRestore_framesA _ _
    · split
      · exact endPosition_framesA _ _ _ p
      · split
        · split
          · exact continueRestore_framesA _ p
          · exact endPosition_framesA _ _ _ p
        · exact endPosition_framesA _ _ _ p
    · split
      · exact continueRestore_framesA _ p
      · exact endCheckpoint_framesA _ _ _ p
    · split
      · exact continueRestore_framesA _ p
      · exact endComponent_framesA _ _ p
    · split
      · exact continueRestore_framesA _ p
      · exact endHire_framesA _ _ p
    · exact endHeader_framesA _ _ _

theorem restoreUnanswered_framesA (m : Medium) (p : Part) : (restoreUnanswered m p).framesA = p.framesA := by
  unfold restoreUnanswered
  split
  · rfl
  · split
    · exact continueRestore_framesA _ _
    · exact endPosition_framesA _ _ _ p
    · exact endPosition_framesA _ _ _ p
    · exact continueRestore_framesA _ p
    · exact continueRestore_framesA _ p
    · exact endHeader_framesA _ _ p

/-! ## The readers -/

theorem startReader_framesA (ch : Channel) (task : ReaderTask) (p : Part) :
    (startReader ch task p).framesA = p.framesA := by
  unfold startReader
  split
  · rfl
  · exact respond_framesA _ _ p

theorem refreshReader_framesA (p : Part) (r : Reader) : (refreshReader p r).framesA = p.framesA := by
  unfold refreshReader
  split
  · rfl
  · split
    · rfl
    · exact respond_framesA _ _ _

theorem refreshReaders_framesA (p : Part) : (refreshReaders p).framesA = p.framesA :=
  foldl_keeps Part.framesA refreshReader_framesA _ p

theorem finishFrames_framesA (number index remaining : Nat) (out : List Byte) (spoiled : Bool) (page : List Byte)
    (p : Part) : (finishFrames number index remaining out spoiled page p).1.framesA = p.framesA := by
  unfold finishFrames
  split
  · rfl
  · dsimp only
    split
    · split <;> rfl
    · split <;> rfl

theorem finishRead_framesA (r : Reader) (p : Part) : (finishRead r p).1.framesA = p.framesA := by
  unfold finishRead
  split
  · rfl
  · rfl
  · rfl
  · exact finishFrames_framesA _ _ _ _ _ _ p
  · rfl

theorem readerTook_framesA (bytes : List Byte) (spoiled : Bool) (p : Part) :
    (readerTook bytes spoiled p).framesA = p.framesA := by
  unfold readerTook
  split
  · rfl
  · rename_i r rest _
    dsimp only
    have read := finishRead_framesA
      { r with page := r.page + 1, buffer := r.buffer ++ bytes, spoiled := r.spoiled || spoiled } p
    split
    · rfl
    · split <;> rename_i heq <;> rw [heq] at read
      · split
        · exact read
        · exact (respond_framesA _ _ _).trans read
      · exact (respond_framesA _ _ _).trans read

theorem readerFailed_framesA (p : Part) : (readerFailed p).framesA = p.framesA := by
  unfold readerFailed
  split
  · rfl
  · exact respond_framesA _ _ _

theorem expireScan_framesA (ch : Channel) (p : Part) : (expireScan ch p).framesA = p.framesA := by
  unfold expireScan
  split
  · split
    · exact respond_framesA _ _ _
    · rfl
  · rfl

/-! ## The storage controller -/

theorem grantReader_framesA (p : Part) : (grantReader p).framesA = p.framesA := by
  unfold grantReader
  split <;> rfl

theorem grant_framesA (m : Medium) (p : Part) : (grant m p).framesA = p.framesA := by
  unfold grant
  split_ifs
  · rfl
  · rfl
  · exact (grantReader_framesA _).trans (refreshReaders_framesA p)
  · unfold grantFull
    dsimp only
    split <;> rfl
  · rfl
  · split
    · unfold grantArchive
      dsimp only
      split <;> rfl
    · rfl
    · exact (grantReader_framesA _).trans (refreshReaders_framesA p)

theorem answerWaiter_framesA (ended : Option (Nat × Nat)) (p : Part) (w : Waiter) :
    (answerWaiter ended w p).framesA = p.framesA := by
  unfold answerWaiter
  split
  · rfl
  · exact (setChan_framesA _ _ _).trans (respond_framesA _ _ p)
  all_goals exact respond_framesA _ _ p

theorem settleSleep_own (completed : Bool) {p : Part} (hp : p.portAOwn) : (settleSleep completed p).portAOwn := by
  unfold settleSleep
  split
  · exact sleepEntry_own p
  · exact hp

theorem endFull_own (completed : Bool) {p : Part} (hp : p.portAOwn) : (endFull completed p).portAOwn := by
  unfold endFull
  dsimp only
  have answered := fun ended st =>
    portAOwn_of_framesA (foldl_keeps Part.framesA (answerWaiter_framesA ended) p.storage.full.waiters (p.setStorage st)) hp
  split
  · exact settleSleep_own _ (answered _ _)
  · exact answered _ _

theorem endShort_framesA (p : Part) : (endShort p).framesA = p.framesA := by
  unfold endShort
  split <;> rfl

theorem completeSave_framesA (target : Mode) (p : Part) : (completeSave target p).framesA = p.framesA :=
  (respond_framesA _ _ _).trans ((enterMode_framesA target _).trans (promote_framesA p))

theorem tableVerified_framesA (resave : Bool) (p : Part) : (tableVerified resave p).framesA = p.framesA := by
  unfold tableVerified
  dsimp only
  split
  · split
    · rfl
    · exact completeSave_framesA _ p
  · split <;> rfl
  · rfl

theorem tableFailed_framesA (resave : Bool) (p : Part) : (tableFailed resave p).framesA = p.framesA := by
  unfold tableFailed
  split
  · exact respond_framesA _ _ _
  · rfl
  · rfl

theorem completeComponent_framesA (record : ArchiveRecord) (events time units : Nat) (marks : Vector Nat 4) (p : Part) :
    (completeComponent record events time units marks p).framesA = p.framesA := by
  unfold completeComponent
  dsimp only
  refine (respond_framesA _ _ _).trans ?_
  split <;> rfl

theorem completeHire_framesA (ch : Channel) (p : Part) : (completeHire ch p).framesA = p.framesA := by
  unfold completeHire
  split
  · rfl
  · exact respond_framesA _ _ _

theorem reopenHire_framesA (ch : Channel) (p : Part) : (reopenHire ch p).framesA = p.framesA := by
  unfold reopenHire
  split
  · rfl
  · exact respond_framesA _ _ _

theorem archiveVerified_framesA (p : Part) : (archiveVerified p).framesA = p.framesA := by
  unfold archiveVerified completeArchive
  split
  · rfl
  · split
    · rfl
    · split
      · exact completeComponent_framesA _ _ _ _ _ _
      · exact completeHire_framesA _ _
      · rfl

theorem archiveFailed_framesA (p : Part) : (archiveFailed p).framesA = p.framesA := by
  unfold archiveFailed failArchive
  split
  · rfl
  · split
    · exact respond_framesA _ _ _
    · exact reopenHire_framesA _ _
    · exact respond_framesA _ _ _

theorem captureVerified_framesA (p : Part) : (captureVerified p).framesA = p.framesA := by
  unfold captureVerified
  split
  · rfl
  · dsimp only
    split
    · rfl
    · unfold pageStored
      split
      · rfl
      · exact framesA_of_still (copierRun_still _)
    · exact framesA_of_still (closeCapture_still _ _ _)
    · unfold released
      split <;> exact respond_framesA _ _ _

theorem captureFailed_framesA (p : Part) : (captureFailed p).framesA = p.framesA := by
  unfold captureFailed
  split
  · rfl
  · dsimp only
    split
    · exact respond_framesA _ _ _
    all_goals exact framesA_of_still (failCapture_still _ _)

theorem writeVerified_own (o : Owner) {p : Part} (hp : p.portAOwn) : (writeVerified o p).portAOwn := by
  unfold writeVerified
  split
  · unfold shortVerified
    dsimp only
    split
    · exact hp
    · exact portAOwn_of_framesA (endShort_framesA p) hp
  · unfold fullVerified
    dsimp only
    split
    · exact hp
    · exact endFull_own true hp
  · exact portAOwn_of_framesA (tableVerified_framesA _ p) hp
  · exact portAOwn_of_framesA (archiveVerified_framesA p) hp
  · exact portAOwn_of_framesA (captureVerified_framesA p) hp
  · exact hp
  · exact hp

theorem writeFailed_own (o : Owner) {p : Part} (hp : p.portAOwn) : (writeFailed o p).portAOwn := by
  unfold writeFailed
  split
  · exact portAOwn_of_framesA (endShort_framesA p) hp
  · exact endFull_own false hp
  · exact portAOwn_of_framesA (tableFailed_framesA _ p) hp
  · exact portAOwn_of_framesA (archiveFailed_framesA p) hp
  · exact portAOwn_of_framesA (captureFailed_framesA p) hp
  · exact hp
  · exact hp

theorem readTook_framesA (m : Medium) (t : Transaction) (p : Part) : (readTook m t p).framesA = p.framesA := by
  unfold readTook
  split
  · exact restoreTook_framesA m p
  · exact readerTook_framesA _ _ p
  · rfl

theorem readSilent_framesA (m : Medium) (o : Owner) (p : Part) : (readSilent m o p).framesA = p.framesA := by
  unfold readSilent
  split
  · exact restoreUnanswered_framesA m p
  · exact readerFailed_framesA p
  · rfl

/-! ## The Probe Unit -/

theorem endAttemptInHand_framesA (h : InHand) (reply : Option Frame) (p : Part) :
    (endAttemptInHand h reply p).framesA = p.framesA := by
  unfold endAttemptInHand
  split
  · rfl
  · split
    · rfl
    · split <;> rfl

theorem endQuery_framesA (reply : Option Frame) (p : Part) : (endQuery reply p).framesA = p.framesA := by
  unfold endQuery
  split
  · rfl
  · dsimp only
    split
    · exact respond_framesA _ _ _
    · split
      · exact endAttemptInHand_framesA _ _ _
      · rfl

theorem watchReply_framesA (f : Frame) (p : Part) : (watchReply f p).framesA = p.framesA := by
  unfold watchReply
  split
  · split
    · exact endQuery_framesA _ p
    · rfl
  · rfl

theorem expireReply_own {p : Part} (hp : p.portAOwn) : (expireReply p).portAOwn := by
  unfold expireReply
  split
  · exact hp
  · dsimp only
    refine portAOwn_of_framesA (endQuery_framesA _ _) fun f hf => hp f ?_
    rcases List.mem_append.mp hf with h | h
    · refine List.mem_append_left _ ?_
      revert h
      dsimp only
      split
      · exact fun h => absurd h List.not_mem_nil
      · exact id
    · exact List.mem_append_right _ (List.mem_filter.mp h).1

theorem sendQuery_own (f : Frame) (q : Query) {p : Part} (hp : p.portAOwn) : (sendQuery f q p).portAOwn := by
  intro x hx
  simp only [sendQuery, ← List.append_assoc, List.mem_append, List.mem_singleton] at hx
  rcases hx with h | h
  · exact hp x (List.mem_append.mpr h)
  · rw [h]; rfl

theorem startAttempt_own (n : Nat) {p : Part} (hp : p.portAOwn) : (startAttempt n p).portAOwn := by
  unfold startAttempt
  split
  · exact sendQuery_own _ _ hp
  · exact hp

theorem probeNext_own {p : Part} (hp : p.portAOwn) : (probeNext p).portAOwn := by
  unfold probeNext
  dsimp only
  split
  · exact hp
  · exact sendQuery_own _ _ hp
  · exact startAttempt_own _ hp
  · exact startAttempt_own _ hp
  · exact hp

/-! ## The transmitters -/

theorem fillA_framesA (p : Part) : (fillA p).framesA = p.framesA := by
  unfold fillA
  split
  · rename_i h
    obtain ⟨-, h⟩ := h
    have hn : p.portA.tx = none := by simpa using h
    split
    · rfl
    · rename_i f rest hq
      simp [Part.framesA, hn, hq]
  · rfl

theorem fillB_framesA (p : Part) : (fillB p).framesA = p.framesA := by
  unfold fillB
  split
  · split <;> rfl
  · rfl

theorem offerFrame_own (ch : Channel) (port : PortId) {f : TxFrame} {p : Part} (hp : p.portAOwn)
    (hf : port = .a → f.ownA = true) : (offerFrame ch port f p).portAOwn := by
  cases port with
  | b => cases ch <;> exact hp
  | a =>
    intro x hx
    simp only [offerFrame, ← List.append_assoc, List.mem_append, List.mem_singleton] at hx
    rcases hx with h | h
    · exact hp x (List.mem_append.mpr h)
    · rw [h]; exact hf rfl

/-- Only the Service channel offers at port A, and what it offers is a response frame or a BUSY answer. -/
theorem offerNext_own {ch : Channel} {port : PortId} {p : Part} (hp : p.portAOwn) (hc : port = .a → ch = .service) :
    (offerNext ch port p).portAOwn := by
  unfold offerNext
  split
  · exact hp
  · dsimp only
    split
    · refine offerFrame_own _ _ (portAOwn_of_framesA (setChan_framesA _ _ p) hp) fun h => ?_
      rw [hc h]; rfl
    · split
      · split
        · exact hp
        · refine offerFrame_own _ _ (portAOwn_of_framesA (setChan_framesA _ _ p) hp) fun h => ?_
          rw [hc h]; rfl
      · exact hp

theorem linkOffers_own {p : Part} (hp : p.portAOwn) : (linkOffers p).portAOwn :=
  offerNext_own (offerNext_own (offerNext_own hp nofun) nofun) fun _ => rfl

theorem transmitSettle_own {p : Part} (hp : p.portAOwn) : (transmitSettle p).portAOwn :=
  linkOffers_own (portAOwn_of_framesA ((fillB_framesA _).trans (fillA_framesA _)) (linkOffers_own hp))

theorem settleQuiet_framesA (p : Part) : (settleQuiet p).framesA = p.framesA := rfl

/-- The settling after an event puts only own frames at port A (R130). -/
theorem settle_own (m : Medium) {p : Part} (hp : p.portAOwn) : (settle m p).portAOwn := by
  have granted : (grant m p).portAOwn := portAOwn_of_framesA (grant_framesA m p) hp
  unfold settle
  split
  · exact hp
  · split
    · exact granted
    · exact portAOwn_of_framesA (settleQuiet_framesA _) (transmitSettle_own (probeNext_own granted))

theorem after_own (s : State) {p : Part} (hp : p.portAOwn) : (s.after p).part.portAOwn := settle_own _ hp

theorem endResponse_own (ch : Channel) {p : Part} (hp : p.portAOwn) : (endResponse ch p).portAOwn := by
  unfold endResponse
  dsimp only
  split
  · exact beginRestore_own _
  · exact portAOwn_of_framesA (setChan_framesA _ _ p) hp

theorem frameLeft_own (f : TxFrame) {p : Part} (hp : p.portAOwn) : (frameLeft f p).portAOwn := by
  unfold frameLeft
  split
  · split
    · exact endResponse_own _ hp
    · exact portAOwn_of_framesA (setChan_framesA _ _ p) hp
  all_goals exact hp

theorem frameWithdrawn_own (f : TxFrame) {p : Part} (hp : p.portAOwn) : (frameWithdrawn f p).portAOwn := by
  unfold frameWithdrawn
  split
  · exact endResponse_own _ (portAOwn_of_framesA (setChan_framesA _ _ p) hp)
  · exact hp

/-- A port that keeps or loses its frame keeps port A's frames its own. -/
theorem setPort_own {port : PortId} {q : Port} {p : Part} (hp : p.portAOwn)
    (hq : q.tx = (p.port port).tx ∨ q.tx = none) : (p.setPort port q).portAOwn := by
  cases port with
  | b => exact hp
  | a =>
    intro f hf
    refine hp f ?_
    rcases List.mem_append.mp hf with h | h
    · have h : f ∈ q.tx.toList := h
      rcases hq with e | e <;> rw [e] at h
      · exact List.mem_append_left _ h
      · exact absurd h List.not_mem_nil
    · exact List.mem_append_right _ h

theorem transmitted_own (port : PortId) {p : Part} (hp : p.portAOwn) : (transmitted port p).portAOwn := by
  unfold transmitted
  dsimp only
  split
  · split
    · exact frameLeft_own _ (setPort_own hp (.inr rfl))
    · exact hp
  · exact hp

theorem removeWaiting_own (ch : Channel) (port : PortId) {p : Part} (hp : p.portAOwn) :
    (removeWaiting ch port p).portAOwn := by
  unfold removeWaiting
  split
  · exact hp
  · exact hp
  · refine fun f hf => hp f ?_
    rcases List.mem_append.mp hf with h | h
    · exact List.mem_append_left _ h
    · exact List.mem_append_right _ (List.mem_filter.mp h).1

theorem expireResponse_own (place : FramePlace) {p : Part} (hp : p.portAOwn) : (expireResponse place p).portAOwn := by
  unfold expireResponse
  split
  · exact portAOwn_of_framesA (setChan_framesA _ _ p) hp
  · split
    · exact frameWithdrawn_own _ (removeWaiting_own _ _ hp)
    · exact hp
  · split
    · split
      · exact frameWithdrawn_own _ (setPort_own hp (.inr rfl))
      · exact hp
    · exact hp

/-! ## Requests -/

theorem mapChan_framesA (ch : Channel) (f : Chan → Chan) (p : Part) : (p.mapChan ch f).framesA = p.framesA :=
  setChan_framesA _ _ p

theorem admitRequest_framesA {t : Terms} {ch : Channel} {code : Byte} {bad : Option Nat} {go : Part → Part} {p : Part}
    (h : (go p).framesA = p.framesA) : (admitRequest t ch code bad go p).framesA = p.framesA := by
  unfold admitRequest
  split
  · exact respond_framesA _ _ p
  · split
    · exact respond_framesA _ _ p
    · exact h

theorem admitRequest_own {t : Terms} {ch : Channel} {code : Byte} {bad : Option Nat} {go : Part → Part} {p : Part}
    (hp : p.portAOwn) (h : (go p).portAOwn) : (admitRequest t ch code bad go p).portAOwn := by
  unfold admitRequest
  split
  · exact portAOwn_of_framesA (respond_framesA _ _ p) hp
  · split
    · exact portAOwn_of_framesA (respond_framesA _ _ p) hp
    · exact h

theorem applyMode_framesA (ch : Channel) (target : Mode) (p : Part) : (applyMode ch target p).framesA = p.framesA := by
  unfold applyMode
  split_ifs
  · exact respond_framesA _ _ p
  · exact respond_framesA _ _ p
  · exact respond_framesA _ _ p
  · exact respond_framesA _ _ p
  · exact (respond_framesA _ _ _).trans (changeMode_framesA _ p)
  · exact respond_framesA _ _ p
  · split
    · exact respond_framesA _ _ _
    · rfl
  · exact (respond_framesA _ _ _).trans (changeMode_framesA _ p)

theorem requestSetMode_framesA (ch : Channel) (target : Byte) (p : Part) :
    (requestSetMode ch target p).framesA = p.framesA := by
  refine admitRequest_framesA ?_
  split
  · exact applyMode_framesA _ _ p
  · rfl

theorem requestWriteTable_framesA (ch : Channel) (table item : Byte) (contents : List Byte) (p : Part) :
    (requestWriteTable ch table item contents p).framesA = p.framesA := by
  refine admitRequest_framesA ?_
  unfold writeItem
  split
  · exact respond_framesA _ _ p
  · split
    · exact respond_framesA _ _ _
    · rfl

theorem requestReadTable_framesA (ch : Channel) (table item : Byte) (p : Part) :
    (requestReadTable ch table item p).framesA = p.framesA := by
  refine admitRequest_framesA ?_
  split <;> exact respond_framesA _ _ p

theorem requestRestart_framesA (ch : Channel) (p : Part) : (requestRestart ch p).framesA = p.framesA := by
  refine admitRequest_framesA ?_
  split
  · exact respond_framesA _ _ p
  · rfl

/-- CLEAR ALL leaves port A's frames in place, a query's frame as one of its own (R134). -/
theorem clearCounting_own {p : Part} (hp : p.portAOwn) : (clearCounting p).portAOwn := by
  have orphaned : ∀ f : TxFrame, f.ownA = true → f.orphaned.ownA = true := by
    intro f hf
    unfold TxFrame.orphaned
    split
    · rfl
    · exact hf
  have mapped : (clearCounting p).framesA = p.framesA.map TxFrame.orphaned := by
    simp [Part.framesA, clearCounting, ← Option.toList_map]
  intro f hf
  rw [← Part.framesA, mapped] at hf
  obtain ⟨x, hx, rfl⟩ := List.mem_map.mp hf
  exact orphaned x (hp x hx)

theorem requestClearAll_own (ch : Channel) {p : Part} (hp : p.portAOwn) : (requestClearAll ch p).portAOwn := by
  refine admitRequest_own hp ?_
  split
  · exact portAOwn_of_framesA (respond_framesA _ _ p) hp
  · exact clearCounting_own hp

theorem requestInstall_framesA (ch : Channel) (a : InstallArgs) (p : Part) :
    (requestInstall ch a p).framesA = p.framesA := by
  refine admitRequest_framesA ?_
  split
  · unfold applyInstall
    dsimp only
    split_ifs <;> exact respond_framesA _ _ _
  · rfl

theorem requestRemove_framesA (ch : Channel) (slot : Byte) (p : Part) : (requestRemove ch slot p).framesA = p.framesA := by
  refine admitRequest_framesA ?_
  split
  · exact respond_framesA _ _ p
  · split
    · exact respond_framesA _ _ p
    · split
      · exact respond_framesA _ _ p
      · rfl

theorem requestConfirm_framesA (ch : Channel) (slot : Byte) (events time wear : Word32) (p : Part) :
    (requestConfirm ch slot events time wear p).framesA = p.framesA := by
  refine admitRequest_framesA ?_
  split
  · exact respond_framesA _ _ p
  · split
    · exact respond_framesA _ _ p
    · split
      · exact respond_framesA _ _ p
      · rfl

theorem resolveHold_framesA (ch : Channel) (code : Byte) (n : Nat) (f : Component → Hold → Component) (p : Part) :
    (resolveHold ch code n f p).framesA = p.framesA := by
  unfold resolveHold
  split
  · exact respond_framesA _ _ p
  · split <;> exact respond_framesA _ _ _

theorem requestVerify_framesA (ch : Channel) (slot : Byte) (p : Part) : (requestVerify ch slot p).framesA = p.framesA := by
  refine admitRequest_framesA ?_
  split_ifs
  · exact (respond_framesA _ _ _).trans (framesA_of_still (queueAll_still p))
  · exact respond_framesA _ _ p
  · exact (respond_framesA _ _ _).trans (framesA_of_still (queueVerification_still p _))

theorem requestSpectrum_framesA (ch : Channel) (slot : Byte) (p : Part) :
    (requestSpectrum ch slot p).framesA = p.framesA := by
  refine admitRequest_framesA ?_
  split <;> exact respond_framesA _ _ p

theorem requestOpenHire_framesA (ch : Channel) (contract : Word32) (p : Part) :
    (requestOpenHire ch contract p).framesA = p.framesA := by
  refine admitRequest_framesA ?_
  dsimp only
  split_ifs <;> exact respond_framesA _ _ _

theorem requestReadHire_framesA (ch : Channel) (p : Part) : (requestReadHire ch p).framesA = p.framesA := by
  refine admitRequest_framesA ?_
  split <;> exact respond_framesA _ _ p

theorem requestCloseHire_framesA (ch : Channel) (p : Part) : (requestCloseHire ch p).framesA = p.framesA := by
  refine admitRequest_framesA ?_
  dsimp only
  split
  · exact respond_framesA _ _ p
  · split
    · exact respond_framesA _ _ p
    · rfl

theorem requestCollectHire_framesA (ch : Channel) (p : Part) : (requestCollectHire ch p).framesA = p.framesA := by
  refine admitRequest_framesA ?_
  split
  · exact respond_framesA _ _ p
  · exact startReader_framesA _ _ p

theorem requestCaptureNow_framesA (ch : Channel) (pre post : BitVec 16) (p : Part) :
    (requestCaptureNow ch pre post p).framesA = p.framesA :=
  admitRequest_framesA ((respond_framesA _ _ _).trans (framesA_of_still (takeTrigger_still _ p)))

theorem requestRelease_framesA (ch : Channel) (number : Word32) (p : Part) :
    (requestRelease ch number p).framesA = p.framesA := by
  refine admitRequest_framesA ?_
  split
  · rfl
  · split_ifs
    · exact respond_framesA _ _ p
    · exact respond_framesA _ _ p
    · rfl

/-- A request answered at once with what it reads or sets leaves port A's frames. -/
theorem admitAnswer_framesA {t : Terms} {ch : Channel} {code : Byte} {bad : Option Nat} {msg : Part → List Byte}
    {change : Part → Part} {p : Part} (h : (change p).framesA = p.framesA) :
    (admitRequest t ch code bad (fun q => respond ch (msg q) (change q)) p).framesA = p.framesA :=
  admitRequest_framesA ((respond_framesA _ _ _).trans h)

/-- A whole message keeps port A's frames the part's own, whatever it asks for. -/
theorem dispatch_own (ch : Channel) (msg : List Byte) {p : Part} (hp : p.portAOwn) : (dispatch ch msg p).portAOwn := by
  have keeps : ∀ {q : Part}, q.framesA = p.framesA → q.portAOwn := fun h => portAOwn_of_framesA h hp
  have read : ∀ {t : Terms} {code : Byte} {bad : Option Nat} {results : Part → List Byte},
      (admitRequest t ch code bad (fun q => answer ch code (results q) q) p).portAOwn :=
    keeps (admitRequest_framesA (respond_framesA _ _ p))
  unfold dispatch
  dsimp only
  split
  · exact keeps (respond_framesA _ _ p)
  · split
    · exact keeps (admitRequest_framesA (respond_framesA _ _ p))
    · exact read
    · exact keeps (requestSetMode_framesA ..)
    · exact keeps (admitRequest_framesA (respond_framesA _ _ _))
    · exact keeps (requestRestart_framesA ..)
    · exact requestClearAll_own ch hp
    · exact keeps (admitRequest_framesA (respond_framesA _ _ p))
    · exact keeps (requestWriteTable_framesA ..)
    · exact keeps (requestReadTable_framesA ..)
    · exact read
    · exact read
    · exact keeps (requestSpectrum_framesA ..)
    · exact keeps (requestInstall_framesA ..)
    · exact keeps (requestRemove_framesA ..)
    · exact keeps (requestConfirm_framesA ..)
    · exact keeps (admitRequest_framesA (resolveHold_framesA ..))
    · exact keeps (admitRequest_framesA (resolveHold_framesA ..))
    · exact keeps (requestVerify_framesA ..)
    · exact keeps (admitRequest_framesA rfl)
    · exact keeps (requestOpenHire_framesA ..)
    · exact keeps (requestCloseHire_framesA ..)
    · exact keeps (requestReadHire_framesA ..)
    · exact keeps (requestCollectHire_framesA ..)
    · exact read
    · exact keeps (requestCaptureNow_framesA ..)
    · exact keeps (admitRequest_framesA (respond_framesA _ _ _))
    · exact keeps (admitRequest_framesA (respond_framesA _ _ _))
    · exact keeps (requestRelease_framesA ..)
    · exact read
    · exact keeps (admitRequest_framesA rfl)
    · exact read
    · exact keeps (admitRequest_framesA (startReader_framesA ..))
    · exact keeps (admitRequest_framesA (startReader_framesA ..))
    · exact read
    · exact keeps (admitRequest_framesA (respond_framesA _ _ _))
    · exact keeps (admitRequest_framesA (respond_framesA _ _ _))
    · exact keeps (respond_framesA _ _ p)

end Sys2Proof.Machine
end

section
/-! Every request command is its message dispatched by code and layout (R176, R191): the bytes of each field read back. -/

namespace Sys2Proof.Machine

/-! ## Fields of a message -/

theorem byteAt_zero (b : Byte) (rest : List Byte) : byteAt (b :: rest) 0 = b := rfl

theorem byteAt_succ (b : Byte) (rest : List Byte) (offset : Nat) :
    byteAt (b :: rest) (offset + 1) = byteAt rest offset := rfl

theorem byteAt_beBytes_append {k offset : Nat} (v : Nat) (rest : List Byte) (h : k ≤ offset) :
    byteAt (beBytes k v ++ rest) offset = byteAt rest (offset - k) := by
  simp [byteAt, List.getD_eq_getElem?_getD, List.getElem?_append_right, beBytes_length, h]

theorem natAt_beBytes_append {k offset : Nat} (v : Nat) (rest : List Byte) (n : Nat) (h : k ≤ offset) :
    natAt (beBytes k v ++ rest) offset n = natAt rest (offset - k) n := by
  have skip := natAt_append (beBytes k v) rest (offset - k) n
  rwa [beBytes_length, Nat.add_sub_cancel' h] at skip

/-- A word field that stands at the front reads back. -/
theorem ofNat_natAt_beBytes {w n : Nat} (v : BitVec w) (rest : List Byte) (h : 2 ^ w ≤ 256 ^ n) :
    BitVec.ofNat w (natAt (beBytes n v.toNat ++ rest) 0 n) = v := by
  rw [natAt_zero, Nat.mod_eq_of_lt (v.isLt.trans_le h), BitVec.ofNat_toNat, BitVec.setWidth_eq]

/-- A word field that ends the message reads back. -/
theorem ofNat_natAt_last {w n : Nat} (v : BitVec w) (h : 2 ^ w ≤ 256 ^ n) :
    BitVec.ofNat w (natAt (beBytes n v.toNat) 0 n) = v := by
  simpa using ofNat_natAt_beBytes v [] h

/-- The arguments of Install Component read back from their bytes (R62). -/
theorem readInstall_installBytes (a : InstallArgs) : readInstall (installBytes a) = a := by
  simp only [readInstall, installBytes, queryArgsBytes, serialAt, List.append_assoc, List.cons_append, List.nil_append,
    byteAt_zero, byteAt_succ, natAt_cons, byteAt_beBytes_append, natAt_beBytes_append, ofNat_natAt_beBytes,
    ofNat_natAt_last, Nat.reducePow, Nat.reduceLeDiff, Nat.reduceSub]

/-- The arguments of Probe read back from their bytes (R72). -/
theorem readProbe_probeBytes (a : ProbeArgs) : readProbe (probeBytes a) = a := by
  simp only [readProbe, probeBytes, List.append_assoc, List.cons_append, List.nil_append,
    byteAt_zero, byteAt_succ, natAt_cons, byteAt_beBytes_append, natAt_beBytes_append, ofNat_natAt_beBytes,
    ofNat_natAt_last, Nat.reducePow, Nat.reduceLeDiff, Nat.reduceSub]

/-! ## Requests by their messages -/

/-- Only a message whose length fits reaches its request, so two requests that agree there are one. -/
theorem runRequest_congr {src : Source} {msg : List Byte} {run : Channel → Part → Part}
    (h : lengthFits msg = true → ∀ ch p, run ch p = dispatch ch msg p) (s : State) :
    runRequest src msg run s = runRequest src msg (fun ch => dispatch ch msg) s := by
  unfold runRequest presentMessage
  by_cases fits : lengthFits msg = true
  · simp only [fits, if_true, funext fun p => h fits (sourceChannel src) p]
  · simp only [fits, Bool.false_eq_true, if_false]

/-- A request command is its message, dispatched by code and layout (R191). -/
theorem exec_eq_dispatch {i : Instr} {src : Source} {msg : List Byte} (h : requestOf i = some (src, msg)) (s : State) :
    exec i s = runRequest src msg (fun ch => dispatch ch msg) s := by
  cases i <;> cases h
  case unknownRequest => rfl
  all_goals
    refine runRequest_congr (fun fits ch p => ?_) s
    rw [dispatch, if_neg (by rw [fits]; decide)]
  case installComponent args => exact congrArg (requestInstall ch · p) (readInstall_installBytes args).symm
  case probe args => exact congrArg (requestProbe ch · p) (readProbe_probeBytes args).symm
  case setClock value => exact congrArg (requestSetClock ch · p) (ofNat_natAt_last value (by decide)).symm
  case openHire contract => exact congrArg (requestOpenHire ch · p) (ofNat_natAt_last contract (by decide)).symm
  case lockCapture number => exact congrArg (requestLock ch 0x31 · true p) (ofNat_natAt_last number (by decide)).symm
  case unlockCapture number => exact congrArg (requestLock ch 0x32 · false p) (ofNat_natAt_last number (by decide)).symm
  case releaseCapture number => exact congrArg (requestRelease ch · p) (ofNat_natAt_last number (by decide)).symm
  case setConditionMask mask => exact congrArg (requestMask ch · p) (ofNat_natAt_last mask (by decide)).symm
  case captureNow pre post =>
    refine Eq.trans ?_ (show requestCaptureNow ch (BitVec.ofNat 16 (natAt (beBytes 2 pre.toNat ++ beBytes 2 post.toNat) 0 2))
      (BitVec.ofNat 16 (natAt (beBytes 2 pre.toNat ++ beBytes 2 post.toNat) 2 2)) p = _ from rfl)
    simp only [natAt_beBytes_append, ofNat_natAt_beBytes, ofNat_natAt_last, Nat.reducePow, Nat.reduceLeDiff, Nat.reduceSub]
  case confirmChange slot events time wear =>
    let fields := beBytes 4 events.toNat ++ beBytes 4 time.toNat ++ beBytes 4 wear.toNat
    refine Eq.trans ?_ (show requestConfirm ch slot (BitVec.ofNat 32 (natAt fields 0 4))
      (BitVec.ofNat 32 (natAt fields 4 4)) (BitVec.ofNat 32 (natAt fields 8 4)) p = _ from rfl)
    simp only [fields, List.append_assoc, natAt_beBytes_append, ofNat_natAt_beBytes, ofNat_natAt_last, Nat.reducePow,
      Nat.reduceLeDiff, Nat.reduceSub]
  case readRecords area number frameIndex count =>
    let fields := beBytes 4 number.toNat ++ beBytes 2 frameIndex.toNat ++ beBytes 2 count.toNat
    refine Eq.trans ?_ (show requestRecords ch area (BitVec.ofNat 32 (natAt fields 0 4))
      (BitVec.ofNat 16 (natAt fields 4 2)) (BitVec.ofNat 16 (natAt fields 6 2)) p = _ from rfl)
    simp only [fields, List.append_assoc, natAt_beBytes_append, ofNat_natAt_beBytes, ofNat_natAt_last, Nat.reducePow,
      Nat.reduceLeDiff, Nat.reduceSub]
  case scanArchive start count field sense value =>
    let fields := beBytes 4 start.toNat ++ beBytes 2 count.toNat ++ [field, sense] ++ beBytes 4 value.toNat
    refine Eq.trans ?_ (show requestScan ch (BitVec.ofNat 32 (natAt fields 0 4)) (BitVec.ofNat 16 (natAt fields 4 2))
      (byteAt fields 6) (byteAt fields 7) (BitVec.ofNat 32 (natAt fields 8 4)) p = _ from rfl)
    simp only [fields, List.append_assoc, List.cons_append, List.nil_append, byteAt_zero, byteAt_succ, natAt_cons,
      byteAt_beBytes_append, natAt_beBytes_append, ofNat_natAt_beBytes, ofNat_natAt_last, Nat.reducePow,
      Nat.reduceLeDiff, Nat.reduceSub]
  all_goals rfl

end Sys2Proof.Machine
end

section
/-! Every step keeps port A's frames the part's own (R5, R130). -/

namespace Sys2Proof.Machine

/-! ## Messages and frames -/

theorem busyAnswer_framesA (ch : Channel) (port : PortId) (code : Byte) (p : Part) :
    (busyAnswer ch port code p).framesA = p.framesA := by
  unfold busyAnswer
  split
  · rfl
  · exact mapChan_framesA _ _ p

theorem takeWhole_own (ch : Channel) (port : PortId) (code : Byte) {run : Part → Part} {p : Part} (hp : p.portAOwn)
    (hrun : ∀ q : Part, q.portAOwn → (run q).portAOwn) : (takeWhole ch port code run p).portAOwn := by
  unfold takeWhole
  split
  · exact hrun _ (portAOwn_of_framesA (mapChan_framesA _ _ p) hp)
  · exact hrun _ (portAOwn_of_framesA (mapChan_framesA _ _ p) hp)
  all_goals exact portAOwn_of_framesA (busyAnswer_framesA _ _ _ p) hp

theorem takeNext_own (ch : Channel) (bytes : List Byte) {p : Part} (hp : p.portAOwn) :
    (takeNext ch bytes p).portAOwn := by
  unfold takeNext
  dsimp only
  split
  · exact dispatch_own ch _ (portAOwn_of_framesA (setChan_framesA _ _ p) hp)
  · exact portAOwn_of_framesA (setChan_framesA _ _ p) hp

theorem nextReceived_own (ch : Channel) (port : PortId) (sequence : Nat) (bytes : List Byte) {p : Part}
    (hp : p.portAOwn) : (nextReceived ch port sequence bytes p).portAOwn := by
  have counted := fun f => portAOwn_of_framesA (mapChan_framesA ch f p) hp
  unfold nextReceived
  dsimp only
  split_ifs
  · exact counted _
  · exact counted _
  · exact takeNext_own ch bytes hp
  · exact counted _

theorem takeSegment_own (ch : Channel) (port : PortId) (seg : Segment) {p : Part} (hp : p.portAOwn) :
    (takeSegment ch port seg p).portAOwn := by
  have changed := fun f => portAOwn_of_framesA (mapChan_framesA ch f p) hp
  unfold takeSegment
  split
  · exact takeWhole_own ch port _ hp fun q => dispatch_own ch _
  · exact changed _
  · exact changed _
  · exact portAOwn_of_framesA (busyAnswer_framesA _ _ _ p) hp
  · exact portAOwn_of_framesA (busyAnswer_framesA _ _ _ p) hp
  · exact nextReceived_own ch port _ _ hp
  · exact hp
  · exact changed _
  · exact changed _

theorem routeFrame_own (port : PortId) (f : Frame) {p : Part} (hp : p.portAOwn) : (routeFrame port f p).portAOwn := by
  unfold routeFrame
  split
  · unfold routeManagement
    split_ifs
    · exact takeSegment_own _ _ _ hp
    · exact takeSegment_own _ _ _ hp
    · exact hp
  · exact portAOwn_of_framesA (matchFrame_framesA port f p) hp

/-- Whatever frame comes in on whatever port, port A's frames stay the part's own (R5). -/
theorem receiveFrame_own (port : PortId) (f : Frame) {p : Part} (hp : p.portAOwn) :
    (receiveFrame port f p).portAOwn := by
  have counted : (countReceived port p).portAOwn := setPort_own hp (.inl rfl)
  unfold receiveFrame
  split
  · exact hp
  · dsimp only
    split_ifs
    · exact counted
    · exact routeFrame_own _ f (portAOwn_of_framesA (watchReply_framesA f _) (wakeCause_own counted))
    · exact routeFrame_own port f (wakeCause_own counted)
    · exact counted
    · exact routeFrame_own port f counted

theorem presentMessage_own (src : Source) (msg : List Byte) {p : Part} (hp : p.portAOwn) :
    (presentMessage src msg (fun ch => dispatch ch msg) p).portAOwn := by
  have sampled : (sampleSource src p).portAOwn := by cases src <;> exact hp
  unfold presentMessage
  dsimp only
  split_ifs
  · exact sampled
  · exact sampled
  · exact takeWhole_own _ _ _ (wakeCause_own sampled) fun q => dispatch_own _ _
  · exact takeWhole_own _ _ _ (wakeCause_own sampled) fun q => portAOwn_of_framesA (respond_framesA _ _ q)

/-! ## Commands -/

theorem runAwake_own {f : Part → Part} {s t : State} (hf : ∀ p : Part, p.portAOwn → (f p).portAOwn)
    (hs : s.part.portAOwn) (h : runAwake f s = .next t) : t.part.portAOwn := by
  cases h
  refine after_own s ?_
  unfold whenAwake
  split
  · exact hf _ hs
  · exact hs

/-- A timer's expiry on a running part: its effect while the timer runs. -/
theorem runTimer_own {f : Part → Part} {running : Part → Bool} {s t : State}
    (hf : ∀ p : Part, p.portAOwn → (f p).portAOwn) (hs : s.part.portAOwn)
    (h : runAwake (fun p => if running p then f p else p) s = .next t) : t.part.portAOwn := by
  refine runAwake_own (fun p hp => ?_) hs h
  split
  · exact hf p hp
  · exact hp

theorem failAttempt_own (x : Transaction) {s : State} (hs : s.part.portAOwn) : (failAttempt x s).part.portAOwn := by
  unfold failAttempt
  dsimp only
  split
  · exact hs
  · exact settle_own _ (writeFailed_own _ hs)

theorem failRead_own (x : Transaction) {s : State} (hs : s.part.portAOwn) : (failRead x s).part.portAOwn := by
  unfold failRead
  dsimp only
  split
  · exact hs
  · exact settle_own _ (portAOwn_of_framesA (readSilent_framesA _ _ _) hs)

theorem assertPfw_framesA (p : Part) : (assertPfw p).framesA = p.framesA := by
  unfold assertPfw
  split <;> rfl

theorem execPfwAsserted_own {s t : State} (hs : s.part.portAOwn) (h : execPfwAsserted s = .next t) :
    t.part.portAOwn := by
  unfold execPfwAsserted at h
  dsimp only at h
  split_ifs at h <;> cases h
  · exact hs
  · exact settle_own _ (portAOwn_of_framesA (assertPfw_framesA _) hs)
  · exact settle_own _ (portAOwn_of_framesA (assertPfw_framesA _) hs)

theorem execPageWriteComplete_own {equal : Bool} {s t : State} (hs : s.part.portAOwn)
    (h : execPageWriteComplete equal s = .next t) : t.part.portAOwn := by
  unfold execPageWriteComplete at h
  split at h
  · cases h; exact hs
  · split at h
    · cases h; exact hs
    · split_ifs at h <;> cases h
      · exact settle_own _ (writeVerified_own _ hs)
      · exact failAttempt_own _ hs

theorem execPageReadComplete_own {s t : State} (hs : s.part.portAOwn) (h : execPageReadComplete s = .next t) :
    t.part.portAOwn := by
  unfold execPageReadComplete at h
  split at h
  · cases h; exact hs
  · split_ifs at h <;> cases h
    · exact hs
    · exact settle_own _ (portAOwn_of_framesA (readTook_framesA _ _ _) hs)

theorem execStorageAnswerTimeout_own {s t : State} (hs : s.part.portAOwn)
    (h : execStorageAnswerTimeout s = .next t) : t.part.portAOwn := by
  unfold execStorageAnswerTimeout at h
  split at h
  · cases h; exact hs
  · split at h <;> cases h
    · exact failAttempt_own _ hs
    · exact failRead_own _ hs

theorem expireInterval_still (p : Part) : (expireInterval p).still = p.still := by
  unfold expireInterval
  dsimp only
  split
  · exact (judgeInterval_still _).trans (creditAll_still _)
  · rfl

theorem expireEvaluation_still (p : Part) : (expireEvaluation p).still = p.still := by
  unfold expireEvaluation
  dsimp only
  split
  · exact evaluateClutch_still _
  · rfl

theorem captFall_still (p : Part) : (captFall p).still = p.still := by
  unfold captFall
  dsimp only
  split
  · exact takeTrigger_still _ p
  · rfl

theorem expireGap_framesA (ch : Channel) (p : Part) : (expireGap ch p).framesA = p.framesA := by
  unfold expireGap
  split
  · exact mapChan_framesA _ _ p
  · rfl

/-- Every command keeps port A's frames the part's own (R5, R130). -/
theorem exec_own {i : Instr} {s t : State} (hs : s.part.portAOwn) (h : exec i s = .next t) : t.part.portAOwn := by
  have request : ∀ {src msg}, requestOf i = some (src, msg) → t.part.portAOwn := by
    intro src msg hr
    rw [exec_eq_dispatch hr] at h
    cases h
    exact after_own s (presentMessage_own src msg hs)
  have updated : ∀ {f : Part → Part}, (∀ p : Part, p.Updated (f p)) → ∀ p : Part, p.portAOwn → (f p).portAOwn :=
    fun hf p => portAOwn_of_framesA (framesA_of_updated (hf p))
  have still : ∀ {f : Part → Part}, (∀ p, (f p).still = p.still) → ∀ p : Part, p.portAOwn → (f p).portAOwn :=
    fun hf => updated fun p => .of_still (hf p)
  cases i
  case dataFrameReceived port frame svc =>
    simp only [exec, execDataFrameReceived] at h
    split_ifs at h
    cases h
    exact after_own s (receiveFrame_own port frame hs)
  case damagedFrameReceived port =>
    simp only [exec, execDamagedFrameReceived] at h
    split_ifs at h <;> cases h
    · exact setPort_own hs (.inl rfl)
    · exact hs
  case remoteRequestFrame port =>
    simp only [exec, execRemoteRequestFrame] at h
    split_ifs at h <;> cases h
    · exact setPort_own hs (.inl rfl)
    · exact hs
  case transmissionFailed port =>
    simp only [exec, execTransmissionFailed] at h
    split_ifs at h <;> cases h
    · refine setPort_own hs (.inl ?_)
      unfold Port.failed
      split <;> rfl
    · exact hs
  case transmissionSucceeded port => exact runAwake_own (fun p => transmitted_own port) hs h
  case busOffRecoveryExpiry port =>
    exact runTimer_own (running := fun p => (p.port port).recovery.isSome)
      (f := fun p => p.setPort port { p.port port with state := .running, recovery := none })
      (fun p hp => setPort_own hp (.inl rfl)) hs h
  case freshnessDeadlineExpiry signal =>
    exact runAwake_own (fun p => portAOwn_of_framesA (expireSignal_framesA _ p)) hs h
  case windowAExpiry => exact runTimer_own (running := fun p => p.detector.windowA.isSome) (updated expireWindowA_updated) hs h
  case windowBExpiry => exact runTimer_own (running := fun p => p.detector.windowB.isSome) (updated expireWindowB_updated) hs h
  case intervalExpiry => exact runTimer_own (running := fun p => p.wear.timer.isSome) (still expireInterval_still) hs h
  case evaluationExpiry =>
    exact runTimer_own (running := fun p => p.clutch.timer.isSome) (still expireEvaluation_still) hs h
  case ignLineChange level =>
    cases h
    unfold changeIgn
    dsimp only
    split <;> exact hs
  case ignDebounceExpiry => cases h; exact after_own s (settleIgn_own hs)
  case quietPeriodExpiry =>
    exact runTimer_own (running := fun p => p.modeCtl.quiet.isSome) (f := expireQuiet) (fun p hp => hp) hs h
  case deviceClockTick =>
    simp only [exec, execDeviceClockTick] at h
    split_ifs at h <;> cases h <;> exact hs
  case captLineFall => exact runAwake_own (still captFall_still) hs h
  case captDriveTimerExpiry => cases h; exact hs
  case postTimeoutExpiry =>
    exact runTimer_own (running := fun p => p.capture.postTimeout.isSome) (f := expirePost)
      (still fun p => copierRun_still _) hs h
  case ageDeadlineExpiry =>
    exact runTimer_own (running := fun p => p.ring.age.isSome) (f := expireAge) (fun p hp => hp) hs h
  case replyTimeout => exact runAwake_own (fun p => expireReply_own) hs h
  case gapTimerExpiry ch => exact runAwake_own (fun p => portAOwn_of_framesA (expireGap_framesA ch p)) hs h
  case responseTimeout place => exact runAwake_own (fun p => expireResponse_own place) hs h
  case statusTimerExpiry =>
    exact runTimer_own (running := fun p => p.link.statusTimer.isSome) (f := expireStatus) (fun p hp => hp) hs h
  case scanTimerExpiry ch => exact runAwake_own (fun p => portAOwn_of_framesA (expireScan_framesA ch p)) hs h
  case pageWriteComplete equal => exact execPageWriteComplete_own hs h
  case pageReadComplete => exact execPageReadComplete_own hs h
  case storageAnswerTimeout => exact execStorageAnswerTimeout_own hs h
  case pfwAsserted => exact execPfwAsserted_own hs h
  case pfwWithdrawn => cases h; exact after_own s hs
  case supplyLoss =>
    simp only [exec, execSupplyLoss] at h
    split_ifs at h <;> cases h
    · exact fun _ hf => absurd hf List.not_mem_nil
    · exact hs
  case supplyOn =>
    simp only [exec, execSupplyOn] at h
    split_ifs at h <;> cases h
    · exact hs
    · exact beginRestore_own _
  all_goals exact request rfl

theorem tick_own {p : Part} (hp : p.portAOwn) : p.tick.portAOwn := by
  have ticked : p.tick.framesA = p.framesA.map TxFrame.tick := by
    simp [Part.framesA, Part.tick, Port.tick, Ring.tick, ← Option.toList_map]
  intro f hf
  rw [← Part.framesA, ticked] at hf
  obtain ⟨x, hx, rfl⟩ := List.mem_map.mp hf
  exact hp x hx

/-- Settles O5: no command and no passing of time brings a frame to port A that is not the part's own. -/
theorem stepKeepsPortAOwn : Obligations.StepKeepsPortAOwn := by
  intro s t hs h
  unfold step at h
  split at h
  · rename_i rest _
    exact exec_own (s := { s with pending := rest }) hs h
  · split at h
    · exact exec_own hs h
    · cases h
      unfold State.tick
      split
      · exact tick_own hs
      · exact hs

end Sys2Proof.Machine
end

section
/-! The step on an empty queue, the commands that stop, the value of a sample, and the supply with the restore's first
pages. -/

namespace Sys2Proof.Machine

/-- Settles O2: the step on an empty queue is what `idleCommand` names, else a millisecond. -/
theorem idleStepPassesTime : Obligations.IdleStepPassesTime := by
  intro s hq
  refine ⟨fun hp => ?_, fun hp hd => ?_, fun c rest hp hd => ?_⟩
  · simp [step, hq, idleCommand, State.tick, hp]
  · simp [step, hq, idleCommand, State.tick, hp, hd]
  · simp [step, hq, idleCommand, hp, hd]

/-- Settles O60: the operand is checked before anything else, and so is the page of a transaction. -/
theorem commandsThatStop : Obligations.CommandsThatStop := by
  refine ⟨fun port f svc s h => ?_, fun s t hbus hpage => ⟨fun hw equal => ?_, fun hw => ?_⟩⟩
  · have bad : frameOk f = false := by
      rcases h with h | ⟨hf, h⟩
      · simp [frameOk, Nat.not_le.mpr h]
      · simp [frameOk, hf, identLimit, Nat.not_le.mpr h]
    simp [exec, execDataFrameReceived, bad]
  · obtain ⟨bytes, hb⟩ := Option.isSome_iff_exists.mp hw
    simp [exec, execPageWriteComplete, hbus, hb, hpage]
  · simp [exec, execPageReadComplete, hbus, hw, hpage]

/-! ## The value of a sample (R10) -/

/-- The scaled value less the offset is the floor of the exact quotient. -/
theorem scale_floor (e : SignalEntry) (raw : Int) :
    (scale e raw - e.offset) * 2 ^ e.shift ≤ raw * e.multiplier ∧
      raw * e.multiplier < (scale e raw - e.offset + 1) * 2 ^ e.shift := by
  have pos : (0 : Int) < 2 ^ e.shift := by positivity
  have quotient : scale e raw - e.offset = raw * e.multiplier / 2 ^ e.shift := by
    rw [scale, Int.fdiv_eq_ediv_of_nonneg _ (by positivity), add_sub_cancel_right]
    push_cast
    rfl
  rw [quotient]
  exact ⟨Int.ediv_mul_le _ pos.ne', Int.lt_ediv_add_one_mul_self _ pos⟩

/-- Settles O17: the floor, and the two ends of `judgeSample` that reach the limits. -/
theorem valueIsExactFloor : Obligations.ValueIsExactFloor := by
  intro e raw data
  dsimp only
  refine ⟨(scale_floor e raw).1, (scale_floor e raw).2, ?_, ?_⟩
  · unfold judgeSample
    dsimp only
    split_ifs with short na err range
    · exact nofun
    · exact nofun
    · exact nofun
    · exact nofun
    · exact fun _ => ⟨rfl, by omega, by omega⟩
  · unfold judgeSample
    dsimp only
    split_ifs with short na err range
    · exact nofun
    · exact nofun
    · exact nofun
    · exact fun _ => range
    · exact nofun

/-! ## The supply and the restore (R1, R39, R162, R163, R172) -/

/-- A part with no supply or in its restore settles nothing. -/
theorem settle_of_not_live (m : Medium) {p : Part} (h : p.live = false) : settle m p = p := by
  simp [settle, h]

/-- The restart begins with the block at its supply-on values (R39, R163). -/
theorem beginRestore_eq (p : Part) :
    beginRestore p =
      { lines := p.lines
        restore := some { item := .image 0 }
        modeCtl := { debounce := if p.lines.ign then some 100 else none }
        storage := { bus := some { owner := .restore, page := 0, write := none, attempt := 1, timer := 20 } } } := rfl

theorem live_of_restoring {p : Part} {r : Restore} (h : p.restore = some r) : p.live = false := by
  simp [Part.live, h]

/-- An event during a restore that leaves the restore as it is leaves the medium alone and settles nothing. -/
theorem after_of_restoring {s : State} {p : Part} {r : Restore} (hs : s.part.restore = some r)
    (hp : p.restore = some r) : s.after p = { s with part := p } := by
  simp [State.after, hs, settle_of_not_live _ (live_of_restoring hp)]

/-- The departure of RESTART's DONE begins the restart; a page write in progress is abandoned (R39, R178). -/
theorem exec_transmissionSucceeded_restart {s : State} {port : PortId} {f : TxFrame} (ha : s.part.awake = true)
    (hr : (s.part.port port).state = .running) (hf : (s.part.port port).tx = some f)
    (hs : f.source = .response .service) (ho : (s.part.chan .service).outbox = [])
    (hd : (s.part.chan .service).restartAfter = true) :
    exec (.transmissionSucceeded port) s =
      .next { s with medium := abandonWrite s.part.storage.bus s.medium, part := beginRestore s.part } := by
  obtain ⟨-, -, -, hn⟩ := awake_parts ha
  have left : transmitted port s.part = beginRestore s.part := by
    simp only [transmitted, hf, hr, if_true, frameLeft, hs, Part.setPort_chan, ho, endResponse, hd, beginRestore_eq,
      Part.setChan_lines, Part.setPort_lines]
  have restoring : (beginRestore s.part).restore.isSome = true := rfl
  simp only [exec, execTransmissionSucceeded, runAwake, whenAwake_eq _ ha, left, State.after, restoring, hn,
    Option.isNone_none, Bool.and_self, if_true]
  rw [settle_of_not_live _ rfl]

/-- A frame received during a restore is counted and discarded (R1). -/
theorem exec_dataFrameReceived_restoring {s : State} {r : Restore} {port : PortId} {f : Frame} (svc : Bool)
    (hw : s.part.powered = true) (hr : s.part.restore = some r) (hf : frameOk f = true)
    (hb : (s.part.port port).state ≠ .busOff) :
    exec (.dataFrameReceived port f svc) s =
      .next { s with
        part := (s.part.setPort port
          { s.part.port port with received := min 4294967295 ((s.part.port port).received + 1) }).setLines
            { s.part.lines with svc := svc } } := by
  have counted : receiveFrame port f (sampleSvc svc s.part) =
      (s.part.setPort port
        { s.part.port port with received := min 4294967295 ((s.part.port port).received + 1) }).setLines
          { s.part.lines with svc := svc } := by
    have receives : (sampleSvc svc s.part).receives port = true := by
      cases port <;> simpa [Part.receives, sampleSvc, hw, Part.port] using hb
    have restoring : (countReceived port (sampleSvc svc s.part)).restore.isSome = true := by
      cases port <;> simp [countReceived, sampleSvc, hr]
    unfold receiveFrame
    simp only [receives, Bool.true_eq_false, if_false, restoring, if_true]
    cases port <;> rfl
  simp only [exec, execDataFrameReceived, hf, if_true, counted]
  rw [after_of_restoring hr (by cases port <;> exact hr)]

/-- An answered page of the table image, not its last, is followed by the next (R163). -/
theorem exec_pageReadComplete_image {s : State} {r : Restore} {t : Transaction} {page : Nat}
    (hr : s.part.restore = some r) (hi : r.item = .image page) (hb : s.part.storage.bus = some t)
    (ho : t.owner = .restore) (hw : t.write = none) (hp : t.page < pageCount) (hl : page + 1 < 32) :
    exec .pageReadComplete s =
      .next { s with
        part := { s.part with
          restore := some { r with item := .image (page + 1) }
          storage := { s.part.storage with
            bus := some { owner := .restore, page := page + 1, write := none, attempt := 1, timer := 20 } } } } := by
  have took : ∀ st : Storage, readTook s.medium t (s.part.setStorage st) =
      continueRestore { r with item := .image (page + 1) } (s.part.setStorage st) := by
    intro st
    simp [readTook, ho, restoreTook, hr, hi, hl]
  simp only [exec, execPageReadComplete, hb, hw, Option.isSome_none, Bool.false_eq_true, if_false,
    Nat.not_le.mpr hp, State.stored, took]
  rw [settle_of_not_live]
  · rfl
  · exact live_of_restoring (r := { r with item := .image (page + 1) }) rfl

/-- A request message on the Fleet channel has no effect during a restore (R172). -/
theorem exec_request_restoring {s : State} {r : Restore} {i : Instr} {msg : List Byte}
    (hr : s.part.restore = some r) (hi : requestOf i = some (.fleet, msg)) : exec i s = .next s := by
  rw [exec_eq_dispatch hi, runRequest]
  have ignored : presentMessage .fleet msg (fun ch => dispatch ch msg) s.part = s.part := by
    simp [presentMessage, sampleSource, live_of_restoring hr]
  rw [ignored, after_of_restoring hr hr]

/-- Settles O57: each clause is the meaning of its command on a part without supply, in its restore, or restarting. -/
theorem supplyRestartAndRestore : Obligations.SupplyRestartAndRestore := by
  refine ⟨fun s => ⟨fun h => ?_, fun h => ?_, fun h => ?_, fun h => ?_, ?_⟩, ?_⟩
  · simp [exec, execSupplyLoss, h, Part.unpowered]
  · simp [exec, execSupplyLoss, h]
  · simp [exec, execSupplyOn, h]
  · simp [exec, execSupplyOn, h, beginRestore_eq]
  · intro port f ha hr hf hs ho hd
    rw [exec_transmissionSucceeded_restart ha hr hf hs ho hd, beginRestore_eq]
  · intro s r t page hw hr hi hb ho hwr hp
    exact ⟨exec_pageReadComplete_image hr hi hb ho hwr hp,
      fun port f svc hf hn => exec_dataFrameReceived_restoring svc hw hr hf hn,
      fun i msg h => exec_request_restoring hr h⟩

end Sys2Proof.Machine
end

section
/-! Transmissions and frames that go no further: the error level, a response's departure, and frames that are counted and
discarded (R1, R2, R6, R125, R172, R178). -/

namespace Sys2Proof.Machine

/-! ## What the settling keeps -/

/-- A command of the running, AWAKE part leaves what its effect leaves, settled. -/
theorem leaves_of_runAwake {i : Instr} {f : Part → Part} {s : State} {p : Part} {also : Part → Prop}
    (hi : exec i s = runAwake f s) (ha : s.part.awake = true) (hr : (f s.part).restore = none)
    (hl : (f s.part).lasting = p.lasting) (h : also (settle s.medium (f s.part))) : Leaves i s p also :=
  ⟨_, hi.trans (runAwake_eq f ha hr), (lasting_settle _ _).trans hl, h, rfl, rfl⟩

theorem refreshReaders_keeps {β : Type} (g : Part → β) (hst : ∀ st p, g (p.setStorage st) = g p)
    (hre : ∀ ch msg p, g (respond ch msg p) = g p) (p : Part) : g (refreshReaders p) = g p := by
  refine foldl_keeps g (fun q r => ?_) _ p
  unfold refreshReader Part.setReaders
  split
  · rfl
  · split
    · exact hst _ _
    · rw [hre, hst]

/-- What neither the storage controller's registers nor a response touches, a grant keeps. -/
theorem grant_keeps {β : Type} (g : Part → β) (hst : ∀ st p, g (p.setStorage st) = g p)
    (hre : ∀ ch msg p, g (respond ch msg p) = g p) (m : Medium) (p : Part) : g (grant m p) = g p := by
  have begins : ∀ o page w q, g (beginTransaction o page w q) = g q := fun o page w q => hst _ _
  have reader : ∀ q, g (grantReader q) = g q := by
    intro q
    unfold grantReader
    split
    · exact begins _ _ _ _
    · rfl
  unfold grant
  split_ifs
  · rfl
  · exact (begins _ _ _ _).trans (hst _ _)
  · rw [reader, refreshReaders_keeps g hst hre]
  · unfold grantFull
    dsimp only
    rw [begins]
    split
    · exact hst _ _
    · rfl
  · exact begins _ _ _ _
  · split
    · unfold grantArchive
      dsimp only
      split
      · exact (begins _ _ _ _).trans (hst _ _)
      · exact hst _ _
    · exact begins _ _ _ _
    · rw [reader, refreshReaders_keeps g hst hre]

theorem grant_portA (m : Medium) (p : Part) : (grant m p).portA = p.portA :=
  grant_keeps Part.portA (fun _ _ => rfl) (fun _ _ _ => by simp) m p

theorem grant_portB (m : Medium) (p : Part) : (grant m p).portB = p.portB :=
  grant_keeps Part.portB (fun _ _ => rfl) (fun _ _ _ => by simp) m p

theorem grant_register (m : Medium) (p : Part) : (grant m p).register = p.register :=
  grant_keeps Part.register (fun _ _ => rfl) (fun _ _ _ => by simp) m p

theorem startAttempt_ports (n : Nat) (p : Part) :
    (startAttempt n p).portA = p.portA ∧ (startAttempt n p).portB = p.portB := by
  unfold startAttempt
  split <;> exact ⟨rfl, rfl⟩

theorem probeNext_ports (p : Part) : (probeNext p).portA = p.portA ∧ (probeNext p).portB = p.portB := by
  unfold probeNext
  dsimp only
  split
  · exact ⟨rfl, rfl⟩
  · exact ⟨rfl, rfl⟩
  · exact startAttempt_ports _ p
  · exact startAttempt_ports _ _
  · exact ⟨rfl, rfl⟩

/-- What neither the ports, the ring nor a channel touches, an offer keeps. -/
theorem offerNext_keeps {β : Type} (g : Part → β) (hch : ∀ ch c p, g (p.setChan ch c) = g p)
    (hri : ∀ (r : Ring) (p : Part), g { p with ring := r } = g p) (ch : Channel) (port : PortId) (p : Part) :
    g (offerNext ch port p) = g p := by
  have offer : ∀ f q, g (offerFrame ch port f q) = g q := by
    intro f q
    cases port <;> cases ch <;> exact hri _ q
  unfold offerNext
  split
  · rfl
  · dsimp only
    split
    · rw [offer, hch]
    · split
      · split
        · rfl
        · rw [offer, hch]
      · rfl

theorem linkOffers_keeps {β : Type} (g : Part → β) (hch : ∀ ch c p, g (p.setChan ch c) = g p)
    (hri : ∀ (r : Ring) (p : Part), g { p with ring := r } = g p) (p : Part) : g (linkOffers p) = g p := by
  simp only [linkOffers, offerNext_keeps g hch hri]

theorem linkOffers_portA (p : Part) : (linkOffers p).portA = p.portA :=
  linkOffers_keeps Part.portA (fun _ _ _ => by simp) (fun _ _ => rfl) p

theorem linkOffers_portB (p : Part) : (linkOffers p).portB = p.portB :=
  linkOffers_keeps Part.portB (fun _ _ _ => by simp) (fun _ _ => rfl) p

theorem linkOffers_register (p : Part) : (linkOffers p).register = p.register :=
  linkOffers_keeps Part.register (fun _ _ _ => by simp) (fun _ _ => rfl) p

theorem fillA_register (p : Part) : (fillA p).register = p.register := by
  unfold fillA
  split
  · split <;> rfl
  · rfl

theorem fillB_register (p : Part) : (fillB p).register = p.register := by
  unfold fillB
  split
  · split <;> rfl
  · rfl

theorem transmitSettle_register (p : Part) : (transmitSettle p).register = p.register := by
  rw [transmitSettle, linkOffers_register, fillB_register, fillA_register, linkOffers_register]

theorem fillA_portB (p : Part) : (fillA p).portB = p.portB := by
  unfold fillA
  split
  · split <;> rfl
  · rfl

theorem fillB_portA (p : Part) : (fillB p).portA = p.portA := by
  unfold fillB
  split
  · split <;> rfl
  · rfl

/-- A transmitter that holds a frame is given no other. -/
theorem fillA_held {p : Part} (h : p.portA.tx.isSome = true) : fillA p = p := by
  have held : ¬(p.portA.state = .running ∧ p.portA.tx.isNone = true) := by
    obtain ⟨f, hf⟩ := Option.isSome_iff_exists.mp h
    simp [hf]
  rw [fillA, if_neg held]

theorem fillB_held {p : Part} (h : p.portB.tx.isSome = true) : fillB p = p := by
  have held : ¬(p.portB.state = .running ∧ p.portB.tx.isNone = true) := by
    obtain ⟨f, hf⟩ := Option.isSome_iff_exists.mp h
    simp [hf]
  rw [fillB, if_neg held]

/-- A frame that stands in a transmitter stays there through the settling. -/
theorem settle_tx (m : Medium) {p : Part} {port : PortId} {f : TxFrame} (h : (p.port port).tx = some f) :
    ((settle m p).port port).tx = some f := by
  unfold settle
  split
  · exact h
  · split
    · cases port
      · exact (congrArg Port.tx (grant_portA m p)).trans h
      · exact (congrArg Port.tx (grant_portB m p)).trans h
    · cases port
      · have offered : (linkOffers (probeNext (grant m p))).portA = p.portA := by
          rw [linkOffers_portA, (probeNext_ports _).1, grant_portA]
        have held : (linkOffers (probeNext (grant m p))).portA.tx.isSome = true := by
          rw [offered]; exact Option.isSome_iff_exists.mpr ⟨f, h⟩
        show (transmitSettle (probeNext (grant m p))).portA.tx = some f
        rw [transmitSettle, linkOffers_portA, fillB_portA, fillA_held held, offered]
        exact h
      · have offered : (fillA (linkOffers (probeNext (grant m p)))).portB = p.portB := by
          rw [fillA_portB, linkOffers_portB, (probeNext_ports _).2, grant_portB]
        have held : (fillA (linkOffers (probeNext (grant m p)))).portB.tx.isSome = true := by
          rw [offered]; exact Option.isSome_iff_exists.mpr ⟨f, h⟩
        show (transmitSettle (probeNext (grant m p))).portB.tx = some f
        rw [transmitSettle, linkOffers_portB, fillB_held held, offered]
        exact h

/-- What is among what lasts, the settling keeps. -/
theorem settle_keeps {β : Type} (g : Part → β) (hg : ∀ q : Part, g q.lasting = g q) (m : Medium) (p : Part) :
    g (settle m p) = g p := by
  rw [← hg, lasting_settle, hg]

theorem settle_port_state (m : Medium) (p : Part) (port : PortId) :
    ((settle m p).port port).state = (p.port port).state :=
  settle_keeps (fun q => (q.port port).state) (fun q => by cases port <;> rfl) m p

theorem settleQuiet_register (p : Part) : (settleQuiet p).register = p.register := rfl

/-- A query in progress goes on through the settling (R67). -/
theorem settle_query (m : Medium) {p : Part} {q : Query} (h : p.register.query = some q) :
    (settle m p).register.query = some q := by
  have granted : (grant m p).register.query = some q := by rw [grant_register, h]
  have busy : probeNext (grant m p) = grant m p := by simp [probeNext, granted]
  unfold settle
  split
  · exact h
  · split
    · exact granted
    · rw [busy, settleQuiet_register, transmitSettle_register]
      exact granted

/-! ## Transmissions (R2) -/

/-- A successful transmission on a running port: the frame leaves, the level falls by 1. -/
theorem transmitted_eq {p : Part} {port : PortId} {f : TxFrame} (hr : (p.port port).state = .running)
    (hf : (p.port port).tx = some f) :
    transmitted port p =
      frameLeft f (p.setPort port { p.port port with tx := none, errorLevel := (p.port port).errorLevel - 1 }) := by
  simp [transmitted, hf, hr]

/-- A port's transmitter is not among what lasts. -/
theorem lasting_setPort_tx (p : Part) (port : PortId) (q : Port) (tx : Option TxFrame) :
    (p.setPort port { q with tx := tx }).lasting = (p.setPort port q).lasting := by
  cases port <;> rfl

theorem exec_transmissionFailed_eq {s : State} {port : PortId} (ha : s.part.awake = true)
    (hr : (s.part.port port).state = .running) (ht : (s.part.port port).tx.isSome = true) :
    exec (.transmissionFailed port) s = .next { s with part := s.part.setPort port (s.part.port port).failed } := by
  simp [exec, execTransmissionFailed, ha, hr, ht]

theorem failed_eq (q : Port) :
    q.failed =
      if q.errorLevel + 8 ≤ 255 then { q with errorLevel := q.errorLevel + 8 }
      else { q with state := .busOff, errorLevel := 0, busOffs := min 65535 (q.busOffs + 1), recovery := some 200 } := by
  unfold Port.failed
  split_ifs with h1 h2 h2
  · omega
  · rfl
  · rfl
  · omega

/-- Settles O14: the failed transmission, the recovery, and the departure of a frame by its source. -/
theorem errorLevelFollowsTransmissions : Obligations.ErrorLevelFollowsTransmissions := by
  refine ⟨fun port s ha => ⟨fun hr ht => ?_, fun hv => ?_⟩, fun port s f ha hr hf hn => ?_⟩
  · rw [exec_transmissionFailed_eq ha hr ht, failed_eq]
  · have acts : (if (s.part.port port).recovery.isSome then
        s.part.setPort port { s.part.port port with state := .running, recovery := none } else s.part) =
        s.part.setPort port { s.part.port port with state := .running, recovery := none } := by rw [if_pos hv]
    refine leaves_of_runAwake (f := fun p => if (p.port port).recovery.isSome then
      p.setPort port { p.port port with state := .running, recovery := none } else p) rfl ha ?_ ?_ ⟨?_, fun f h => ?_⟩
    · rw [acts, Part.setPort_restore]; exact (awake_parts ha).2.2.2
    · rw [acts]
    · rw [acts, settle_port_state, Part.setPort_port]
    · rw [acts]; exact settle_tx _ (by rw [Part.setPort_port]; exact h)
  · have left := transmitted_eq hr hf
    have restore := (awake_parts ha).2.2.2
    refine leaves_of_runAwake (f := transmitted port) rfl ha ?_ ?_ ?_
    · rw [left]
      unfold frameLeft
      split <;> simp_all
    · rw [left]
      cases hs : f.source with
      | response ch => exact absurd hs (hn ch)
      | forward => cases port <;> simp [frameLeft, hs, Part.lasting, Ring.lasting, Part.setPort, addSat, max32]
      | probe => cases port <;> simp [frameLeft, hs, Part.lasting, Part.setPort]
      | _ => cases port <;> simp [frameLeft, hs, Part.lasting, Part.setPort]
    · intro hs query hq
      refine settle_query _ ?_
      rw [left]
      simp [frameLeft, hs, hq]

/-- The places of frames with one transmitter emptied: the frame that stood there is gone. -/
theorem placedFrames_setPort_none {p : Part} {port : PortId} {f : TxFrame} {q : Port} (hf : (p.port port).tx = some f)
    (hq : q.tx = none) : p.placedFrames.Perm (f :: (p.setPort port q).placedFrames) := by
  cases port
  · have hf : p.portA.tx = some f := hf
    simp [Part.placedFrames, Part.setPort, hf, hq]
  · have hf : p.portB.tx = some f := hf
    simp only [Part.placedFrames, Part.setPort, hf, hq, Option.toList_some, Option.toList_none, List.append_nil,
      List.append_assoc, List.cons_append, List.nil_append]
    exact List.perm_middle

/-- Settles O15: the departed frame was the channel's only one placed, so what is left of the response is what is to come. -/
theorem responseFrameLeaves : Obligations.ResponseFrameLeaves := by
  intro port s f ch ha hr hf hs hplaced hstate hreaders
  have left := transmitted_eq hr hf
  have restore := (awake_parts ha).2.2.2
  generalize hq : ({ s.part.port port with tx := none, errorLevel := (s.part.port port).errorLevel - 1 } : Port) = q
    at left
  have empty : (s.part.setPort port q).placedFor ch = [] := by
    have perm := (placedFrames_setPort_none hf (q := q) (by rw [← hq])).filter (TxFrame.respondsFor ch)
    rw [hplaced, List.filter_cons_of_pos (by simp [TxFrame.respondsFor, hs])] at perm
    simpa [Part.placedFor] using perm.length_eq.symm
  have lasting : (s.part.setPort port q).lasting =
      (s.part.setPort port { s.part.port port with errorLevel := (s.part.port port).errorLevel - 1 }).lasting := by
    rw [← hq]
    exact lasting_setPort_tx _ _ { s.part.port port with errorLevel := (s.part.port port).errorLevel - 1 } none
  refine ⟨fun ho => ?_, fun ho hd => ?_⟩
  · have effect : transmitted port s.part =
        (s.part.setPort port q).setChan ch { s.part.chan ch with offered := false } := by
      rw [left]; simp [frameLeft, hs, ho]
    have goes := settle_same (ch := ch) s.medium (p := transmitted port s.part)
      (.inl ⟨by rw [effect, Part.placedFor, placedFrames_setChan]; exact empty, by rw [effect]; simp⟩)
      (by rw [effect]; simpa using hreaders)
    refine leaves_of_runAwake (f := transmitted port) rfl ha (by rw [effect]; simpa using restore) ?_ ⟨?_, ?_⟩
    · rw [effect, lasting_setChan _ _ _ (by simp [Chan.lasting]), lasting]
    · rw [goes.state, effect, Part.setChan_chan]; exact hstate
    · rw [goes.outgoing, outgoing_eq, effect, Part.placedFor, placedFrames_setChan, ← Part.placedFor, empty]
      simp
  · have effect : transmitted port s.part = (s.part.setPort port q).setChan ch (s.part.chan ch).toIdle := by
      rw [left]; simp [frameLeft, hs, ho, endResponse, hd]
    have goes := settle_same (ch := ch) s.medium (p := transmitted port s.part)
      (.inl ⟨by rw [effect, Part.placedFor, placedFrames_setChan]; exact empty, by rw [effect]; simp [Chan.toIdle]⟩)
      (by rw [effect]; simpa using hreaders)
    refine leaves_of_runAwake (f := transmitted port) rfl ha (by rw [effect]; simpa using restore) ?_ ⟨?_, ?_⟩
    · rw [effect, lasting_setChan _ _ _ (by simp [Chan.lasting, Chan.toIdle]), lasting]
    · rw [goes.state, effect, Part.setChan_chan]; rfl
    · rw [goes.outgoing, outgoing_eq, effect, Part.placedFor, placedFrames_setChan, ← Part.placedFor, empty]
      simp [Chan.toIdle]

end Sys2Proof.Machine
end

section
/-! A data frame on its way to the router (R1, R3, R35, R172): frames that are counted and go no further, and the request
that comes as a SINGLE. -/

namespace Sys2Proof.Machine

/-! ## Frames at an AWAKE part -/

/-- The part as the router finds it when a frame has come in on an AWAKE part: the SVC line sampled, the frame counted, a
wake cause noted (R1, R35). -/
def Part.heard (port : PortId) (f : Frame) (svc : Bool) (p : Part) : Part :=
  if isWakeCause port f then noteWakeCause (countReceived port (sampleSvc svc p)) else countReceived port (sampleSvc svc p)

theorem countReceived_sampleSvc_lasting (port : PortId) (svc : Bool) (p : Part) :
    (countReceived port (sampleSvc svc p)).lasting = (countReceived port p).lasting := by
  cases port <;> rfl

theorem noteWakeCause_lasting (p : Part) : (noteWakeCause p).lasting = p.lasting := rfl

theorem heard_lasting (port : PortId) (f : Frame) (svc : Bool) (p : Part) :
    (p.heard port f svc).lasting = (countReceived port p).lasting := by
  unfold Part.heard
  split <;> exact countReceived_sampleSvc_lasting port svc p

/-- What the SVC line, the port's count and the wake cause do not touch, hearing a frame keeps. -/
theorem heard_keeps {β : Type} (g : Part → β) (hl : ∀ (p : Part) lines, g { p with lines := lines } = g p)
    (hp : ∀ (p : Part) port q, g (p.setPort port q) = g p)
    (hm : ∀ (p : Part) quiet wait,
      g { p with modeCtl := { p.modeCtl with quiet := quiet, sleepWait := wait } } = g p)
    (port : PortId) (f : Frame) (svc : Bool) (p : Part) : g (p.heard port f svc) = g p := by
  have counted : g (countReceived port (sampleSvc svc p)) = g p := (hp _ _ _).trans (hl _ _)
  unfold Part.heard
  split
  · exact (hm _ _ _).trans counted
  · exact counted

theorem heard_register (port : PortId) (f : Frame) (svc : Bool) (p : Part) :
    (p.heard port f svc).register = p.register :=
  heard_keeps Part.register (fun _ _ => rfl) (fun _ _ _ => by simp) (fun _ _ _ => rfl) port f svc p

theorem heard_restore (port : PortId) (f : Frame) (svc : Bool) (p : Part) :
    (p.heard port f svc).restore = p.restore :=
  heard_keeps Part.restore (fun _ _ => rfl) (fun _ _ _ => by simp) (fun _ _ _ => rfl) port f svc p

theorem heard_active (port : PortId) (f : Frame) (svc : Bool) (p : Part) :
    (p.heard port f svc).modeCtl.active = p.modeCtl.active :=
  heard_keeps (fun q => q.modeCtl.active) (fun _ _ => rfl) (fun _ _ _ => by simp) (fun _ _ _ => rfl) port f svc p

theorem heard_passAll (port : PortId) (f : Frame) (svc : Bool) (p : Part) :
    (p.heard port f svc).modeCtl.passAll = p.modeCtl.passAll :=
  heard_keeps (fun q => q.modeCtl.passAll) (fun _ _ => rfl) (fun _ _ _ => by simp) (fun _ _ _ => rfl) port f svc p

/-- A frame on a port of an AWAKE part that is not in BUS_OFF reaches the router, on port A past the Probe Unit. -/
theorem receiveFrame_awake {p : Part} {port : PortId} (f : Frame) (svc : Bool) (ha : p.awake = true)
    (hb : (p.port port).state ≠ .busOff) :
    receiveFrame port f (sampleSvc svc p) =
      routeFrame port f (if port = .a then watchReply f (p.heard port f svc) else p.heard port f svc) := by
  obtain ⟨-, hawake, hpow, hres⟩ := awake_parts ha
  have receives : (sampleSvc svc p).receives port = true := by
    cases port <;> simpa [Part.receives, sampleSvc, hpow, Part.port] using hb
  have running : (countReceived port (sampleSvc svc p)).restore.isSome = false := by
    simp [countReceived, sampleSvc, hres]
  have awake : (countReceived port (sampleSvc svc p)).modeCtl.asleep = false := by
    simp [countReceived, sampleSvc, hawake]
  unfold receiveFrame Part.heard wakeCause
  simp only [receives, running, awake, Bool.true_eq_false, Bool.false_eq_true, if_false]
  cases port
  · simp [isWakeCause]
  · simp only [reduceCtorEq, if_false]
    split <;> rfl

/-- With no query in progress, or on port B, the Probe Unit hears nothing: the frame is routed as it came in. -/
theorem exec_dataFrameReceived_awake {s : State} {port : PortId} {f : Frame} (svc : Bool) (hf : frameOk f = true)
    (ha : s.part.awake = true) (hb : (s.part.port port).state ≠ .busOff)
    (hq : port = .a → s.part.register.query = none) :
    exec (.dataFrameReceived port f svc) s = .next (s.after (routeFrame port f (s.part.heard port f svc))) := by
  have unwatched : (if port = .a then watchReply f (s.part.heard port f svc) else s.part.heard port f svc) =
      s.part.heard port f svc := by
    split
    · rename_i h
      simp [watchReply, heard_register, hq h]
    · rfl
  simp only [exec, execDataFrameReceived, hf, if_true, receiveFrame_awake f svc ha hb, unwatched]

/-- A frame that the router takes without beginning a restart leaves what the router leaves, settled. -/
theorem leaves_of_routeFrame {s : State} {port : PortId} {f : Frame} {svc : Bool} {p : Part} {also : Part → Prop}
    (hf : frameOk f = true) (ha : s.part.awake = true) (hb : (s.part.port port).state ≠ .busOff)
    (hq : port = .a → s.part.register.query = none)
    (hr : (routeFrame port f (s.part.heard port f svc)).restore = s.part.restore)
    (hl : (routeFrame port f (s.part.heard port f svc)).lasting = p.lasting)
    (h : also (settle s.medium (routeFrame port f (s.part.heard port f svc)))) :
    Leaves (.dataFrameReceived port f svc) s p also := by
  refine ⟨_, exec_dataFrameReceived_awake svc hf ha hb hq, ?_, ?_, ?_, ?_⟩
  all_goals rw [after_eq s (hr.trans (awake_parts ha).2.2.2)]
  · exact (lasting_settle _ _).trans hl
  · exact h

/-! ## Frames that go no further -/

theorem lasting_countUnmatched {port : PortId} {p q : Part} (h : p.lasting = q.lasting) :
    (countUnmatched port p).lasting = (countUnmatched port q).lasting := by
  have matcher : p.matcher = q.matcher := (congrArg Part.matcher h : p.lasting.matcher = q.lasting.matcher)
  have rest := congrArg (fun r : Part => { r with matcher := (countUnmatched port p).matcher }) h
  cases port <;> (simp only [countUnmatched, matcher] at rest ⊢; exact rest)

theorem lasting_countForeign {p q : Part} (h : p.lasting = q.lasting) :
    (countForeign p).lasting = (countForeign q).lasting := by
  have foreign : p.link.foreign = q.link.foreign :=
    (congrArg (fun r : Part => r.link.foreign) h : p.lasting.link.foreign = q.lasting.link.foreign)
  have rest := congrArg
    (fun r : Part => { r with link := { r.link with foreign := addSat max16 p.link.foreign 1 } }) h
  simp only [countForeign, foreign] at rest ⊢
  exact rest

/-- A data frame that no entry of the active set matches is counted as unmatched (R6). -/
theorem routeFrame_unmatched {port : PortId} {f : Frame} {p : Part} (hm : isReserved f.format f.ident.toNat = false)
    (hp : p.modeCtl.passAll = false) (hn : p.modeCtl.active.findFrame port f = none) :
    routeFrame port f p = countUnmatched port p := by
  simp [routeFrame, hm, matchFrame, hp, hn]

/-- The part's own response and status identifiers, and the Fleet request identifier on port A, are foreign (R172). -/
theorem routeFrame_foreign {port : PortId} {f : Frame} (p : Part) (hf : f.format = .base)
    (hi : f.ident = 0x6E8 ∨ f.ident = 0x6E9 ∨ f.ident = 0x6F8 ∨ (f.ident = 0x6E0 ∧ port = .a)) :
    routeFrame port f p = countForeign p := by
  rcases hi with h | h | h | ⟨h, rfl⟩ <;>
    simp [routeFrame, isReserved, isManagementIdent, hf, h, routeManagement]

theorem exec_damagedFrameReceived_of_receives {s : State} {port : PortId} (h : s.part.receives port = true) :
    exec (.damagedFrameReceived port) s =
      .next { s with
        part := s.part.setPort port
          { s.part.port port with receiveErrors := min 65535 ((s.part.port port).receiveErrors + 1) } } := by
  simp [exec, execDamagedFrameReceived, h, addSat, max16]

theorem exec_remoteRequestFrame_of_receives {s : State} {port : PortId} (h : s.part.receives port = true) :
    exec (.remoteRequestFrame port) s =
      .next { s with
        part := s.part.setPort port
          { s.part.port port with received := min 4294967295 ((s.part.port port).received + 1) } } := by
  simp [exec, execRemoteRequestFrame, h, countReceived, addSat, max32]

theorem countReceived_port (port : PortId) (p : Part) :
    ((countReceived port p).port port).received = min 4294967295 ((p.port port).received + 1) := by
  rw [countReceived, Part.setPort_port]
  rfl

/-- Settles O12: damaged and remote frames are only counted, and the router only counts an unmatched or foreign frame. -/
theorem framesThatGoNoFurther : Obligations.FramesThatGoNoFurther := by
  refine ⟨fun port s => ⟨fun h => ?_, fun h => ?_⟩, fun port f svc s hf ha hb hq => ⟨fun hm hp hn => ?_, fun hbase hi => ?_⟩⟩
  · exact ⟨exec_damagedFrameReceived_of_receives h, exec_remoteRequestFrame_of_receives h⟩
  · simp [exec, execDamagedFrameReceived, execRemoteRequestFrame, h]
  · have routed := routeFrame_unmatched (p := s.part.heard port f svc) hm (by rw [heard_passAll]; exact hp)
      (by rw [heard_active]; exact hn)
    have lasting : (routeFrame port f (s.part.heard port f svc)).lasting =
        (countUnmatched port (countReceived port s.part)).lasting := by
      rw [routed]; exact lasting_countUnmatched (heard_lasting port f svc s.part)
    have settled := (lasting_settle s.medium (routeFrame port f (s.part.heard port f svc))).trans lasting
    have matcher : (settle s.medium (routeFrame port f (s.part.heard port f svc))).matcher =
        (countUnmatched port (countReceived port s.part)).matcher :=
      (congrArg Part.matcher settled : _)
    refine leaves_of_routeFrame hf ha hb hq ?_ lasting ⟨?_, ?_, ?_⟩
    · rw [routed]
      cases port <;> exact heard_restore _ f svc s.part
    · cases port
      · exact (congrArg (fun r : Part => r.portA.received) settled).trans (countReceived_port .a s.part)
      · exact (congrArg (fun r : Part => r.portB.received) settled).trans (countReceived_port .b s.part)
    · rintro rfl
      rw [matcher]; exact ⟨rfl, rfl⟩
    · rintro rfl
      rw [matcher]; exact ⟨rfl, rfl⟩
  · have routed := routeFrame_foreign (s.part.heard port f svc) hbase hi
    refine leaves_of_routeFrame hf ha hb hq (by rw [routed]; exact heard_restore port f svc s.part) ?_ trivial
    rw [routed]
    refine (lasting_countForeign (heard_lasting port f svc s.part)).trans ?_
    cases port <;> rfl

/-! ## A request in a SINGLE (R173) -/

/-- The identifier on which a channel's requests come in (10.1). -/
def requestIdent : Channel → Ident
  | .fleet => 0x6E0
  | .service => 0x6F0

/-- The frame that carries a message of up to 7 bytes as a SINGLE, with more bytes after it. -/
def singleFrame (ch : Channel) (msg rest : List Byte) : Frame where
  format := .base
  ident := requestIdent ch
  data := BitVec.ofNat 8 msg.length :: (msg ++ rest)

theorem readSegment_single {msg rest : List Byte} (h1 : 1 ≤ msg.length) (h7 : msg.length ≤ 7) :
    readSegment (BitVec.ofNat 8 msg.length :: (msg ++ rest)) = .single msg := by
  have number : (BitVec.ofNat 8 msg.length).toNat = msg.length := by
    rw [BitVec.toNat_ofNat, Nat.mod_eq_of_lt (by omega)]
  have control : msg.length / 16 = 0 := by omega
  have low : msg.length % 16 = msg.length := by omega
  simp [readSegment, number, control, low, h1, h7]

/-- A SINGLE on its channel's identifier is a whole message (R172, R174). -/
theorem routeFrame_single {src : Source} {msg rest : List Byte} (h1 : 1 ≤ msg.length) (h7 : msg.length ≤ 7) (p : Part) :
    routeFrame (sourcePort src) (singleFrame (sourceChannel src) msg rest) p =
      takeWhole (sourceChannel src) (sourcePort src) (byteAt msg 0) (dispatch (sourceChannel src) msg) p := by
  have segment := readSegment_single (rest := rest) h1 h7
  cases src <;>
    simp [routeFrame, isReserved, isManagementIdent, routeManagement, singleFrame, requestIdent, sourceChannel,
      sourcePort, segment, takeSegment]

/-- Dispatch answers MALFORMED where admission would (R176). -/
theorem presented_dispatch (ch : Channel) (msg : List Byte) :
    (if lengthFits msg then dispatch ch msg else refuse ch (byteAt msg 0) stMalformed) = dispatch ch msg := by
  split
  · rfl
  · funext p
    simp_all [dispatch]

theorem isWakeCause_single (src : Source) (msg rest : List Byte) :
    isWakeCause (sourcePort src) (singleFrame (sourceChannel src) msg rest) = true := by
  cases src with
  | fleet => rfl
  | service port svc => cases port <;> rfl

theorem requestOf_nonempty {i : Instr} {src : Source} {msg : List Byte} (h : requestOf i = some (src, msg)) :
    1 ≤ msg.length := by
  cases i <;> cases h <;> simp

theorem wakeCause_register (p : Part) : (wakeCause p).register = p.register := by
  unfold wakeCause
  split <;> rfl

/-- The frame and the message do the same to a part that has counted the frame. -/
theorem receiveFrame_single {src : Source} {msg rest : List Byte} {svc : Bool} {p : Part} (h1 : 1 ≤ msg.length)
    (h7 : msg.length ≤ 7) (hr : p.receives (sourcePort src) = true) (hfleet : src = .fleet → p.lines.svc = svc)
    (hservice : ∀ port level, src = .service port level → level = svc)
    (hq : sourcePort src = .a → p.register.query = none) :
    receiveFrame (sourcePort src) (singleFrame (sourceChannel src) msg rest) (sampleSvc svc p) =
      presentMessage src msg (fun ch => dispatch ch msg) (countReceived (sourcePort src) p) := by
  have sampled : sampleSource src (countReceived (sourcePort src) p) =
      countReceived (sourcePort src) (sampleSvc svc p) := by
    cases src with
    | fleet => rw [← hfleet rfl]; rfl
    | service port level => rw [hservice port level rfl]; cases port <;> rfl
  have receives : (sampleSvc svc p).receives (sourcePort src) = true := by
    rw [← hr]; cases sourcePort src <;> rfl
  have running : ((countReceived (sourcePort src) (sampleSvc svc p)).port (sourcePort src)).state ≠ .busOff := by
    have open_ := hr
    simp only [Part.receives, Bool.and_eq_true, bne_iff_ne] at open_
    cases h : sourcePort src <;> (rw [h] at open_; exact open_.2)
  have powered : (countReceived (sourcePort src) (sampleSvc svc p)).powered = true := by
    have on := hr
    simp only [Part.receives, Bool.and_eq_true] at on
    rw [countReceived, Part.setPort_powered]
    exact on.1
  have unwatched : sourcePort src = .a →
      watchReply (singleFrame (sourceChannel src) msg rest)
          (wakeCause (countReceived (sourcePort src) (sampleSvc svc p))) =
        wakeCause (countReceived (sourcePort src) (sampleSvc svc p)) := by
    intro h
    have none : (wakeCause (countReceived (sourcePort src) (sampleSvc svc p))).register.query = none := by
      rw [wakeCause_register, countReceived, Part.setPort_register]
      exact hq h
    simp [watchReply, none]
  unfold receiveFrame presentMessage
  simp only [sampled, receives, Bool.true_eq_false, if_false, isWakeCause_single, if_true, running, presented_dispatch]
  cases hn : (countReceived (sourcePort src) (sampleSvc svc p)).restore with
  | some r => simp [Part.live, powered, hn]
  | none =>
    have live : (countReceived (sourcePort src) (sampleSvc svc p)).live = true := by simp [Part.live, powered, hn]
    simp only [Option.isSome_none, Bool.false_eq_true, if_false, live, Bool.true_eq_false]
    split
    · rw [unwatched ‹_›, routeFrame_single h1 h7]
    · rw [routeFrame_single h1 h7]

/-- Settles O9: the frame reaches its channel as the message that the request command stands for. -/
theorem singleFrameIsItsRequest : Obligations.SingleFrameIsItsRequest := by
  intro i src msg rest svc s _ hi hlen hr hfleet hservice hq
  have h7 : msg.length ≤ 7 := by
    rw [List.length_append] at hlen
    omega
  have ok : frameOk (singleFrame (sourceChannel src) msg rest) = true := by
    have data : (singleFrame (sourceChannel src) msg rest).data.length ≤ 8 := by
      simp only [singleFrame, List.length_cons]
      omega
    have ident : (singleFrame (sourceChannel src) msg rest).ident.toNat ≤ 0x7FF := by
      cases sourceChannel src <;> simp [singleFrame, requestIdent]
    simp only [frameOk, data, decide_true, Bool.true_and]
    exact decide_eq_true ident
  have single : exec (.dataFrameReceived (sourcePort src) (singleFrame (sourceChannel src) msg rest) svc) s =
      exec i { s with part := countReceived (sourcePort src) s.part } := by
    rw [exec_eq_dispatch hi, runRequest]
    simp only [exec, execDataFrameReceived, ok, if_true]
    rw [receiveFrame_single (requestOf_nonempty hi) h7 hr hfleet hservice hq]
    cases sourcePort src <;> rfl
  cases src <;> exact single

end Sys2Proof.Machine
end

section
/-! The requests that only read (R22, R38, R56, R76, R100, R106, R135, R150, R170, R181, R185). -/

namespace Sys2Proof.Machine

/-- A request on a permitted source that is taken at every level, in every mode and engine state, and whose arguments hold,
is carried out (R176). -/
theorem admitRequest_anywhere {src : Source} (h : permitted src = true) (code : Byte) {bad : Option Nat}
    (hb : bad = none) (go : Part → Part) (p : Part) :
    admitRequest {} (sourceChannel src) code bad go (p.taken src) = go (p.taken src) := by
  have modes : ∀ m : Mode, m ∈ [Mode.setup, .paused, .active] := by
    intro m; cases m <;> decide
  have open_ : ({} : Terms).refusal (sourceChannel src) (p.taken src) = none := by
    cases src with
    | fleet => simp [Terms.refusal, sourceChannel, Terms.takes, modes]
    | service port svc =>
      have line : svc = true := h
      simp [Terms.refusal, sourceChannel, Terms.takes, modes, taken_svc, line]
  simp only [admitRequest, open_, hb]

/-- A request that responds and does nothing else changes nothing that lasts. -/
theorem read_answers {i : Instr} {src : Source} {s : State} {msg : List Byte} {run : Channel → Part → Part}
    (hi : exec i s = runRequest src msg run s) (h : Ready src s) (hl : lengthFits msg = true) {m : List Byte}
    (hq : run (sourceChannel src) (s.part.taken src) = respond (sourceChannel src) m (s.part.taken src)) :
    Answers i src s m s.part := by
  obtain ⟨t, step, responds, lasting, -, medium, pending⟩ :=
    request_answers (p := fun _ => True) hi h hl hq (responding_respond rfl rfl rfl) (fun _ => trivial)
  exact ⟨t, step, responds, lasting.trans ((lasting_respond _ _ _).trans (taken_lasting src s.part)), trivial, medium,
    pending⟩

/-- A read that is taken anywhere and has no argument at fault. -/
theorem admitted_read_answers {i : Instr} {src : Source} {s : State} {msg m : List Byte} {code : Byte} {bad : Option Nat}
    {go : Channel → Part → Part}
    (hi : exec i s = runRequest src msg (fun ch p => admitRequest {} ch code bad (go ch) p) s) (h : Ready src s)
    (hp : permitted src = true) (hl : lengthFits msg = true) (hb : bad = none)
    (hq : go (sourceChannel src) (s.part.taken src) = respond (sourceChannel src) m (s.part.taken src)) :
    Answers i src s m s.part :=
  read_answers hi h hl ((admitRequest_anywhere hp code hb _ s.part).trans hq)

/-! ## Each read -/

theorem firstBad_slotOk {slot : Byte} (hs : slot.toNat ≤ 11) : firstBad [(0, slotOk slot)] = none := by
  simp [firstBad, slotOk, hs]

section
variable {src : Source} {s : State} (h : Ready src s) (hp : permitted src = true)
include h hp

theorem readDecoderState_answers {area first : Byte} (ha : area.toNat ≤ 2) (h1 : area = 1 → first.toNat ≤ 63)
    (h2 : area = 2 → first.toNat ≤ 47) :
    Answers (.readDecoderState src area first) src s
      ([0x07, 0x00] ++ decoderState (s.part.taken src) area.toNat first.toNat) s.part := by
  refine read_answers rfl h rfl (admitRequest_anywhere hp 0x07 ?_ _ s.part)
  have count : (area != 1 || decide (first.toNat ≤ 63)) = true := by simpa [Decidable.imp_iff_not_or] using h1
  have signal : (area != 2 || decide (first.toNat ≤ 47)) = true := by simpa [Decidable.imp_iff_not_or] using h2
  simp only [firstBad, ha, count, signal, decide_true]
  rfl

theorem readSlot_answers {slot : Byte} (hs : slot.toNat ≤ 11) :
    Answers (.readSlot src slot) src s ([0x11, 0x00] ++ slotResult (s.part.taken src) slot.toNat) s.part :=
  admitted_read_answers rfl h hp rfl (firstBad_slotOk hs) rfl

end

/-- An EMPTY slot reads as its number and its state alone (R76). -/
theorem slotResult_empty {p : Part} {slot : Byte} (hs : p.slot slot.toNat = none) :
    slotResult p slot.toNat = [slot, 0x00] := by
  have number : beBytes 1 slot.toNat = [slot] := by simp [beBytes]
  simp only [slotResult, hs, number]
  rfl

/-- Settles O36: each read responds with its result of the part as taken, and changes nothing else. -/
theorem readsChangeNothing : Obligations.ReadsChangeNothing := by
  refine ⟨fun src s h hp => ⟨fun _ _ ha h1 h2 => readDecoderState_answers h hp ha h1 h2, ?_, ?_, fun slot hs => ⟨?_, ?_, ?_⟩,
    ?_, ?_, ?_, ?_, ?_, ?_, ?_⟩, fun src s h hp => ?_⟩
  · exact admitted_read_answers rfl h hp rfl rfl rfl
  · exact admitted_read_answers rfl h hp rfl rfl rfl
  · exact readSlot_answers h hp hs
  · intro empty
    refine ⟨slotResult_empty (by rw [taken_slot]; exact empty), ?_⟩
    exact admitted_read_answers rfl h hp rfl (firstBad_slotOk hs) (by simp only [taken_slot, empty]; rfl)
  · intro c occupied
    exact admitted_read_answers rfl h hp rfl (firstBad_slotOk hs) (by simp only [taken_slot, occupied]; rfl)
  · intro hire current
    exact admitted_read_answers rfl h hp rfl rfl (by simp only [taken_hire, current]; rfl)
  · intro hire current closing
    exact admitted_read_answers rfl h hp rfl rfl (by simp only [taken_hire, current, closing]; rfl)
  · intro current closing
    exact admitted_read_answers rfl h hp rfl rfl (by simp only [taken_hire, current, closing]; rfl)
  · exact admitted_read_answers rfl h hp rfl rfl rfl
  · exact admitted_read_answers rfl h hp rfl rfl rfl
  · exact admitted_read_answers rfl h hp rfl rfl rfl
  · exact admitted_read_answers rfl h hp rfl rfl rfl
  · exact admitted_read_answers rfl h hp rfl rfl rfl

end Sys2Proof.Machine
end

section
/-! Events of signals at the roles (R13, R14, R16, R20): what they do to the roles, and what they leave alone. -/

namespace Sys2Proof.Machine

/-! ## What an event leaves alone -/

/-- The part without what a signal's event changes of the still part: the signals, the roles and ROLE_LOST. -/
def Part.undecoded (p : Part) : Part :=
  { p.still.unlatched with signals := Vector.replicate 48 {}, roles := Vector.replicate 10 {} }

/-- What an event of a signal does beyond the signals and the roles: nothing to the still part but that ROLE_LOST may rise
while it is judged (R20). -/
structure Part.Applied (p q : Part) : Prop where
  rest : q.undecoded = p.undecoded
  rises : p.link.roleLost = true → q.link.roleLost = true
  unjudged : p.judgesRoles = false → q.link.roleLost = p.link.roleLost

theorem Part.Updated.applied {p q : Part} (h : p.Updated q) : p.Applied q :=
  ⟨congrArg (fun r : Part => { r with signals := Vector.replicate 48 {}, roles := Vector.replicate 10 {} }) h.still,
    h.rises, h.unjudged⟩

theorem Part.Applied.judgesRoles {p q : Part} (h : p.Applied q) : q.judgesRoles = p.judgesRoles :=
  (congrArg Part.judgesRoles h.rest : q.undecoded.judgesRoles = p.undecoded.judgesRoles)

theorem Part.Applied.refl (p : Part) : p.Applied p := (Part.Updated.refl p).applied

theorem Part.Applied.trans {p q r : Part} (h : p.Applied q) (k : q.Applied r) : p.Applied r :=
  ⟨k.rest.trans h.rest, fun hp => k.rises (h.rises hp), fun hp =>
    (k.unjudged (h.judgesRoles.trans hp)).trans (h.unjudged hp)⟩

/-- A signal or a role written is no more than that. -/
theorem applied_of_written (p : Part) (signals : Vector Signal 48) (roles : Vector Role 10) :
    p.Applied { p with signals, roles } := ⟨rfl, id, fun _ => rfl⟩

theorem foldl_applied {α : Type} {f : Part → α → Part} (h : ∀ (p : Part) x, p.Applied (f p x)) (xs : List α) (p : Part) :
    p.Applied (xs.foldl f p) := by
  induction xs generalizing p with
  | nil => exact .refl p
  | cons x xs ih => exact (h p x).trans (ih _)

/-- What is not among the signals, the roles and ROLE_LOST, an event keeps. -/
theorem Part.Applied.keeps {β : Type} (g : Part → β) (hg : ∀ r : Part, g r.undecoded = g r) {p q : Part}
    (h : p.Applied q) : g q = g p := by
  rw [← hg, h.rest, hg]

theorem Part.Applied.active {p q : Part} (h : p.Applied q) : q.modeCtl.active = p.modeCtl.active :=
  h.keeps (fun r => r.modeCtl.active) fun _ => rfl

/-- A role is required by the kinds that stand in the slots (R19). -/
theorem requires_of_faces (r : Register) (role : Nat) :
    ({ slots := r.slots.map (Option.map Component.face) } : Register).requires role = r.requires role := by
  simp only [Register.requires, Vector.toList_map, List.any_map]
  congr 1
  funext s
  cases s <;> rfl

theorem Part.Applied.requires {p q : Part} (h : p.Applied q) (role : Nat) :
    q.register.requires role = p.register.requires role := by
  have slots : q.register.slots.map (Option.map Component.face) = p.register.slots.map (Option.map Component.face) :=
    (congrArg (fun r : Part => r.register.slots) h.rest : q.undecoded.register.slots = p.undecoded.register.slots)
  rw [← requires_of_faces q.register, slots, requires_of_faces]

theorem requires_of_slot {p : Part} {n role : Nat} {c : Component} (h : p.slot n = some c)
    (hr : role ∈ c.kind.requiredRoles) : p.register.requires role = true := by
  simp only [Register.requires, List.any_eq_true]
  refine ⟨some c, ?_, by simpa using hr⟩
  have stands : p.register.slots[n]? = some (some c) := Option.join_eq_some_iff.mp h
  exact Vector.mem_toList_iff.mpr (Vector.mem_of_getElem? stands)

/-! ## One role -/

/-- The part with an event's role written. -/
def Part.withRole (p : Part) (r : Nat) (role : Role) : Part := { p with roles := p.roles.setIfInBounds r role }

theorem withRole_role {p : Part} {r : Nat} (role : Role) (h : r < 10) : (p.withRole r role).role r = role := by
  simp [Part.withRole, Part.role, h]

theorem withRole_role_other {p : Part} {r k : Nat} (role : Role) (h : k ≠ r) : (p.withRole r role).role k = p.role k := by
  simp [Part.withRole, Part.role, Vector.getElem?_setIfInBounds_ne (Ne.symm h)]

/-- After the role is written, its event latches a lost role and reaches the role's readers (R18, R20). -/
theorem applyRole_updated (i : Nat) (ev : RoleEvent) (p : Part) (r : Nat) :
    (p.withRole r (p.roleStep i ev r).role).Updated (applyRole i ev p r) := by
  have raised : (p.withRole r (p.roleStep i ev r).role).Updated
      (if (p.role r).usable && !(p.roleStep i ev r).role.usable && p.register.requires r && p.judgesRoles then
        raiseRoleLost (p.withRole r (p.roleStep i ev r).role) else p.withRole r (p.roleStep i ev r).role) := by
    split
    · exact raiseRoleLost_updated (by simp_all [Part.withRole, Part.judgesRoles])
    · exact .refl _
  unfold applyRole
  dsimp only
  split
  · exact raised.trans (handUpdate_updated _ _ _)
  · exact raised

theorem applyRole_applied (i : Nat) (ev : RoleEvent) (p : Part) (r : Nat) : p.Applied (applyRole i ev p r) :=
  (applied_of_written p p.signals _).trans (applyRole_updated i ev p r).applied

theorem applyRole_signals (i : Nat) (ev : RoleEvent) (p : Part) (r : Nat) : (applyRole i ev p r).signals = p.signals :=
  (congrArg Part.signals (applyRole_updated i ev p r).still :
    (applyRole i ev p r).still.unlatched.signals = (p.withRole r (p.roleStep i ev r).role).still.unlatched.signals)

theorem applyRole_role (i : Nat) (ev : RoleEvent) (p : Part) (r k : Nat) :
    (applyRole i ev p r).role k = (p.withRole r (p.roleStep i ev r).role).role k :=
  (congrArg (fun q : Part => q.role k) (applyRole_updated i ev p r).still :
    (applyRole i ev p r).still.unlatched.role k = (p.withRole r (p.roleStep i ev r).role).still.unlatched.role k)

/-- A required role that loses its source while roles are judged latches ROLE_LOST (R20). -/
theorem applyRole_roleLost {i : Nat} {ev : RoleEvent} {p : Part} {r : Nat} (hj : p.judgesRoles = true)
    (hr : p.register.requires r = true) (hu : (p.role r).usable = true) (hn : (p.roleStep i ev r).role.usable = false) :
    (applyRole i ev p r).link.roleLost = true := by
  have judged : ({ p with roles := p.roles.setIfInBounds r (p.roleStep i ev r).role } : Part).judgesRoles = true := hj
  unfold applyRole
  simp only [hu, hn, hr, judged, Bool.not_false, Bool.and_self, if_true]
  split
  · exact (handUpdate_updated _ _ _).rises rfl
  · rfl

/-- What an event does to a role depends on the role itself, the Role Map and the signals. -/
theorem roleStep_congr {p q : Part} (i : Nat) (ev : RoleEvent) {r : Nat} (ha : q.modeCtl.active = p.modeCtl.active)
    (hs : q.signals = p.signals) (hr : q.role r = p.role r) : q.roleStep i ev r = p.roleStep i ev r := by
  have fresh : q.freshValue = p.freshValue := by
    unfold Part.freshValue Part.signal
    rw [hs]
  simp only [Part.roleStep, ha, hr, fresh]

/-! ## All the roles (R14, log 11) -/

/-- An event reaches each role once, as the role stood before it. -/
theorem foldl_applyRole_role (i : Nat) (ev : RoleEvent) {rs : List Nat} (hn : rs.Nodup) (hb : ∀ r ∈ rs, r < 10) (p : Part)
    (k : Nat) : (rs.foldl (applyRole i ev) p).role k = if k ∈ rs then (p.roleStep i ev k).role else p.role k := by
  induction rs generalizing p with
  | nil => rfl
  | cons r rs ih =>
    obtain ⟨fresh, hn⟩ := List.nodup_cons.mp hn
    rw [List.foldl_cons, ih hn (fun x hx => hb x (List.mem_cons_of_mem r hx)), applyRole_role]
    by_cases same : k = r
    · subst same
      simp [fresh, withRole_role _ (hb k (List.mem_cons_self ..))]
    · have kept : (applyRole i ev p r).role k = p.role k := by rw [applyRole_role, withRole_role_other _ same]
      have step := roleStep_congr i ev (applyRole_applied i ev p r).active (applyRole_signals i ev p r) kept
      simp [same, step, withRole_role_other]

theorem applyRoles_role (i : Nat) (ev : RoleEvent) (p : Part) {k : Nat} (h : k < 10) :
    (applyRoles i ev p).role k = (p.roleStep i ev k).role := by
  rw [applyRoles, foldl_applyRole_role i ev List.nodup_range (fun r hr => List.mem_range.mp hr),
    if_pos (List.mem_range.mpr h)]

theorem applyRoles_applied (i : Nat) (ev : RoleEvent) (p : Part) : p.Applied (applyRoles i ev p) :=
  foldl_applied (applyRole_applied i ev) _ p

theorem applyRoles_signals (i : Nat) (ev : RoleEvent) (p : Part) : (applyRoles i ev p).signals = p.signals :=
  foldl_keeps Part.signals (applyRole_signals i ev) _ p

theorem applyRoles_roleLost {i : Nat} {ev : RoleEvent} {p : Part} {r : Nat} (h : r < 10) (hj : p.judgesRoles = true)
    (hr : p.register.requires r = true) (hu : (p.role r).usable = true) (hn : (p.roleStep i ev r).role.usable = false) :
    (applyRoles i ev p).link.roleLost = true := by
  obtain ⟨before, after, split⟩ := List.append_of_mem (List.mem_range.mpr h)
  have distinct : (before ++ r :: after).Nodup := split ▸ List.nodup_range
  have bounded : ∀ x ∈ before, x < 10 := fun x hx =>
    List.mem_range.mp (split ▸ List.mem_append_left _ hx)
  have fresh : r ∉ before := fun hx => (List.nodup_append.mp distinct).2.2 r hx r (List.mem_cons_self ..) rfl
  rw [applyRoles, split, List.foldl_append, List.foldl_cons]
  have first := foldl_applied (applyRole_applied i ev) before p
  have role : (before.foldl (applyRole i ev) p).role r = p.role r := by
    rw [foldl_applyRole_role i ev (List.nodup_append.mp distinct).1 bounded, if_neg fresh]
  have step := roleStep_congr i ev first.active (foldl_keeps Part.signals (applyRole_signals i ev) before p) role
  refine (foldl_applied (applyRole_applied i ev) after _).rises (applyRole_roleLost ?_ ?_ ?_ ?_)
  · exact first.judgesRoles.trans hj
  · exact (first.requires r).trans hr
  · rw [role]; exact hu
  · rw [step]; exact hn

/-! ## The expiry of a freshness deadline (R13, R16) -/

/-- The part with a signal gone STALE. -/
def Part.staled (p : Part) (i : Fin 48) : Part :=
  { p with signals := p.signals.set i { p.signals[i] with status := .stale, deadline := none } }

theorem signal_fin (p : Part) (i : Fin 48) : p.signal i = p.signals[i] := by
  simp [Part.signal]

theorem role_fin (p : Part) (r : Fin 10) : p.role r = p.roles[r] := by
  simp [Part.role]

theorem expireSignal_eq {p : Part} {i : Fin 48} (h : (p.signal i).deadline.isSome = true) :
    expireSignal i p = applyRoles i .expiry (p.staled i) := by
  have written : p.signals.setIfInBounds i { p.signal i with status := .stale, deadline := none } =
      (p.staled i).signals := by
    rw [signal_fin]
    ext k hk : 1
    simp [Part.staled, Vector.getElem_setIfInBounds, Vector.getElem_set]
  unfold expireSignal
  dsimp only
  rw [if_pos h, written]
  rfl

theorem staled_signal {p : Part} {i : Fin 48} {j : Nat} (h : j ≠ i) : (p.staled i).signal j = p.signal j := by
  simp [Part.signal, Part.staled, Vector.getElem?_set_ne, Ne.symm h]

theorem freshValue_of_fresh {p : Part} {i : Nat} {v : Int} (hs : (p.signal i).status = .fresh)
    (hv : (p.signal i).value = some v) : p.freshValue (some i) = some v := by
  simp [Part.freshValue, hs, hv]

theorem freshValue_of_not_fresh {p : Part} {i : Option Nat} (h : ∀ j, i = some j → (p.signal j).status ≠ .fresh) :
    p.freshValue i = none := by
  cases i with
  | none => rfl
  | some j => simp [Part.freshValue, h j rfl]

/-- What the expiry of a signal does to a role, by R16's table. -/
theorem roleStep_expiry (p : Part) (i : Fin 48) (r : Fin 10) :
    let entry := p.modeCtl.active.roles[r]
    let role := p.roles[r]
    let next := ((p.staled i).roleStep i .expiry r).role
    (entry.primary ≠ some i.val → entry.backup ≠ some i.val → next = role) ∧
      (entry.primary = some i.val → role.source = .primary →
        (∀ b v, entry.backup = some b → b ≠ i.val → (p.signal b).status = .fresh → (p.signal b).value = some v →
          next = { source := .backup, value := some v, returns := 0 }) ∧
        ((∀ b, entry.backup = some b → b = i.val ∨ (p.signal b).status ≠ .fresh) →
          next = { role with source := .none, returns := 0 })) ∧
      (entry.primary = some i.val → role.source = .backup → next = { role with returns := 0 }) ∧
      (entry.primary = some i.val → role.source = .none → next = role) ∧
      (entry.backup = some i.val → entry.primary ≠ some i.val → role.source = .backup →
        (∀ j v, entry.primary = some j → (p.signal j).status = .fresh → (p.signal j).value = some v →
          next = { source := .primary, value := some v, returns := 0 }) ∧
        ((∀ j, entry.primary = some j → (p.signal j).status ≠ .fresh) →
          next = { role with source := .none, returns := 0 })) ∧
      (entry.backup = some i.val → entry.primary ≠ some i.val → role.source ≠ .backup → next = role) := by
  intro entry role next
  have table : (p.staled i).modeCtl.active.roles[r.val]?.getD {} = entry := by simp [Part.staled, entry]
  have before : (p.staled i).role r = role := role_fin (p.staled i) r
  have primary : entry.primary = some i.val → next =
      (primaryEvent role .expiry
        (if entry.backup = some i.val then none else (p.staled i).freshValue entry.backup)).role := by
    intro h
    simp only [next, Part.roleStep, table, before, h, if_true]
  have backup : entry.backup = some i.val → entry.primary ≠ some i.val →
      next = (backupEvent role .expiry ((p.staled i).freshValue entry.primary)).role := by
    intro h hp
    simp only [next, Part.roleStep, table, before, h, hp, if_true, if_false]
  refine ⟨fun hp hb => ?_, fun hp hs => ⟨fun b v hb ne hf hv => ?_, fun none => ?_⟩, fun hp hs => ?_, fun hp hs => ?_,
    fun hb hp hs => ⟨fun j v hj hf hv => ?_, fun none => ?_⟩, fun hb hp hs => ?_⟩
  · simp only [next, Part.roleStep, table, before, hp, hb, if_false, RoleStep.unchanged]
  · rw [primary hp, if_neg (by simp [hb, ne]), hb,
      freshValue_of_fresh (by rw [staled_signal ne]; exact hf) (by rw [staled_signal ne]; exact hv)]
    simp [primaryEvent, hs]
  · have stale : (if entry.backup = some i.val then Option.none else (p.staled i).freshValue entry.backup) =
        Option.none := by
      split
      · rfl
      · rename_i other
        refine freshValue_of_not_fresh fun b hb => ?_
        have ne : b ≠ i.val := fun e => other (e ▸ hb)
        rw [staled_signal ne]
        exact (none b hb).resolve_left ne
    rw [primary hp, stale]
    simp [primaryEvent, hs]
  · rw [primary hp]
    simp [primaryEvent, hs, RoleStep.unchanged]
  · rw [primary hp]
    simp [primaryEvent, hs, RoleStep.unchanged]
  · have ne : j ≠ i.val := fun e => hp (e ▸ hj)
    rw [backup hb hp, hj,
      freshValue_of_fresh (by rw [staled_signal ne]; exact hf) (by rw [staled_signal ne]; exact hv)]
    simp [backupEvent, hs]
  · have stale : (p.staled i).freshValue entry.primary = Option.none := by
      refine freshValue_of_not_fresh fun j hj => ?_
      have ne : j ≠ i.val := fun e => hp (e ▸ hj)
      rw [staled_signal ne]
      exact none j hj
    rw [backup hb hp, stale]
    simp [backupEvent, hs]
  · rw [backup hb hp]
    cases h : role.source <;> simp_all [backupEvent, RoleStep.unchanged]

theorem judgesRoles_iff {p : Part} (h : p.awake = true) :
    p.judgesRoles = true ↔ p.modeCtl.mode = .active ∧ p.modeCtl.ignition = true := by
  simp [Part.judgesRoles, (awake_parts h).2.1]

/-- The expiry of a running deadline at an AWAKE part leaves what the roles make of it, settled. -/
theorem exec_freshnessDeadlineExpiry_awake {s : State} {i : Fin 48} (ha : s.part.awake = true)
    (hd : (s.part.signal i).deadline.isSome = true) :
    exec (.freshnessDeadlineExpiry i) s =
      .next { s with part := settle s.medium (applyRoles i .expiry (s.part.staled i)) } := by
  have applied := (applied_of_written s.part (s.part.staled i).signals s.part.roles).trans
    (applyRoles_applied i .expiry (s.part.staled i))
  have restore : (applyRoles i .expiry (s.part.staled i)).restore = s.part.restore :=
    applied.keeps Part.restore fun _ => rfl
  rw [← expireSignal_eq hd] at restore ⊢
  exact runAwake_eq (expireSignal i) ha (restore.trans (awake_parts ha).2.2.2)

/-- Settles O18: the signal goes STALE, its event reaches each role once, and a required role that loses its source
latches ROLE_LOST. -/
theorem freshnessExpiryMakesStale : Obligations.FreshnessExpiryMakesStale := by
  intro i s ha hd
  have applied : s.part.Applied (applyRoles i .expiry (s.part.staled i)) :=
    (applied_of_written s.part (s.part.staled i).signals s.part.roles).trans (applyRoles_applied i .expiry _)
  have signals := applyRoles_signals i .expiry (s.part.staled i)
  have roles : ∀ r : Fin 10, (applyRoles i .expiry (s.part.staled i)).roles[r] =
      ((s.part.staled i).roleStep i .expiry r).role := fun r =>
    (role_fin _ r).symm.trans (applyRoles_role i .expiry _ r.isLt)
  have lost : ∀ r : Fin 10, s.part.judgesRoles = true → s.part.register.requires r = true →
      (s.part.role r).usable = true → ((s.part.staled i).roleStep i .expiry r).role.usable = false →
      (applyRoles i .expiry (s.part.staled i)).link.roleLost = true := fun r =>
    applyRoles_roleLost (p := s.part.staled i) r.isLt
  have step := exec_freshnessDeadlineExpiry_awake ha hd
  generalize applyRoles i .expiry (s.part.staled i) = q at applied signals roles lost step
  have latch := settle_keeps (fun q => q.link.roleLost) (fun _ => rfl) s.medium q
  have settled := settle_keeps Part.roles (fun _ => rfl) s.medium q
  refine ⟨_, step, ?_, fun r => ?_, ⟨fun r n c hj hs hr hu hl => ?_, fun hj => ?_⟩, ?_, ?_, ?_, ?_, ?_, rfl, rfl⟩
  · exact (settle_keeps Part.signals (fun _ => rfl) s.medium q).trans signals
  · simp only [settled, roles r]
    exact roleStep_expiry s.part i r
  · simp only [settled, roles r] at hl
    refine latch.trans (lost r ((judgesRoles_iff ha).mpr hj) (requires_of_slot hs hr) ?_ ?_)
    · rw [role_fin]
      simpa [Role.usable] using hu
    · simp [Role.usable, hl]
  · refine latch.trans (applied.unjudged ?_)
    rw [Bool.eq_false_iff]
    exact fun h => hj ((judgesRoles_iff ha).mp h)
  · exact (settle_keeps Part.matcher (fun _ => rfl) _ _).trans (applied.keeps Part.matcher fun _ => rfl)
  · exact (settle_keeps (fun q => q.modeCtl.active) (fun _ => rfl) _ _).trans applied.active
  · exact (settle_keeps (fun q => q.modeCtl.mode) (fun _ => rfl) _ _).trans
      (applied.keeps (fun q => q.modeCtl.mode) fun _ => rfl)
  · exact (settle_keeps (fun q => q.modeCtl.clock) (fun _ => rfl) _ _).trans
      (applied.keeps (fun q => q.modeCtl.clock) fun _ => rfl)
  · exact (settle_keeps (fun q => q.ring.next) (fun _ => rfl) _ _).trans
      (applied.keeps (fun q => q.ring.next) fun _ => rfl)

end Sys2Proof.Machine
end

section
/-! The Engine Start Detector (R43 to R53): what an evaluation and the windows' expiries make of the part. -/

namespace Sys2Proof.Machine

/-! ## What the accounting leaves of the detector -/

theorem keeps_of_still {β : Type} (g : Part → β) (hg : ∀ r : Part, g r.still = g r) {p q : Part} (h : q.still = p.still) :
    g q = g p := by
  rw [← hg, h, hg]

theorem creditSlot_detector (n : Nat) (a : Credit) (p : Part) : (creditSlot n a p).detector = p.detector := by
  unfold creditSlot
  split <;> rfl

theorem copierRun_detector (p : Part) : (copierRun p).detector = p.detector := by
  unfold copierRun
  split
  · rfl
  · dsimp only
    split <;> rfl

theorem takeTrigger_detector (t : Trigger) (p : Part) : (takeTrigger t p).1.detector = p.detector := by
  unfold takeTrigger startCapture
  split
  · split
    · rfl
    · split
      · rfl
      · exact copierRun_detector _
  · split <;> rfl

theorem markSlot_detector (kind : Cause) (p : Part) : (markSlot kind p).detector = p.detector := by
  unfold markSlot
  split
  · rfl
  · split <;> rfl

theorem judgeEngagement_detector (energy : Nat) (p : Part) : (judgeEngagement energy p).detector = p.detector := by
  unfold judgeEngagement makeMark
  dsimp only
  split
  · split
    · exact (takeTrigger_detector _ _).trans (markSlot_detector _ p)
    · exact markSlot_detector _ p
  · rfl

theorem closeEngagement_detector (p : Part) : (closeEngagement p).detector = p.detector := by
  have credited : ∀ e, (engagementCredit e p).detector = p.detector := by
    intro e
    unfold engagementCredit
    split
    · rfl
    · exact creditSlot_detector _ _ p
  unfold closeEngagement
  split
  · rfl
  · exact (judgeEngagement_detector _ _).trans (credited _)

theorem closeEngagement_of_none {p : Part} (h : p.clutch.engagement = none) : closeEngagement p = p := by
  simp [closeEngagement, h]

theorem queueVerification_detector (p : Part) (n : Nat) : (queueVerification n p).detector = p.detector := by
  unfold queueVerification
  split
  · split
    · dsimp only
      split <;> rfl
    · rfl
  · rfl

theorem queueAll_detector (p : Part) : (queueAll p).detector = p.detector :=
  foldl_keeps Part.detector queueVerification_detector _ p

theorem countResume_detector (p : Part) : (countResume p).detector = p.detector := by
  unfold countResume
  split
  · rfl
  · split <;> rfl

/-! ## The entry into RUNNING (R20, R54) -/

/-- Into RUNNING, but not out of STOPPED, the state changes and RUNNING is entered. -/
theorem changeEngine_to_running {p : Part} (hs : p.detector.engine ≠ .stopped) (hr : p.detector.engine ≠ .running) :
    changeEngine .running p = enterRunning { p with detector := { p.detector with engine := .running } } := by
  simp [changeEngine, hs, hr]

/-- The part at the entry into RUNNING, with ROLE_LOST judged (R20). -/
def Part.roleJudged (p : Part) : Part :=
  { p with link := { p.link with roleLost := p.link.roleLost || (p.judgesRoles && p.missingRole) } }

theorem enterRunning_eq (p : Part) :
    enterRunning p =
      if p.detector.firstRun then
        queueAll { p.roleJudged with detector := { p.detector with firstRun := false } }
      else p.roleJudged := by
  have judged : (if p.judgesRoles && p.missingRole then raiseRoleLost p else p) = p.roleJudged := by
    unfold Part.roleJudged
    split
    · rename_i h
      simp [h, raiseRoleLost]
    · rename_i h
      simp [h]
  unfold enterRunning
  rw [judged]
  rfl

theorem enterRunning_detector (p : Part) : (enterRunning p).detector = { p.detector with firstRun := false } := by
  rw [enterRunning_eq]
  split
  · exact queueAll_detector _
  · rename_i h
    have later : p.detector.firstRun = false := by simpa using h
    exact (congrArg (fun b => { p.detector with firstRun := b }) later : p.detector = _)

theorem enterRunning_roleLost (p : Part) :
    (enterRunning p).link.roleLost = (p.link.roleLost || (p.judgesRoles && p.missingRole)) := by
  rw [enterRunning_eq]
  split
  · exact keeps_of_still (fun q => q.link.roleLost) (fun _ => rfl) (queueAll_still _)
  · rfl

/-- A later run of an engine with no role lost enters RUNNING and does no more. -/
theorem enterRunning_of_settled {p : Part} (hf : p.detector.firstRun = false)
    (hj : p.judgesRoles = false ∨ p.missingRole = false) : enterRunning p = p := by
  have found : (p.judgesRoles && p.missingRole) = false := by rcases hj with h | h <;> simp [h]
  rw [enterRunning_eq, if_neg (by simp [hf]), Part.roleJudged, found, Bool.or_false]

/-- ROLE_LOST is judged by the kinds in the slots and by the roles. -/
theorem missingRole_of_still {p q : Part} (h : q.still = p.still) : q.missingRole = p.missingRole := by
  have required : ∀ r, q.register.requires r = p.register.requires r := (Part.Updated.of_still h).applied.requires
  have roles : q.roles = p.roles := keeps_of_still Part.roles (fun _ => rfl) h
  simp only [Part.missingRole, required, Part.role, roles]

/-! ## The end of an attempt (R44, R52) -/

theorem starterEvent_uncredited {tenths : Nat} {coolant : Option Int} {failed : Bool} {p : Part}
    (h : p.modeCtl.mode ≠ .active ∨ p.slotOfKind .starter = none) : starterEvent tenths coolant failed p = p := by
  unfold starterEvent
  rcases h with h | h
  · rw [if_pos h]
  · simp [h]

theorem creditSlot_of_some {n : Nat} {c : Component} {p : Part} (a : Credit) (h : p.slot n = some c) :
    creditSlot n a p = { p.setSlot n (some (c.credit a)) with hire := p.hire.credit n c a } := by
  simp [creditSlot, h]

theorem credit_failedStarts (c : Component) (a : Credit) : (c.credit a).failedStarts = c.failedStarts := by
  unfold Component.credit
  split
  · cases h : a.place <;> simp only [Component.creditFigures, h] <;> rfl
  · rfl

theorem slot_lt {p : Part} {n : Nat} {c : Component} (h : p.slot n = some c) : n < 12 := by
  by_contra high
  simp [Part.slot, Vector.getElem?_eq_none (xs := p.register.slots) (Nat.le_of_not_lt high)] at h

/-- A slot written twice holds what was written last. -/
theorem setSlot_setSlot (p : Part) (n : Nat) (c d : Option Component) : (p.setSlot n c).setSlot n d = p.setSlot n d := by
  simp [Part.setSlot]

/-- A failed attempt's starter event: the credit, and one more failed start (R52). -/
theorem starterEvent_failed {tenths : Nat} {coolant : Option Int} {p : Part} {n : Nat} {c : Component}
    (hm : p.modeCtl.mode = .active) (hk : p.slotOfKind .starter = some n) (hc : p.slot n = some c) :
    starterEvent tenths coolant true p =
      { p.setSlot n (some
          { c.credit (p.placed .starter (some (tenths : Int)) coolant coolant 1 tenths 1) with
            failedStarts := min 65535 (c.failedStarts + 1) }) with
        hire := p.hire.credit n c (p.placed .starter (some (tenths : Int)) coolant coolant 1 tenths 1) } := by
  have credited := creditSlot_of_some (p.placed .starter (some (tenths : Int)) coolant coolant 1 tenths 1) hc
  have reads : (creditSlot n (p.placed .starter (some (tenths : Int)) coolant coolant 1 tenths 1) p).slot n =
      some (c.credit (p.placed .starter (some (tenths : Int)) coolant coolant 1 tenths 1)) := by
    rw [credited]
    exact Part.setSlot_slot p (slot_lt hc) _
  unfold starterEvent
  simp only [hm, hk, reads, ne_eq, not_true_eq_false, if_false, if_true]
  rw [credited]
  simp only [Part.setSlot, credit_failedStarts, addSat, max16, Vector.setIfInBounds_setIfInBounds]

/-- The part with no attempt and no window. -/
def Part.attemptEnded (p : Part) : Part :=
  { p with detector := { p.detector with attempt := none, windowA := none, windowB := none } }

theorem endAttempt_eq {failed : Bool} {tenths : Nat} {p : Part} {a : Attempt} (h : p.detector.attempt = some a) :
    endAttempt failed tenths p =
      if a.starterSeen then starterEvent tenths a.coolant failed p.attemptEnded else p.attemptEnded := by
  simp only [endAttempt, h]
  rfl

/-- What the end of an attempt as FAILED makes of the part: `q`, with the starter event credited in ACTIVE when the
starter was seen (R52). -/
def Part.fails (p : Part) (a : Attempt) (tenths : Nat) (q result : Part) : Prop :=
  (a.starterSeen = false ∨ p.modeCtl.mode ≠ .active ∨ p.slotOfKind .starter = none → result = q) ∧
    ∀ n c, a.starterSeen = true → p.modeCtl.mode = .active → p.slotOfKind .starter = some n → p.slot n = some c →
      let credit := p.placed .starter (some (tenths : Int)) a.coolant a.coolant 1 tenths 1
      result =
        { q.setSlot n (some { c.credit credit with failedStarts := min 65535 (c.failedStarts + 1) }) with
          hire := p.hire.credit n c credit }

theorem endAttempt_fails {p : Part} {a : Attempt} (h : p.detector.attempt = some a) (tenths : Nat) :
    p.fails a tenths p.attemptEnded (endAttempt true tenths p) := by
  rw [endAttempt_eq h]
  refine ⟨fun none => ?_, fun n c seen hm hk hc => ?_⟩
  · split
    · rename_i seen
      exact starterEvent_uncredited (none.resolve_left (by simp [seen]))
    · rfl
  · rw [if_pos seen]
    exact starterEvent_failed (p := p.attemptEnded) hm hk hc

/-- What follows the end of the attempt at the detector alone leaves the credit as it is. -/
theorem Part.fails.withDetector {p q result : Part} {a : Attempt} {tenths : Nat} (h : p.fails a tenths q result)
    (d : Detector) : p.fails a tenths { q with detector := d } { result with detector := d } := by
  obtain ⟨uncredited, credited⟩ := h
  refine ⟨fun none => ?_, fun n c seen hm hk hc => ?_⟩
  · rw [uncredited none]
  · rw [credited n c seen hm hk hc]
    rfl

theorem starterEvent_detector (tenths : Nat) (coolant : Option Int) (failed : Bool) (p : Part) :
    (starterEvent tenths coolant failed p).detector = p.detector := by
  unfold starterEvent
  split
  · rfl
  · split
    · rfl
    · dsimp only
      split
      · split <;> exact creditSlot_detector _ _ p
      · exact creditSlot_detector _ _ p

theorem endAttempt_detector {failed : Bool} {tenths : Nat} {p : Part} {a : Attempt} (h : p.detector.attempt = some a) :
    (endAttempt failed tenths p).detector = p.attemptEnded.detector := by
  rw [endAttempt_eq h]
  split
  · exact starterEvent_detector _ _ _ _
  · rfl

/-! ## The start of an attempt (R44 to R47) -/

/-- The record of an attempt that opens now. -/
def Part.opened (p : Part) (seen : Bool) (duration : Option Nat) : Attempt :=
  { openedAt := p.now, coolant := p.usableValue roleCoolant, starterSeen := seen, duration := duration }

/-- The detector with a new state, attempt and windows. -/
def Detector.put (d : Detector) (engine : EngineState) (attempt : Option Attempt) (a b : Option Nat) : Detector :=
  { d with engine := engine, attempt := attempt, windowA := a, windowB := b }

/-- Out of STOPPED while no table save runs, only the detector and the quiet timer change. -/
theorem changeEngine_leaving {new : EngineState} {p : Part} (h : p.detector.engine = .stopped) (hs : new ≠ .stopped)
    (hr : new ≠ .running) (hf : ∀ m, p.modeCtl.save ≠ .saving m) :
    changeEngine new p = stopQuiet { p with detector := { p.detector with engine := new } } := by
  rw [changeEngine_of_stopped h hs hr, endSave_of_not_saving]
  exact hf

/-- Cranking begins anew, from CRANKING or CATCHING (R46, R47). -/
theorem beginCranking_between {p : Part} (hs : p.detector.engine ≠ .stopped) (hr : p.detector.engine ≠ .running) :
    beginCranking p =
      { p with
        detector := p.detector.put .cranking (some (p.opened p.starterActive none))
          (some (1000 * p.modeCtl.active.limits.windowA)) none } := by
  unfold beginCranking
  exact changeEngine_between hs hr (by decide)

/-- Cranking begins from STOPPED (R45). -/
theorem beginCranking_of_stopped {p : Part} (h : p.detector.engine = .stopped) (hf : ∀ m, p.modeCtl.save ≠ .saving m) :
    beginCranking p =
      stopQuiet { p with
        detector := p.detector.put .cranking (some (p.opened p.starterActive none))
          (some (1000 * p.modeCtl.active.limits.windowA)) none } := by
  unfold beginCranking
  exact changeEngine_leaving h (by decide) (by decide) hf

/-- The engine fires while cranking (R46). -/
theorem beginCatching_between {p : Part} (hs : p.detector.engine ≠ .stopped) (hr : p.detector.engine ≠ .running) :
    beginCatching p =
      { p with
        detector := p.detector.put .catching p.detector.attempt none
          (some (100 * p.modeCtl.active.limits.windowB)) } := by
  unfold beginCatching
  exact changeEngine_between hs hr (by decide)

/-- The engine fires from STOPPED (R45). -/
theorem beginCatching_of_stopped {p : Part} (h : p.detector.engine = .stopped) (hf : ∀ m, p.modeCtl.save ≠ .saving m) :
    beginCatching p =
      stopQuiet { p with
        detector := p.detector.put .catching p.detector.attempt none
          (some (100 * p.modeCtl.active.limits.windowB)) } := by
  unfold beginCatching
  exact changeEngine_leaving h (by decide) (by decide) hf

/-! ## Evaluations, by engine state -/

/-- An evaluation in CRANKING keeps the attempt, with the starter noted (R44). -/
theorem seeStarter_eq {p : Part} {a : Attempt} (h : p.detector.attempt = some a) :
    seeStarter p =
      { p with
        detector := { p.detector with attempt := some { a with starterSeen := a.starterSeen || p.starterActive } } } := by
  unfold seeStarter
  split
  · rename_i on
    simp [h, on, setDetector]
  · rename_i off
    simp [off, ← h]

section
variable {p : Part} {onSpeed : Bool} {speed : Int} (hv : p.usableValue roleEngineSpeed = some speed)
include hv

theorem evaluateDetector_stopped (h : p.detector.engine = .stopped) :
    evaluateDetector onSpeed p = evaluateStopped speed p := by
  simp only [evaluateDetector, hv, h]

theorem evaluateDetector_cranking (h : p.detector.engine = .cranking) :
    evaluateDetector onSpeed p = evaluateCranking speed p := by
  simp only [evaluateDetector, hv, h]

theorem evaluateDetector_catching (h : p.detector.engine = .catching) :
    evaluateDetector onSpeed p = evaluateCatching speed p := by
  simp only [evaluateDetector, hv, h]

theorem evaluateDetector_running (h : p.detector.engine = .running) :
    evaluateDetector onSpeed p = evaluateRunning speed p := by
  simp only [evaluateDetector, hv, h]

theorem evaluateDetector_unknown (h : p.detector.engine = .unknown) :
    evaluateDetector onSpeed p = if onSpeed then resumeFrom speed p else p := by
  simp only [evaluateDetector, hv, h]

end

end Sys2Proof.Machine
end

section
/-! Every evaluation of the Engine Start Detector (R43 to R50). -/

namespace Sys2Proof.Machine

/-! ## A loss of the speed (R49) -/

theorem evaluateDetector_no_speed {p : Part} (h : p.usableValue roleEngineSpeed = none) (onSpeed : Bool) :
    evaluateDetector onSpeed p = if onSpeed then loseSpeed p else p := by
  simp only [evaluateDetector, h]

theorem loseSpeed_of_stopped {p : Part} (h : p.detector.engine = .stopped) (hi : p.modeCtl.ignition = true)
    (hf : ∀ m, p.modeCtl.save ≠ .saving m) :
    loseSpeed p = stopQuiet { p with detector := p.detector.put .unknown none none none } := by
  simp only [loseSpeed, hi, if_true]
  exact changeEngine_leaving h (by decide) (by decide) hf

/-- With no engagement open, a loss of speed changes the detector alone, unless the engine leaves STOPPED. -/
theorem loseSpeed_within {p : Part} (hg : p.clutch.engagement = none)
    (h : p.modeCtl.ignition = true → p.detector.engine ≠ .stopped) :
    loseSpeed p =
      { p with detector := p.detector.put (if p.modeCtl.ignition then .unknown else .stopped) none none none } := by
  unfold loseSpeed
  generalize hn : (if p.modeCtl.ignition then EngineState.unknown else .stopped) = new
  have idle : new ≠ .running := by subst hn; split <;> decide
  by_cases hr : p.detector.engine = .running
  · rw [changeEngine_of_running (p := discardAttempt p) hr idle, closeEngagement_of_none (p := discardAttempt p) hg]
    rfl
  · by_cases hs : p.detector.engine = .stopped
    · have same : new = p.detector.engine := by
        subst hn
        simp [hs, show p.modeCtl.ignition = false from Bool.eq_false_iff.mpr fun on => h on hs]
      rw [same]
      exact changeEngine_self (discardAttempt p)
    · exact changeEngine_between hs hr idle

/-! ## An evaluation in CRANKING or CATCHING (R46, R47) -/

theorem evaluateCranking_eq {p : Part} {a : Attempt} (h : p.detector.engine = .cranking)
    (ha : p.detector.attempt = some a) (hd : a.duration = none) (speed : Int) :
    let seen := { a with starterSeen := a.starterSeen || p.starterActive }
    let tenths := (p.now - a.openedAt) / 100
    let l := p.modeCtl.active.limits
    evaluateCranking speed p =
      if (l.run : Int) ≤ speed then
        { p with
          detector := p.detector.put .catching (some { seen with duration := some tenths }) none
            (some (100 * l.windowB)) }
      else if p.starterActive = false ∧ speed < l.crank then
        changeEngine .stopped
          (endAttempt true tenths { p with detector := { p.detector with attempt := some seen } })
      else { p with detector := { p.detector with attempt := some seen } } := by
  intro seen tenths l
  unfold evaluateCranking
  dsimp only
  rw [seeStarter_eq ha]
  by_cases hr : (l.run : Int) ≤ speed
  · rw [if_pos hr, if_pos hr, beginCatching_between (by simp [h]) (by simp [h])]
    simp only [setDetector, Part.attemptDuration, Option.map_some, hd]
    rfl
  · rw [if_neg hr, if_neg hr]
    by_cases hs : p.starterActive = false ∧ speed < l.crank
    · rw [if_pos hs]
      refine (if_pos hs).trans ?_
      simp only [Part.attemptDuration, hd]
      rfl
    · rw [if_neg hs]
      exact if_neg hs

theorem attemptDuration_of_fixed {p : Part} {a : Attempt} {tenths : Nat} (ha : p.detector.attempt = some a)
    (hd : a.duration = some tenths) : p.attemptDuration = tenths := by
  simp [Part.attemptDuration, ha, hd]

/-- The end of a failed attempt that stops the engine (R46, R47). -/
theorem fails_stopped {p : Part} {a : Attempt} (ha : p.detector.attempt = some a) (tenths : Nat)
    (he : p.detector.engine = .cranking ∨ p.detector.engine = .catching) :
    p.fails a tenths { p with detector := p.detector.put .stopped none none none }
      (changeEngine .stopped (endAttempt true tenths p)) := by
  have detector := endAttempt_detector (failed := true) (tenths := tenths) ha
  have engine : (endAttempt true tenths p).detector.engine = p.detector.engine := by rw [detector]; rfl
  have between : p.detector.engine ≠ .stopped ∧ p.detector.engine ≠ .running := by rcases he with h | h <;> simp [h]
  rw [changeEngine_between (engine ▸ between.1) (engine ▸ between.2) (by decide), detector]
  exact (endAttempt_fails ha tenths).withDetector _

/-- The end of a failed attempt after which cranking goes on with a new one (R46, R47). -/
theorem fails_cranking {p : Part} {a : Attempt} (ha : p.detector.attempt = some a) (tenths : Nat)
    (he : p.detector.engine = .cranking ∨ p.detector.engine = .catching) :
    p.fails a tenths
      { p with
        detector := p.detector.put .cranking (some (p.opened p.starterActive none))
          (some (1000 * p.modeCtl.active.limits.windowA)) none }
      (beginCranking (endAttempt true tenths p)) := by
  have detector := endAttempt_detector (failed := true) (tenths := tenths) ha
  have engine : (endAttempt true tenths p).detector.engine = p.detector.engine := by rw [detector]; rfl
  have between : p.detector.engine ≠ .stopped ∧ p.detector.engine ≠ .running := by rcases he with h | h <;> simp [h]
  have still := endAttempt_still true tenths p
  have opened : (endAttempt true tenths p).opened (endAttempt true tenths p).starterActive none =
      p.opened p.starterActive none :=
    keeps_of_still (fun q => q.opened q.starterActive none) (fun _ => rfl) still
  have limits : (endAttempt true tenths p).modeCtl.active.limits = p.modeCtl.active.limits :=
    keeps_of_still (fun q => q.modeCtl.active.limits) (fun _ => rfl) still
  rw [beginCranking_between (engine ▸ between.1) (engine ▸ between.2), detector, opened, limits]
  exact (endAttempt_fails ha tenths).withDetector _

/-! ## The first speed in UNKNOWN (R50) -/

theorem changeEngine_of_unknown {p : Part} (h : p.detector.engine = .unknown) :
    changeEngine .stopped p = { p with detector := { p.detector with engine := .stopped } } :=
  changeEngine_between (by simp [h]) (by simp [h]) (by decide)

theorem evaluateDetector_resumes {p : Part} {speed : Int} (hv : p.usableValue roleEngineSpeed = some speed)
    (h : p.detector.engine = .unknown) (hs : (p.modeCtl.active.limits.run : Int) ≤ speed) :
    evaluateDetector true p =
      enterRunning { countResume p with detector := { p.detector with engine := .running } } := by
  have detector := countResume_detector p
  rw [evaluateDetector_unknown hv h, if_pos rfl, resumeFrom, if_pos hs,
    changeEngine_to_running (by simp [detector, h]) (by simp [detector, h]), detector]

/-- A resume is judged for ROLE_LOST like any entry into RUNNING. -/
theorem countResume_judged (p : Part) (d : Detector) :
    (({ countResume p with detector := d } : Part).link.roleLost = p.link.roleLost) ∧
      ({ countResume p with detector := d } : Part).judgesRoles = p.judgesRoles ∧
      ({ countResume p with detector := d } : Part).missingRole = p.missingRole := by
  have still := countResume_still p
  exact ⟨keeps_of_still (fun q => q.link.roleLost) (fun _ => rfl) still,
    keeps_of_still Part.judgesRoles (fun _ => rfl) still,
    missingRole_of_still (p := p) (q := { countResume p with detector := d }) still⟩

theorem evaluateDetector_resumes_settled {p : Part} {speed : Int} (hv : p.usableValue roleEngineSpeed = some speed)
    (h : p.detector.engine = .unknown) (hs : (p.modeCtl.active.limits.run : Int) ≤ speed)
    (hf : p.detector.firstRun = false) (hj : p.judgesRoles = false ∨ p.missingRole = false) :
    evaluateDetector true p = { countResume p with detector := { p.detector with engine := .running } } :=
  have ⟨_, judges, missing⟩ := countResume_judged p { p.detector with engine := .running }
  (evaluateDetector_resumes hv h hs).trans (enterRunning_of_settled hf (hj.imp judges.trans missing.trans))

/-- Settles O19: each engine state's transition, from the rules of the changes it is made of. -/
theorem detectorEvaluations : Obligations.DetectorEvaluations := by
  intro p onSpeed d l windowA windowB put opened fails free leaves
  refine ⟨fun hv => evaluateDetector_no_speed hv false, fun hv hg hf => ⟨fun off => ?_, fun on hs => ?_, fun on hs => ?_⟩,
    fun speed hv => ⟨fun h hf => ⟨fun hr => ?_, fun hr hc => ?_, fun hr off hc => ?_⟩,
      fun a h ha hd => ⟨fun hr => ?_, fun hr hc => ?_, fun hr off hc => ?_⟩,
      fun a tenths h ha hd => ⟨fun hr => ?_, fun hr off hc => ?_, fun hr hc => ?_⟩,
      fun h => ⟨fun hr => ?_, fun hr => ⟨?_, fun hg => ?_⟩⟩,
      fun h => ⟨?_, fun hr => ?_, fun hr => ⟨?_, ?_, fun hd hj => ⟨fun hk => ?_, fun n c hk hc => ?_⟩⟩⟩⟩⟩
  -- a loss of the speed
  · rw [evaluateDetector_no_speed hv, if_pos rfl, loseSpeed_within hg (by simp [off])]
    simp only [off]
    rfl
  · rw [evaluateDetector_no_speed hv, if_pos rfl, loseSpeed_within hg (fun _ => hs)]
    simp only [on]
    rfl
  · rw [evaluateDetector_no_speed hv, if_pos rfl, loseSpeed_of_stopped hs on (hf hs)]
    rfl
  -- STOPPED
  · rw [evaluateDetector_stopped hv h, evaluateStopped, if_pos hr,
      beginCatching_of_stopped (p := openAttempt false (some 0) p) h (hf h)]
    rfl
  · rw [evaluateDetector_stopped hv h, evaluateStopped, if_neg (not_le.mpr hr),
      if_pos (hc.imp_right fun hc => ⟨hc, hr⟩), beginCranking_of_stopped h (hf h)]
    rfl
  · rw [evaluateDetector_stopped hv h, evaluateStopped, if_neg (not_le.mpr hr),
      if_neg (by rintro (on | ⟨high, -⟩); exacts [absurd (off.symm.trans on) (by decide), absurd hc (not_lt.mpr high)])]
  -- CRANKING
  · rw [evaluateDetector_cranking hv h, evaluateCranking_eq h ha hd, if_pos hr]
    rfl
  · rw [evaluateDetector_cranking hv h, evaluateCranking_eq h ha hd, if_neg (not_le.mpr hr), if_neg]
    · rw [← h]
    · rintro ⟨off, low⟩
      exact hc.elim (fun on => absurd (off.symm.trans on) (by decide)) (not_le.mpr low)
  · have unseen : ({ p with
        detector := { p.detector with attempt := some { a with starterSeen := a.starterSeen || p.starterActive } } } :
          Part) = p := by
      rw [off, Bool.or_false]
      exact congrArg (fun x => ({ p with detector := { p.detector with attempt := x } } : Part)) ha.symm
    rw [evaluateDetector_cranking hv h, evaluateCranking_eq h ha hd, if_neg (not_le.mpr hr), if_pos ⟨off, hc⟩, unseen]
    exact fails_stopped ha _ (.inl h)
  -- CATCHING
  · rw [evaluateDetector_catching hv h, evaluateCatching, if_neg (not_lt.mpr hr)]
  · have carried := attemptDuration_of_fixed ha hd
    have off' : (endAttempt true tenths p).starterActive = false :=
      (keeps_of_still Part.starterActive (fun _ => rfl) (endAttempt_still true tenths p)).trans off
    rw [evaluateDetector_catching hv h, evaluateCatching, if_pos hr, carried]
    dsimp only
    rw [if_pos ⟨off', hc⟩]
    exact fails_stopped ha tenths (.inr h)
  · have carried := attemptDuration_of_fixed ha hd
    have same : (endAttempt true tenths p).starterActive = p.starterActive :=
      keeps_of_still Part.starterActive (fun _ => rfl) (endAttempt_still true tenths p)
    rw [evaluateDetector_catching hv h, evaluateCatching, if_pos hr, carried]
    dsimp only
    rw [if_neg]
    · exact fails_cranking ha tenths (.inr h)
    · rintro ⟨off, low⟩
      exact hc.elim (fun on => absurd ((off.symm.trans same).trans on) (by decide)) (not_le.mpr low)
  -- RUNNING
  · rw [evaluateDetector_running hv h, evaluateRunning, if_neg (not_lt.mpr hr)]
  · rw [evaluateDetector_running hv h, evaluateRunning, if_pos hr, changeEngine_of_running h (by decide)]
    exact congrArg (fun d : Detector => { d with engine := .stopped }) (closeEngagement_detector p)
  · rw [evaluateDetector_running hv h, evaluateRunning, if_pos hr, changeEngine_of_running h (by decide),
      closeEngagement_of_none hg]
  -- UNKNOWN
  · rw [evaluateDetector_unknown hv h, if_neg (by decide)]
  · rw [evaluateDetector_unknown hv h, if_pos rfl, resumeFrom, if_neg (not_le.mpr hr),
      changeEngine_of_unknown h]
    exact (evaluateDetector_stopped (p := { p with detector := { d with engine := .stopped } }) hv rfl).symm
  · rw [evaluateDetector_resumes hv h hr, enterRunning_detector]
  · obtain ⟨lost, judges, missing⟩ := countResume_judged p { p.detector with engine := .running }
    rw [evaluateDetector_resumes hv h hr, enterRunning_roleLost, lost, judges, missing]
  · rw [evaluateDetector_resumes_settled hv h hr hd hj]
    simp [countResume, hk, d]
  · rw [evaluateDetector_resumes_settled hv h hr hd hj]
    simp [countResume, hk, hc, d, addSat, max16]

end Sys2Proof.Machine
end

section
/-! The expiries of the Engine Start Detector's windows (R46, R47, R51, R52, R54). -/

namespace Sys2Proof.Machine

/-! ## Verifications queued (R54, R67) -/

/-- A component that is to be verified is PENDING while it counts (R66). -/
def Component.awaiting (c : Component) (queued : Bool) : Component :=
  if c.query ≠ none ∧ c.hold = none ∧ queued = false then { c with verification := .pending } else c

theorem awaiting_query (c : Component) (queued : Bool) : (c.awaiting queued).query = c.query := by
  unfold Component.awaiting
  split <;> rfl

theorem mem_insertSlot (n k : Nat) (l : List Nat) : k ∈ insertSlot n l ↔ k = n ∨ k ∈ l := by
  induction l with
  | nil => simp [insertSlot]
  | cons x l ih =>
    simp only [insertSlot]
    split_ifs with h1 h2
    · simp
    · subst h2; simp
    · simp only [List.mem_cons, ih]
      tauto

theorem queueVerification_slot (n : Nat) (p : Part) :
    (queueVerification n p).slot n = (p.slot n).map (·.awaiting (decide (n ∈ p.register.pollQueue))) := by
  unfold queueVerification
  cases h : p.slot n with
  | none => simp [h]
  | some c =>
    have inside := slot_lt h
    simp only [Option.map_some]
    by_cases queue : c.query.isSome = true ∧ n ∉ p.register.pollQueue
    · obtain ⟨setup, fresh⟩ := queue
      have asked : c.query ≠ none := Option.isSome_iff_ne_none.mp setup
      rw [if_pos ⟨setup, fresh⟩]
      by_cases held : c.hold = none
      · rw [if_neg (by simp [Component.held, held]), Part.setSlot_slot _ inside]
        simp [Component.awaiting, asked, held, fresh]
      · rw [if_pos (by simpa [Component.held, Option.isSome_iff_ne_none] using held)]
        simp only [Component.awaiting, held, false_and, and_false, if_false]
        exact h
    · rw [if_neg queue, h]
      have as_is : ¬(c.query ≠ none ∧ c.hold = none ∧ decide (n ∈ p.register.pollQueue) = false) := by
        rintro ⟨setup, -, fresh⟩
        exact queue ⟨Option.isSome_iff_ne_none.mpr setup, by simpa using fresh⟩
      rw [Component.awaiting, if_neg as_is]

theorem queueVerification_slot_other {n k : Nat} (h : k ≠ n) (p : Part) : (queueVerification n p).slot k = p.slot k := by
  unfold queueVerification
  split
  · split
    · dsimp only
      split
      · rfl
      · exact Part.setSlot_slot_other _ h _
    · rfl
  · rfl

theorem mem_queueVerification (n k : Nat) (p : Part) :
    k ∈ (queueVerification n p).register.pollQueue ↔
      k ∈ p.register.pollQueue ∨ k = n ∧ ((p.slot n).bind (·.query)).isSome = true := by
  unfold queueVerification
  cases h : p.slot n with
  | none => simp
  | some c =>
    simp only [Option.bind_some]
    by_cases queue : c.query.isSome = true ∧ n ∉ p.register.pollQueue
    · rw [if_pos queue]
      have inserted : k ∈ insertSlot n p.register.pollQueue ↔ k ∈ p.register.pollQueue ∨ k = n ∧ c.query.isSome = true := by
        rw [mem_insertSlot]
        simp [queue.1, or_comm]
      split <;> exact inserted
    · rw [if_neg queue]
      constructor
      · exact .inl
      · rintro (h | ⟨rfl, setup⟩)
        · exact h
        · by_contra fresh
          exact queue ⟨setup, fresh⟩

theorem foldl_queueVerification_slot {ns : List Nat} (hn : ns.Nodup) (p : Part) (k : Nat) :
    (ns.foldl (fun p n => queueVerification n p) p).slot k =
      if k ∈ ns then (p.slot k).map (·.awaiting (decide (k ∈ p.register.pollQueue))) else p.slot k := by
  induction ns generalizing p with
  | nil => rfl
  | cons n ns ih =>
    obtain ⟨fresh, hn⟩ := List.nodup_cons.mp hn
    rw [List.foldl_cons, ih hn]
    by_cases same : k = n
    · subst same
      simp [fresh, queueVerification_slot]
    · simp [same, queueVerification_slot_other same, mem_queueVerification]

theorem queueAll_slot (p : Part) {k : Nat} (h : k < 12) :
    (queueAll p).slot k = (p.slot k).map (·.awaiting (decide (k ∈ p.register.pollQueue))) := by
  rw [queueAll, slotNumbers, foldl_queueVerification_slot List.nodup_range, if_pos (List.mem_range.mpr h)]

theorem mem_queueAll {p : Part} {n : Nat} {c : Component} (h : p.slot n = some c) (hq : c.query ≠ none) :
    n ∈ (queueAll p).register.pollQueue := by
  have grows : ∀ (ns : List Nat) (q : Part), n ∈ q.register.pollQueue →
      n ∈ (ns.foldl (fun p n => queueVerification n p) q).register.pollQueue := by
    intro ns
    induction ns with
    | nil => exact fun q hq => hq
    | cons k ns ih => exact fun q hq => ih _ ((mem_queueVerification k n q).mpr (.inl hq))
  obtain ⟨before, after, split⟩ := List.append_of_mem (List.mem_range.mpr (slot_lt h))
  have distinct : (before ++ n :: after).Nodup := split ▸ List.nodup_range
  have fresh : n ∉ before := fun hx => (List.nodup_append.mp distinct).2.2 n hx n (List.mem_cons_self ..) rfl
  have stands : (before.foldl (fun p n => queueVerification n p) p).slot n = some c := by
    rw [foldl_queueVerification_slot (List.nodup_append.mp distinct).1, if_neg fresh, h]
  rw [queueAll, slotNumbers, split, List.foldl_append, List.foldl_cons]
  exact grows _ _ ((mem_queueVerification n n _).mpr
    (.inr ⟨rfl, by simpa [stands, Option.isSome_iff_ne_none] using hq⟩))

/-- The part without what queueing verifications changes. -/
def Part.unqueued (p : Part) : Part :=
  { p with register := { p.register with slots := Vector.replicate 12 none, pollQueue := [] } }

theorem queueVerification_unqueued (p : Part) (n : Nat) : (queueVerification n p).unqueued = p.unqueued := by
  unfold queueVerification
  split
  · split
    · dsimp only
      split <;> rfl
    · rfl
  · rfl

/-- Queueing changes the slots' verification and the queue, and nothing else. -/
theorem queueAll_eq (p : Part) :
    queueAll p =
      { p with
        register := { p.register with
          slots := Vector.ofFn fun n => (p.slot n.val).map (·.awaiting (decide (n.val ∈ p.register.pollQueue)))
          pollQueue := (queueAll p).register.pollQueue } } := by
  have rest : (queueAll p).unqueued = p.unqueued := foldl_keeps Part.unqueued queueVerification_unqueued slotNumbers p
  have slots : (queueAll p).register.slots =
      Vector.ofFn fun n => (p.slot n.val).map (·.awaiting (decide (n.val ∈ p.register.pollQueue))) := by
    ext k hk : 1
    have at_ := queueAll_slot p hk
    simpa [Part.slot, hk] using at_
  generalize queueAll p = q at rest slots ⊢
  rw [← slots]
  have restored := congrArg
    (fun r : Part => { r with
      register := { r.register with slots := q.register.slots, pollQueue := q.register.pollQueue } }) rest
  exact restored

/-- A slot queued for verification is still queued, or in hand, when the part has settled (R67). -/
theorem settle_polls (m : Medium) {p : Part} {n : Nat} (h : n ∈ p.register.pollQueue)
    (hq : ((p.slot n).bind (·.query)).isSome = true) :
    n ∈ (settle m p).register.pollQueue ∨ (settle m p).register.inHand = some { slot := n, attempt := 1 } := by
  have granted := grant_register m p
  have next : n ∈ (probeNext (grant m p)).register.pollQueue ∨
      (probeNext (grant m p)).register.inHand = some { slot := n, attempt := 1 } := by
    have attempt : ∀ (k : Nat) (q : Part), (startAttempt k q).register.pollQueue = q.register.pollQueue := by
      intro k q
      unfold startAttempt
      split <;> rfl
    rw [← granted] at h
    unfold probeNext
    dsimp only
    split
    · exact .inl h
    · exact .inl h
    · exact .inl ((attempt _ _).symm ▸ h)
    · rename_i k rest _ _ _ queue
      rcases List.mem_cons.mp (queue ▸ h) with rfl | later
      · obtain ⟨setup, hs⟩ := Option.isSome_iff_exists.mp hq
        right
        simp only [startAttempt, Part.slot, granted]
        rw [show (p.register.slots[n]?.join.bind (·.query)) = some setup from hs]
        rfl
      · exact .inl ((attempt _ _).symm ▸ later)
    · exact .inl h
  unfold settle
  split
  · exact .inl h
  · split
    · rw [granted]
      exact .inl h
    · rw [settleQuiet_register, transmitSettle_register]
      exact next

end Sys2Proof.Machine
end

section
/-! Window A's and window B's expiry (R46, R47, R51, R52). -/

namespace Sys2Proof.Machine

/-! ## Window A (R46) -/

theorem expireWindowA_fails {p : Part} {a : Attempt} (h : p.detector.engine = .cranking)
    (ha : p.detector.attempt = some a) :
    p.fails a (10 * p.modeCtl.active.limits.windowA)
      { p with
        detector := p.detector.put .cranking (some (p.opened p.starterActive none))
          (some (1000 * p.modeCtl.active.limits.windowA)) none }
      (expireWindowA p) := by
  rw [expireWindowA, if_pos h]
  exact fails_cranking ha _ (.inl h)

theorem slotOfKind_slot {p : Part} {kind : Kind} {n : Nat} (h : p.slotOfKind kind = some n) :
    ∃ c, p.slot n = some c := by
  have holds := List.find?_some h
  cases hc : p.slot n with
  | none => simp [hc] at holds
  | some c => exact ⟨c, rfl⟩

/-- A failed attempt leaves the detector as it is to be, whether its event is credited or not. -/
theorem Part.fails.detector {p q result : Part} {a : Attempt} {tenths : Nat} (h : p.fails a tenths q result) :
    result.detector = q.detector := by
  obtain ⟨uncredited, credited⟩ := h
  by_cases none : a.starterSeen = false ∨ p.modeCtl.mode ≠ .active ∨ p.slotOfKind .starter = none
  · rw [uncredited none]
  · simp only [not_or, Bool.not_eq_false, not_not] at none
    obtain ⟨seen, hm, hk⟩ := none
    obtain ⟨n, hn⟩ := Option.ne_none_iff_exists'.mp hk
    obtain ⟨c, hc⟩ := slotOfKind_slot hn
    rw [credited n c seen hm hn hc]
    rfl

/-! ## The credits of a start (R51, R52) -/

/-- A credit to the slot of a kind, made where one is installed (R59). -/
def creditKind (kind : Kind) (a : Credit) (p : Part) : Part :=
  match p.slotOfKind kind with
  | none => p
  | some n => creditSlot n a p

theorem creditKind_still (kind : Kind) (a : Credit) (p : Part) : (creditKind kind a p).still = p.still := by
  unfold creditKind
  split
  · rfl
  · exact creditSlot_still _ a p

theorem creditKind_link (kind : Kind) (a : Credit) (p : Part) : (creditKind kind a p).link = p.link := by
  unfold creditKind creditSlot
  split
  · rfl
  · split <;> rfl

theorem creditKind_pollQueue (kind : Kind) (a : Credit) (p : Part) :
    (creditKind kind a p).register.pollQueue = p.register.pollQueue := by
  unfold creditKind creditSlot
  split
  · rfl
  · split <;> rfl

theorem creditKind_setDetector (kind : Kind) (a : Credit) (d : Detector) (p : Part) :
    creditKind kind a { p with detector := d } = { creditKind kind a p with detector := d } := by
  have kinds : ({ p with detector := d } : Part).slotOfKind kind = p.slotOfKind kind := rfl
  unfold creditKind
  rw [kinds]
  cases p.slotOfKind kind with
  | none => rfl
  | some n =>
    have slot : ({ p with detector := d } : Part).slot n = p.slot n := rfl
    simp only [creditSlot, slot]
    cases p.slot n <;> rfl

/-- The kinds in the slots decide the slot of a kind. -/
theorem slotOfKind_of_still {p q : Part} (h : q.still = p.still) (kind : Kind) : q.slotOfKind kind = p.slotOfKind kind := by
  have faces : ∀ (r : Part) n, (r.slot n).any (·.kind == kind) = (r.still.slot n).any (·.kind == kind) := by
    intro r n
    simp only [Part.slot, Part.still, Vector.getElem?_map]
    cases hs : r.register.slots[n]? with
    | none => rfl
    | some slot => cases slot <;> rfl
  have kinds : ∀ n, (q.slot n).any (·.kind == kind) = (p.slot n).any (·.kind == kind) := fun n => by
    rw [faces q, h, ← faces p]
  simp only [Part.slotOfKind, kinds]

theorem startCredit_eq (p : Part) :
    startCredit p = if p.modeCtl.mode = .active then creditKind .engine { events := 1 } p else p := by
  unfold startCredit creditKind
  by_cases h : p.modeCtl.mode = .active
  · exact (if_neg (not_not.mpr h)).trans (if_pos h).symm
  · exact (if_pos h).trans (if_neg h).symm

theorem starterEvent_start (tenths : Nat) (coolant : Option Int) (p : Part) :
    starterEvent tenths coolant false p =
      if p.modeCtl.mode = .active then
        creditKind .starter (p.placed .starter (some (tenths : Int)) coolant coolant 1 tenths 1) p
      else p := by
  unfold starterEvent creditKind
  by_cases h : p.modeCtl.mode = .active
  · exact (if_neg (not_not.mpr h)).trans (if_pos h).symm
  · exact (if_pos h).trans (if_neg h).symm

/-- The part with the starter event of an attempt that ends START credited when the starter was seen (R52). -/
def Part.starterCounted (p : Part) : Part :=
  match p.detector.attempt with
  | some a =>
    if a.starterSeen then
      creditKind .starter
        (p.placed .starter (some (p.attemptDuration : Int)) a.coolant a.coolant 1 p.attemptDuration 1) p
    else p
  | none => p

/-- The part with the start credited, in ACTIVE (R51, R52). -/
def Part.startCounted (p : Part) : Part :=
  if p.modeCtl.mode = .active then creditKind .engine { events := 1 } p.starterCounted else p

theorem starterCounted_still (p : Part) : p.starterCounted.still = p.still := by
  unfold Part.starterCounted
  split
  · split
    · exact creditKind_still _ _ p
    · rfl
  · rfl

theorem startCounted_still (p : Part) : p.startCounted.still = p.still := by
  unfold Part.startCounted
  split
  · exact (creditKind_still _ _ _).trans (starterCounted_still p)
  · rfl

theorem startCounted_link (p : Part) : p.startCounted.link = p.link := by
  unfold Part.startCounted Part.starterCounted
  split
  · rw [creditKind_link]
    split
    · split
      · exact creditKind_link _ _ p
      · rfl
    · rfl
  · rfl

theorem startCounted_pollQueue (p : Part) : p.startCounted.register.pollQueue = p.register.pollQueue := by
  unfold Part.startCounted Part.starterCounted
  split
  · rw [creditKind_pollQueue]
    split
    · split
      · exact creditKind_pollQueue _ _ p
      · rfl
    · rfl
  · rfl

/-- A credit leaves a slot's query setup. -/
theorem creditKind_query (kind : Kind) (a : Credit) (p : Part) (n : Nat) :
    ((creditKind kind a p).slot n).bind (·.query) = (p.slot n).bind (·.query) := by
  have credit : ∀ c : Component, (c.credit a).query = c.query := by
    intro c
    unfold Component.credit
    split
    · cases h : a.place <;> simp only [Component.creditFigures, h] <;> rfl
    · rfl
  unfold creditKind creditSlot
  split
  · rfl
  · split
    · rfl
    · rename_i k _ _ c hc
      by_cases same : n = k
      · subst same
        refine (congrArg (·.bind (·.query)) (Part.setSlot_slot p (slot_lt hc) _)).trans ?_
        simp [hc, credit]
      · exact congrArg (·.bind (·.query)) (Part.setSlot_slot_other p same _)

theorem startCounted_query (p : Part) (n : Nat) :
    (p.startCounted.slot n).bind (·.query) = (p.slot n).bind (·.query) := by
  unfold Part.startCounted Part.starterCounted
  split
  · rw [creditKind_query]
    split
    · split
      · exact creditKind_query _ _ p n
      · rfl
    · rfl
  · rfl

/-- The attempt's end and the start's credit. -/
theorem startCredit_endAttempt (p : Part) :
    startCredit (endAttempt false p.attemptDuration p) = { p.startCounted with detector := p.attemptEnded.detector } := by
  have ended : endAttempt false p.attemptDuration p =
      if p.modeCtl.mode = .active then { p.starterCounted with detector := p.attemptEnded.detector }
      else p.attemptEnded := by
    unfold Part.starterCounted
    cases ha : p.detector.attempt with
    | none =>
      simp only [endAttempt, ha]
      exact (ite_self p.attemptEnded).symm
    | some a =>
      rw [endAttempt_eq ha, starterEvent_start]
      by_cases seen : a.starterSeen = true
      · simp only [seen, if_true]
        by_cases hm : p.modeCtl.mode = .active
        · rw [if_pos hm]
          refine (if_pos hm).trans ?_
          exact creditKind_setDetector .starter _ p.attemptEnded.detector p
        · rw [if_neg hm]
          exact if_neg hm
      · simp only [seen, Bool.false_eq_true, if_false]
        exact (ite_self p.attemptEnded).symm
  have mode : (endAttempt false p.attemptDuration p).modeCtl.mode = p.modeCtl.mode :=
    keeps_of_still (fun q => q.modeCtl.mode) (fun _ => rfl) (endAttempt_still false _ p)
  rw [startCredit_eq, mode, ended, Part.startCounted]
  by_cases hm : p.modeCtl.mode = .active
  · simp only [if_pos hm]
    exact creditKind_setDetector .engine _ _ _
  · simp only [if_neg hm]
    rfl

/-! ## Window B (R47) -/

/-- The detector when the engine runs. -/
def Detector.started (first : Bool) : Detector :=
  { engine := .running, attempt := none, windowA := none, windowB := none, firstRun := first }

theorem expireWindowB_eq {p : Part} (h : p.detector.engine = .catching) :
    expireWindowB p = enterRunning { p.startCounted with detector := Detector.started p.detector.firstRun } := by
  rw [expireWindowB, if_pos h, startCredit_endAttempt]
  exact changeEngine_to_running (p := { p.startCounted with detector := p.attemptEnded.detector })
    (by simp [Part.attemptEnded, h]) (by simp [Part.attemptEnded, h])

/-- ROLE_LOST after the entry into RUNNING of an AWAKE part (R20). -/
def Part.lostAtStart (p : Part) : Bool :=
  p.link.roleLost ||
    (p.modeCtl.mode == .active && p.modeCtl.ignition &&
      (List.range 10).any fun r => p.register.requires r && (p.role r).source == .none)

theorem roleJudged_started {p : Part} (ha : p.awake = true) (d : Detector) :
    ({ p.startCounted with detector := d } : Part).roleJudged =
      { p.startCounted with detector := d, link := { p.link with roleLost := p.lostAtStart } } := by
  have still : ({ p.startCounted with detector := d } : Part).still = p.still := startCounted_still p
  have missing := missingRole_of_still still
  have judges : ({ p.startCounted with detector := d } : Part).judgesRoles = p.judgesRoles :=
    keeps_of_still Part.judgesRoles (fun _ => rfl) still
  have unusable : ∀ r : Role, (!r.usable) = (r.source == .none) := by
    intro r
    simp only [Role.usable, bne, Bool.not_not]
  have judged : (p.judgesRoles && p.missingRole) =
      (p.modeCtl.mode == .active && p.modeCtl.ignition &&
        (List.range 10).any fun r => p.register.requires r && (p.role r).source == .none) := by
    simp only [Part.judgesRoles, Part.missingRole, (awake_parts ha).2.1, unusable, Bool.not_false, Bool.true_and]
  have raised : ∀ q : Part, q.link = p.link → q.judgesRoles = p.judgesRoles → q.missingRole = p.missingRole →
      q.roleJudged = { q with link := { p.link with roleLost := p.lostAtStart } } := by
    intro q hl hj hm
    simp only [Part.roleJudged, hl, hj, hm, judged, Part.lostAtStart]
  exact raised _ (startCounted_link p) judges missing

/-- The slots after the entry into RUNNING: at the first run each COUNTING slot that is queued is PENDING (R54, R66). -/
def Part.slotsAtStart (p : Part) (first : Bool) : Vector (Option Component) 12 :=
  Vector.ofFn fun n => (p.startCounted.slot n.val).map fun c =>
    if first = true ∧ c.query ≠ none ∧ c.hold = none ∧ n.val ∉ p.register.pollQueue then
      { c with verification := .pending }
    else c

theorem slotsAtStart_query (p : Part) (first : Bool) {n : Nat} (h : n < 12) :
    (((p.slotsAtStart first)[n]?).join).bind (·.query) = (p.slot n).bind (·.query) := by
  rw [← startCounted_query]
  simp only [Part.slotsAtStart, h, Vector.getElem?_eq_getElem, Vector.getElem_ofFn, Option.join_some]
  cases p.startCounted.slot n with
  | none => rfl
  | some c =>
    simp only [Option.map_some, Option.bind_some]
    split <;> rfl

/-- What window B's expiry makes of the part (R47, R51, R54). -/
theorem expireWindowB_started {p : Part} (ha : p.awake = true) (h : p.detector.engine = .catching) :
    ∃ poll, expireWindowB p =
      { p.startCounted with
        detector := Detector.started false
        link := { p.link with roleLost := p.lostAtStart }
        register := { p.startCounted.register with
          slots := p.slotsAtStart p.detector.firstRun
          pollQueue := poll } } ∧
      (p.detector.firstRun = true → ∀ n c, p.slot n = some c → c.query ≠ none → n ∈ poll) := by
  have entered := enterRunning_eq { p.startCounted with detector := Detector.started p.detector.firstRun }
  rw [roleJudged_started ha, ← expireWindowB_eq h] at entered
  cases first : p.detector.firstRun with
  | true =>
    have slots : p.slotsAtStart true =
        Vector.ofFn fun n => (p.startCounted.slot n.val).map
          (·.awaiting (decide (n.val ∈ p.startCounted.register.pollQueue))) := by
      simp only [Part.slotsAtStart, Component.awaiting, startCounted_pollQueue, true_and, decide_eq_false_iff_not]
    have queued := (entered.trans (if_pos first)).trans (queueAll_eq _)
    rw [slots]
    refine ⟨_, queued, fun _ n c hc hq => ?_⟩
    have asks : (p.startCounted.slot n).bind (·.query) = c.query := by rw [startCounted_query, hc, Option.bind_some]
    cases hs : p.startCounted.slot n with
    | none => exact absurd (asks.symm.trans (by rw [hs]; rfl)) hq
    | some c' =>
      rw [hs, Option.bind_some] at asks
      exact mem_queueAll hs (asks ▸ hq)
  | false =>
    have slots : p.slotsAtStart false = p.startCounted.register.slots := by
      ext k hk : 1
      simp [Part.slotsAtStart, Part.slot, hk]
    refine ⟨p.startCounted.register.pollQueue, (entered.trans (if_neg (by simp [Detector.started, first]))).trans ?_,
      fun h => absurd h (by decide)⟩
    rw [slots, first]

/-! ## The START's credit by figures (R51, R59, R60) -/

theorem addWear_zero {units residue : Nat} (hu : units ≤ wearLimit) (hr : residue < wearUnit) :
    addWear units residue 0 = (units, residue, false) := by
  have none : residue / wearUnit = 0 := Nat.div_eq_of_lt hr
  simp [addWear, none, Nat.mod_eq_of_lt hr, Nat.not_lt.mpr hu]

theorem addSat_zero {limit a : Nat} (h : a ≤ limit) : addSat limit a 0 = a := by
  simp [addSat, h]

/-- One event credited to a COUNTING slot whose figures are in range. -/
theorem credit_event_counting {c : Component} (hr : c.ranged = true) (hh : c.hold = none) :
    c.credit { events := 1 } =
      { c with
        events := min 4294967295 (c.events + 1)
        saturated := c.saturated || decide (4294967295 < c.events + 1) } := by
  simp only [Component.ranged, Bool.and_eq_true, decide_eq_true_eq] at hr
  obtain ⟨⟨⟨⟨⟨⟨-, time⟩, -⟩, unobserved⟩, units⟩, residue⟩, -⟩ := hr
  have wear := addWear_zero units residue
  simp only [Component.credit, hh, Component.creditFigures, Component.place, wear, addSat_zero time,
    addSat_zero unobserved]
  simp [addSat, passes, max32, Nat.not_lt.mpr time, Nat.not_lt.mpr unobserved]

/-- One event credited to the pool of a HELD slot whose figures are in range. -/
theorem credit_event_held {c : Component} {h : Hold} (hh : c.hold = some h) (hr : h.pool.ranged = true) :
    c.credit { events := 1 } =
      { c with hold := some { h with pool := { h.pool with events := min 4294967295 (h.pool.events + 1) } } } := by
  simp only [Pool.ranged, Bool.and_eq_true, decide_eq_true_eq] at hr
  obtain ⟨⟨⟨⟨-, time⟩, unobserved⟩, units⟩, residue⟩ := hr
  simp only [Component.credit, hh, Pool.credit, addWear_zero units residue, addSat_zero time, addSat_zero unobserved]
  rfl

/-- Settles O20: window A ends an attempt and opens the next, window B credits the start and enters RUNNING. -/
theorem windowExpiriesAct : Obligations.WindowExpiriesAct := by
  refine ⟨fun s a ha he hw hat => ?_, fun s ha he hw => ?_⟩
  · intro p window detector
    have fails := expireWindowA_fails he hat
    have put : s.part.detector.put .cranking (some (p.opened p.starterActive none)) (some (1000 * window)) none =
        detector := by
      simp only [Detector.put, ← he]
      rfl
    have effect : (if s.part.detector.windowA.isSome then expireWindowA s.part else s.part) = expireWindowA s.part :=
      if_pos hw
    have restore : (expireWindowA s.part).restore = none :=
      ((expireWindowA_updated s.part).applied.keeps Part.restore fun _ => rfl).trans (awake_parts ha).2.2.2
    have leaves : ∀ q : Part, expireWindowA s.part = q → Leaves .windowAExpiry s q fun _ => True := fun q hq =>
      leaves_of_runAwake rfl ha (by rw [effect]; exact restore) (by rw [effect, hq]) trivial
    refine ⟨?_, fun none => ?_, fun n c hm seen hk hc => ?_⟩
    · obtain ⟨t, step, lasting, -, medium, pending⟩ := leaves _ rfl
      refine ⟨t, step, ?_, medium, pending⟩
      have kept : t.part.detector = (expireWindowA s.part).detector :=
        (congrArg Part.detector lasting : t.part.lasting.detector = (expireWindowA s.part).lasting.detector)
      rw [kept, fails.detector]
      exact put
    · refine leaves _ ((fails.1 ?_).trans ?_)
      · tauto
      · rw [← put]
    · refine leaves _ ((fails.2 n c seen hm hk hc).trans ?_)
      rw [← put]
      rfl
  · intro p start credited starter counted missing
    have credits : ∀ kind a (q : Part), q.slotOfKind kind = p.slotOfKind kind →
        credited kind a q = creditKind kind a q := by
      intro kind a q same
      simp only [credited, creditKind, same]
      cases p.slotOfKind kind with
      | none => rfl
      | some n => rfl
    have starts : starter = p.starterCounted := by
      unfold starter Part.starterCounted Part.attemptDuration
      cases p.detector.attempt with
      | none => rfl
      | some a =>
        simp only [credits .starter _ p rfl]
        rfl
    have counts : counted = p.startCounted := by
      unfold counted Part.startCounted
      rw [credits .engine start starter (starts ▸ slotOfKind_of_still (starterCounted_still p) .engine), starts]
    refine ⟨?_, fun c hr => ⟨credit_event_counting hr, fun h hh hp => credit_event_held hh hp⟩⟩
    obtain ⟨poll, expired, queued⟩ := expireWindowB_started ha he
    have effect : (if s.part.detector.windowB.isSome then expireWindowB s.part else s.part) = expireWindowB s.part :=
      if_pos hw
    have restore : (expireWindowB s.part).restore = none :=
      ((expireWindowB_updated s.part).applied.keeps Part.restore fun _ => rfl).trans (awake_parts ha).2.2.2
    refine leaves_of_runAwake rfl ha (by rw [effect]; exact restore) ?_ ?_
    · rw [effect, expired, counts]
      rfl
    · rw [effect]
      intro first n c hc hq
      refine settle_polls s.medium ?_ ?_
      · rw [expired]
        exact queued first n c hc hq
      · rw [expired]
        refine (congrArg Option.isSome (slotsAtStart_query s.part _ (slot_lt hc))).trans ?_
        rw [show s.part.slot n = some c from hc]
        exact Option.isSome_iff_ne_none.mpr hq

end Sys2Proof.Machine
end

section
/-! What the settling after an event keeps of the mode controller, the channels and the ring's pointer (R35, R123, R178). -/

namespace Sys2Proof.Machine

/-! ## The mode controller -/

theorem probeNext_modeCtl (p : Part) : (probeNext p).modeCtl = p.modeCtl := by
  have attempt : ∀ n q, (startAttempt n q).modeCtl = q.modeCtl := by
    intro n q
    unfold startAttempt
    split <;> rfl
  unfold probeNext
  dsimp only
  split
  · rfl
  · rfl
  · exact attempt _ _
  · exact attempt _ _
  · rfl

theorem transmitSettle_modeCtl (p : Part) : (transmitSettle p).modeCtl = p.modeCtl := by
  have offers : ∀ q, (linkOffers q).modeCtl = q.modeCtl :=
    linkOffers_keeps Part.modeCtl (fun _ _ _ => by simp) (fun _ _ => rfl)
  have a : ∀ q, (fillA q).modeCtl = q.modeCtl := by
    intro q
    unfold fillA
    split
    · split <;> rfl
    · rfl
  have b : ∀ q, (fillB q).modeCtl = q.modeCtl := by
    intro q
    unfold fillB
    split
    · split <;> rfl
    · rfl
  rw [transmitSettle, offers, b, a, offers]

theorem grant_modeCtl (m : Medium) (p : Part) : (grant m p).modeCtl = p.modeCtl :=
  grant_keeps Part.modeCtl (fun _ _ => rfl) (fun _ _ _ => by simp) m p

/-- The settling of an AWAKE part ends with the quiet timer's, on a part whose mode controller is as it was (R35). -/
theorem settle_awake (m : Medium) {p : Part} (h : p.awake = true) :
    ∃ q : Part, settle m p = settleQuiet q ∧ q.modeCtl = p.modeCtl := by
  obtain ⟨live, awake, -, -⟩ := awake_parts h
  refine ⟨transmitSettle (probeNext (grant m p)), ?_, ?_⟩
  · simp [settle, live, awake]
  · rw [transmitSettle_modeCtl, probeNext_modeCtl, grant_modeCtl]

/-- The settling moves nothing of the mode controller but the quiet timer. -/
theorem settle_modeCtl_keeps {β : Type} (g : ModeCtl → β) (hg : ∀ m quiet, g { m with quiet := quiet } = g m)
    (m : Medium) (p : Part) : g (settle m p).modeCtl = g p.modeCtl := by
  unfold settle
  split
  · rfl
  · split
    · rw [grant_modeCtl]
    · have quiet : ∀ q : Part, g (settleQuiet q).modeCtl = g q.modeCtl := fun q => hg q.modeCtl _
      rw [quiet, transmitSettle_modeCtl, probeNext_modeCtl, grant_modeCtl]

theorem settle_sleepWait (m : Medium) (p : Part) : (settle m p).modeCtl.sleepWait = p.modeCtl.sleepWait :=
  settle_modeCtl_keeps ModeCtl.sleepWait (fun _ _ => rfl) m p

/-! ## The channels -/

theorem offerNext_chan_state (ch d : Channel) (port : PortId) (p : Part) :
    ((offerNext d port p).chan ch).state = (p.chan ch).state := by
  have written : ∀ c : Chan, c.state = (p.chan d).state → ((p.setChan d c).chan ch).state = (p.chan ch).state := by
    intro c hc
    by_cases same : ch = d
    · subst same
      rw [Part.setChan_chan, hc]
    · rw [Part.setChan_other _ _ same]
  unfold offerNext
  split
  · rfl
  · dsimp only
    split
    · rw [offerFrame_chan]
      exact written _ (setBusy_same _ port none).1
    · split
      · split
        · rfl
        · rw [offerFrame_chan]
          exact written _ rfl
      · rfl

/-- With no reader waiting, the settling changes no channel's state. -/
theorem settle_chan_state (m : Medium) {p : Part} (h : p.storage.readers = []) (ch : Channel) :
    ((settle m p).chan ch).state = (p.chan ch).state := by
  have granted : (grant m p).chan ch = p.chan ch := (grant_same m p (by simp [h])).1
  have offers : ∀ q, ((linkOffers q).chan ch).state = (q.chan ch).state := by
    intro q
    simp only [linkOffers, offerNext_chan_state]
  have quiet : ∀ q, ((settleQuiet q).chan ch).state = (q.chan ch).state := by
    intro q
    cases ch <;> rfl
  unfold settle
  split
  · rfl
  · split
    · rw [granted]
    · rw [quiet, transmitSettle, offers, fillB_chan, fillA_chan, offers, (probeNext_same _).1, granted]

/-! ## The ring's pointer -/

/-- The ring's records and the Forwarder's place in them (R123, R125, R132). -/
def Ring.place (r : Ring) : List RingRecord × Word32 × Option Nat × Nat := (r.records, r.pointer, r.age, r.expired)

theorem offerNext_place (ch : Channel) (port : PortId) (p : Part) : (offerNext ch port p).ring.place = p.ring.place := by
  have offer : ∀ (f : TxFrame) (q : Part), (offerFrame ch port f q).ring.place = q.ring.place := by
    intro f q
    cases port <;> cases ch <;> rfl
  unfold offerNext
  split
  · rfl
  · dsimp only
    split
    · rw [offer, Part.setChan_ring]
    · split
      · split
        · rfl
        · rw [offer, Part.setChan_ring]
      · rfl

theorem linkOffers_place (p : Part) : (linkOffers p).ring.place = p.ring.place := by
  simp only [linkOffers, offerNext_place]

theorem fillA_place (p : Part) : (fillA p).ring.place = p.ring.place := by
  unfold fillA
  split
  · split <;> rfl
  · rfl

theorem fillB_place {p : Part} (h : p.ring.records = []) : (fillB p).ring.place = p.ring.place := by
  have none : p.ring.pointerRecord = none := by simp [Ring.pointerRecord, Ring.find, h]
  unfold fillB
  rw [none]
  split
  · split
    · rfl
    · rfl
    · rfl
    · rename_i waiting
      exact absurd waiting (by simp)
    · rfl
  · rfl

theorem probeNext_place (p : Part) : (probeNext p).ring.place = p.ring.place := by
  have attempt : ∀ n q, (startAttempt n q).ring.place = q.ring.place := by
    intro n q
    unfold startAttempt
    split <;> rfl
  unfold probeNext
  dsimp only
  split
  · rfl
  · rfl
  · exact attempt _ _
  · exact attempt _ _
  · rfl

/-- The Forwarder stays where it is while the ring is empty or port B's transmitter holds a frame. -/
theorem settle_place (m : Medium) {p : Part} (h : p.ring.records = [] ∨ p.portB.tx.isSome = true) :
    (settle m p).ring.place = p.ring.place := by
  have granted : (grant m p).ring = p.ring := grant_keeps Part.ring (fun _ _ => rfl) (fun _ _ _ => by simp) m p
  have before : (fillA (linkOffers (probeNext (grant m p)))).ring.place = p.ring.place := by
    rw [fillA_place, linkOffers_place, probeNext_place, granted]
  have filled : (fillB (fillA (linkOffers (probeNext (grant m p))))).ring.place = p.ring.place := by
    rcases h with empty | held
    · exact (fillB_place ((congrArg Prod.fst before).trans empty)).trans before
    · have tx : (fillA (linkOffers (probeNext (grant m p)))).portB = p.portB := by
        rw [fillA_portB, linkOffers_portB, (probeNext_ports _).2, grant_portB]
      rw [fillB_held (by rw [tx]; exact held), before]
  have quiet : ∀ q : Part, (settleQuiet q).ring = q.ring := fun _ => rfl
  unfold settle
  split
  · rfl
  · split
    · rw [granted]
    · rw [quiet, transmitSettle, linkOffers_place, filled]

end Sys2Proof.Machine
end

section
/-! The quiet period, sleep and wake (R3, R34, R35, R36, R53, R133). -/

namespace Sys2Proof.Machine

/-! ## The quiet timer (R35, R53) -/

theorem changeEngine_quiet {p : Part} {engine : EngineState} (h : p.detector.engine = .stopped)
    (hn : engine ≠ .stopped) : (changeEngine engine p).modeCtl.quiet = none := by
  by_cases running : engine = .running
  · subst running
    have entered : ∀ q : Part, (enterRunning q).modeCtl = q.modeCtl := by
      intro q
      rw [enterRunning_eq]
      split
      · rw [queueAll_eq]
        rfl
      · rfl
    simp only [changeEngine, h, reduceCtorEq, if_false, if_true]
    rw [entered]
    rfl
  · rw [changeEngine_of_stopped h hn running]
    rfl

theorem quiet_iff (p : Part) :
    p.quiet = true ↔
      p.modeCtl.ignition = false ∧ p.detector.engine = .stopped ∧ (p.chan .fleet).state = .idle ∧
        (p.chan .service).state = .idle ∧ p.capture.anyOpen = false ∧ p.modeCtl.save = .idle ∧
        p.modeCtl.sleepWait = none ∧ p.storage.bus = none ∧ p.storage.short.state = .idle ∧
        p.storage.full.state = .idle ∧ p.storage.archive = [] ∧ p.storage.captureJobs = [] ∧ p.storage.readers = [] := by
  simp only [Part.quiet, Part.arbiterBusy, Part.chan, Bool.and_eq_true, Bool.not_eq_true', beq_iff_eq, Bool.or_eq_false_iff,
    bne_eq_false_iff_eq, Option.isNone_iff_eq_none, Option.isSome_eq_false_iff, Bool.not_eq_false', List.isEmpty_iff]
  tauto

/-- After every event of an AWAKE part the quiet timer runs exactly while its conditions hold. -/
theorem settle_quiet (m : Medium) {p : Part} (h : p.awake = true) :
    (settle m p).modeCtl.quiet =
      if (settle m p).quiet = true then some (p.modeCtl.quiet.getD quietPeriod) else none := by
  obtain ⟨q, settled, same⟩ := settle_awake m h
  rw [settled, ← same]
  rfl

theorem settle_quiet_of_not {m : Medium} {p : Part} (h : p.awake = true) (hq : (settle m p).quiet = false) :
    (settle m p).modeCtl.quiet = none := by
  rw [settle_quiet m h, if_neg (by simp [hq])]

theorem expireQuiet_checkpointing (p : Part) : (expireQuiet p).checkpointing = true := by
  have state := requestFull_state .sleep (some .sleep)
    { p with modeCtl := { p.modeCtl with quiet := none, sleepWait := some false } }
  simpa [Part.checkpointing, expireQuiet] using state

/-! ## Wakes (R3, R36) -/

theorem asleep_parts {p : Part} (hl : p.live = true) (ha : p.modeCtl.asleep = true) :
    p.powered = true ∧ p.restore = none ∧ (wake p).awake = true := by
  simp only [Part.live, Bool.and_eq_true, Option.isNone_iff_eq_none] at hl
  exact ⟨hl.1, hl.2, by simp [Part.awake, Part.live, wake, hl.1, hl.2]⟩

/-- A frame that wakes the part is counted by the part it wakes. -/
theorem wake_countReceived (port : PortId) (svc : Bool) (p : Part) :
    wake (countReceived port (sampleSvc svc p)) = noteWakeCause (countReceived port (sampleSvc svc (wake p))) := by
  cases port <;> rfl

/-- A wake cause is received by a sleeping part as by the part so woken (R3, R36). -/
theorem receiveFrame_wake {port : PortId} {f : Frame} {svc : Bool} {p : Part} (hl : p.live = true)
    (ha : p.modeCtl.asleep = true) (hb : (p.port port).state ≠ .busOff) (hw : isWakeCause port f = true) :
    receiveFrame port f (sampleSvc svc p) = receiveFrame port f (sampleSvc svc (wake p)) := by
  obtain ⟨powered, restore, -⟩ := asleep_parts hl ha
  have before : (sampleSvc svc p).receives port = true := by
    cases port <;> simpa [Part.receives, sampleSvc, powered, Part.port] using hb
  have after : (sampleSvc svc (wake p)).receives port = true := by
    cases port <;> simp [Part.receives, sampleSvc, wake, Port.wake, powered, Part.port]
  have idle : ∀ q : Part, q.restore = none → (countReceived port (sampleSvc svc q)).restore.isSome = false := by
    intro q hq
    simp [countReceived, sampleSvc, hq]
  have wakes : wakeCause (countReceived port (sampleSvc svc p)) =
      wakeCause (countReceived port (sampleSvc svc (wake p))) := by
    have asleep : (countReceived port (sampleSvc svc p)).modeCtl.asleep = true := by cases port <;> exact ha
    have awake : (countReceived port (sampleSvc svc (wake p))).modeCtl.asleep = false := by cases port <;> rfl
    simp only [wakeCause, asleep, awake, if_true, Bool.false_eq_true, if_false, wake_countReceived]
  unfold receiveFrame
  simp only [before, after, idle p restore, idle (wake p) restore, hw, wakes, Bool.true_eq_false, Bool.false_eq_true,
    if_false, if_true]

/-- A sleeping part counts any other frame on port B and discards it (R3). -/
theorem receiveFrame_discarded {f : Frame} {svc : Bool} {p : Part} (hl : p.live = true) (ha : p.modeCtl.asleep = true)
    (hb : p.portB.state ≠ .busOff) (hw : isWakeCause .b f = false) :
    receiveFrame .b f (sampleSvc svc p) = countReceived .b (sampleSvc svc p) := by
  obtain ⟨powered, restore, -⟩ := asleep_parts hl ha
  have receives : (sampleSvc svc p).receives .b = true := by
    simpa [Part.receives, sampleSvc, powered, Part.port] using hb
  have idle : (countReceived .b (sampleSvc svc p)).restore.isSome = false := by simp [countReceived, sampleSvc, restore]
  have asleep : (countReceived .b (sampleSvc svc p)).modeCtl.asleep = true := ha
  unfold receiveFrame
  simp only [receives, idle, hw, asleep, Bool.true_eq_false, Bool.false_eq_true, if_false, if_true]

theorem isWakeCause_b_iff (f : Frame) :
    isWakeCause .b f = true ↔ f.format = .base ∧ (f.ident = 0x6E0 ∨ f.ident = 0x6F0) := by
  simp only [isWakeCause, Bool.and_eq_true, Bool.or_eq_true, beq_iff_eq, ← BitVec.toNat_inj]
  rfl

/-- The state whose part has been woken goes on from an event like the sleeping one. -/
theorem after_wake (s : State) (q : Part) : ({ s with part := wake s.part } : State).after q = s.after q := rfl

/-- A request is taken by a sleeping part as by the part it wakes (R36). -/
theorem presentMessage_wake {src : Source} {msg : List Byte} {run : Channel → Part → Part} {p : Part}
    (hl : p.live = true) (ha : p.modeCtl.asleep = true) (hb : (p.port (sourcePort src)).state ≠ .busOff) :
    presentMessage src msg run p = presentMessage src msg run (wake p) := by
  obtain ⟨powered, restore, -⟩ := asleep_parts hl ha
  have before : (sampleSource src p).live = true := by cases src <;> exact hl
  have after : (sampleSource src (wake p)).live = true := by cases src <;> exact hl
  have port : ((sampleSource src p).port (sourcePort src)).state ≠ .busOff := by
    cases src with
    | fleet => exact hb
    | service id svc => cases id <;> exact hb
  have woken : ((sampleSource src (wake p)).port (sourcePort src)).state ≠ .busOff := by
    cases src with
    | fleet => simp [sampleSource, sourcePort, Part.port, wake, Port.wake]
    | service id svc => cases id <;> simp [sampleSource, sampleSvc, sourcePort, Part.port, wake, Port.wake]
  have wakes : wakeCause (sampleSource src p) = wakeCause (sampleSource src (wake p)) := by
    have asleep : (sampleSource src p).modeCtl.asleep = true := by cases src <;> exact ha
    have awake : (sampleSource src (wake p)).modeCtl.asleep = false := by cases src <;> rfl
    simp only [wakeCause, asleep, awake, if_true, Bool.false_eq_true, if_false]
    cases src <;> rfl
  unfold presentMessage
  simp only [before, after, port, woken, wakes, Bool.true_eq_false, if_false]

/-- The ignition turning on wakes a sleeping part (R34, R36). -/
theorem settleIgn_wake {p : Part} (hl : p.live = true) (ha : p.modeCtl.asleep = true)
    (hd : p.modeCtl.debounce.isSome = true) (hi : p.lines.ign = true) :
    settleIgn p = wake { p with modeCtl := { p.modeCtl with ignition := true, debounce := none } } := by
  have running : p.modeCtl.debounce.isNone = false := by simpa using hd
  have live : ({ p with modeCtl := { p.modeCtl with ignition := true, debounce := none } } : Part).live = true := hl
  unfold settleIgn
  simp only [running, hi, Bool.false_eq_true, if_false, if_true]
  exact (if_neg fun h => absurd (live.symm.trans h) (by decide)).trans (if_pos ha)

/-- Settles O29: the quiet timer by `settle_quiet`; a sleeping part meets a wake cause as the woken part does. -/
theorem quietExpiryAndWake : Obligations.QuietExpiryAndWake := by
  refine ⟨fun p engine h hn => changeEngine_quiet h hn, fun m p h => ?_, fun s ha hq => ?_, fun s hl ha hd hi hr => ?_,
    fun s hl ha => ?_⟩
  · refine (settle_quiet m h).trans ?_
    exact if_congr (quiet_iff _) rfl rfl
  · have effect : (if s.part.modeCtl.quiet.isSome then expireQuiet s.part else s.part) = expireQuiet s.part := if_pos hq
    have awake : (expireQuiet s.part).awake = true := ha
    have waits : (settle s.medium (expireQuiet s.part)).modeCtl.sleepWait = some false := settle_sleepWait _ _
    refine leaves_of_runAwake rfl ha (by rw [effect]; exact (awake_parts awake).2.2.2) ?_ ?_
    · rw [effect, expireQuiet, lasting_requestFull]
      rfl
    · rw [effect]
      refine ⟨waits, settle_quiet_of_not awake ?_, settle_checkpointing _ (expireQuiet_checkpointing _), ?_⟩
      · simp [Part.quiet, waits]
      · exact (settle_keeps (fun q => q.modeCtl.asleep) (fun _ => rfl) _ _).trans (awake_parts awake).2.1
  · obtain ⟨-, restore, -⟩ := asleep_parts hl ha
    generalize hq : wake { s.part with modeCtl := { s.part.modeCtl with ignition := true, debounce := none } } = q
    have step : exec .ignDebounceExpiry s = .next (s.after q) := by rw [← hq, ← settleIgn_wake hl ha hd hi]; rfl
    have calm : q.restore = none := by subst hq; exact restore
    have awake : q.awake = true := by subst hq; exact (asleep_parts (p := { s.part with modeCtl := _ }) hl ha).2.2
    have kept : ∀ {β : Type} (g : Part → β), (∀ r : Part, g r.lasting = g r) → g (settle s.medium q) = g q :=
      fun g hg => settle_keeps g hg s.medium q
    have readers : q.storage.readers = [] := by subst hq; exact hr
    have empty : q.ring.records = [] := by subst hq; rfl
    have place := settle_place s.medium (p := q) (.inl empty)
    have ignition := kept (fun r => r.modeCtl.ignition) fun _ => rfl
    refine ⟨_, step, ?_⟩
    rw [after_eq s calm]
    refine ⟨(kept Part.awake fun _ => rfl).trans awake, ignition.trans (by subst hq; rfl),
      (kept (fun r => r.portA.state) fun _ => rfl).trans (by subst hq; rfl),
      (kept (fun r => r.portB.state) fun _ => rfl).trans (by subst hq; rfl),
      (kept Part.signals fun _ => rfl).trans (by subst hq; rfl),
      (kept Part.roles fun _ => rfl).trans (by subst hq; rfl),
      (kept Part.detector fun _ => rfl).trans (by subst hq; rfl),
      (kept Part.clutch fun _ => rfl).trans (by subst hq; rfl),
      (kept (fun r => r.wear.timer) fun _ => rfl).trans (by subst hq; rfl),
      (congrArg Prod.fst place).trans empty,
      (congrArg (fun x => x.2.1) place).trans (by subst hq; rfl),
      (kept (fun r => r.ring.next) fun _ => rfl).trans (by subst hq; rfl),
      (settle_chan_state s.medium readers .fleet).trans (by subst hq; rfl),
      (settle_chan_state s.medium readers .service).trans (by subst hq; rfl),
      settle_quiet_of_not awake ?_,
      (kept (fun r => r.link.statusTimer) fun _ => rfl).trans (by subst hq; rfl),
      (kept (fun r => r.modeCtl.mode) fun _ => rfl).trans (by subst hq; rfl),
      (kept (fun r => r.modeCtl.active) fun _ => rfl).trans (by subst hq; rfl),
      (kept (fun r => r.register.slots) fun _ => rfl).trans (by subst hq; rfl),
      (kept Part.hire fun _ => rfl).trans (by subst hq; rfl),
      (kept (fun r => r.capture.entries) fun _ => rfl).trans (by subst hq; rfl), rfl, rfl⟩
    have on : (settle s.medium q).modeCtl.ignition = true := ignition.trans (by subst hq; rfl)
    simp [Part.quiet, on]
  · intro p idle woken
    refine ⟨fun port f svc hf hb => ⟨fun hw => ?_, fun hport hn => ?_⟩, fun i src msg _ hi hb => ?_⟩
    · have wakes : isWakeCause port f = true := by
        cases port with
        | a => rfl
        | b => exact (isWakeCause_b_iff f).mpr (hw.resolve_left (by decide))
      simp only [exec, execDataFrameReceived, hf, if_true, receiveFrame_wake hl ha hb wakes]
      rfl
    · subst hport
      obtain ⟨powered, restore, -⟩ := asleep_parts hl ha
      have wakes : isWakeCause .b f = false := Bool.eq_false_iff.mpr fun h => hn ((isWakeCause_b_iff f).mp h)
      have counted := receiveFrame_discarded (svc := svc) hl ha hb wakes
      refine ⟨_, if_pos hf, ?_⟩
      rw [counted, after_eq s (p := countReceived .b (sampleSvc svc s.part)) restore]
      refine ⟨(lasting_settle _ _).trans rfl, ⟨?_, ?_⟩, rfl, rfl⟩
      · exact (settle_keeps (fun q => q.modeCtl.asleep) (fun _ => rfl) _ _).trans ha
      · exact settle_port_state s.medium _ .b
    · rw [exec_eq_dispatch hi, exec_eq_dispatch hi, runRequest, runRequest, presentMessage_wake hl ha hb]
      rfl

end Sys2Proof.Machine
end

section
/-! Page writes of the checkpoints (R153, R158 to R161): what a verified and a twice failed page leave, and the end of a
full checkpoint with its waiters and the entry into SLEEPING. -/

namespace Sys2Proof.Machine

/-! ## A page's transaction (R153) -/

/-- The part whose owner a verified page write is handed to. -/
def Part.verified (p : Part) : Part := p.setStorage (countVerified p.storage)

/-- The part whose owner a failed page write is handed to. -/
def Part.failed (p : Part) : Part := p.setStorage (countFailed p.storage)

theorem verified_lasting (p : Part) : p.verified.lasting = p.pageWritten.lasting := rfl

theorem failed_lasting (p : Part) : p.failed.lasting = p.pageFailed.lasting := rfl

section
variable {s : State} {t : Transaction} (hb : s.part.storage.bus = some t) (hw : t.write.isSome = true)
include hb hw

theorem exec_pageVerified (hp : t.page < pageCount) :
    exec (.pageWriteComplete true) s =
      .next (s.stored (s.medium.written t) (writeVerified t.owner s.part.verified)) := by
  obtain ⟨bytes, hbytes⟩ := Option.isSome_iff_exists.mp hw
  simp only [exec, execPageWriteComplete, hb, hbytes, Nat.not_le.mpr hp, if_false, if_true, Medium.written,
    Option.getD_some]
  rfl

theorem exec_pageFailed (h2 : 2 ≤ t.attempt) (hp : t.page < pageCount) :
    exec (.pageWriteComplete false) s =
        .next (s.stored (s.medium.spoilPage t.page) (writeFailed t.owner s.part.failed)) ∧
      exec .storageAnswerTimeout s =
        .next (s.stored (s.medium.spoilPage t.page) (writeFailed t.owner s.part.failed)) := by
  obtain ⟨bytes, hbytes⟩ := Option.isSome_iff_exists.mp hw
  have fails : failAttempt t s = s.stored (s.medium.spoilPage t.page) (writeFailed t.owner s.part.failed) :=
    if_neg (Nat.not_lt.mpr h2)
  constructor
  · simp only [exec, execPageWriteComplete, hb, hbytes, Nat.not_le.mpr hp, if_false, Bool.false_eq_true, fails]
  · simp only [exec, execStorageAnswerTimeout, hb, hw, if_true, fails]

theorem stores_verified (hp : t.page < pageCount) {p : Part} {also : Part → Prop}
    (hl : (writeVerified t.owner s.part.verified).lasting = p.lasting)
    (h : also (settle (s.medium.written t) (writeVerified t.owner s.part.verified))) :
    Stores (.pageWriteComplete true) s (s.medium.written t) p also :=
  ⟨_, exec_pageVerified hb hw hp, (lasting_settle _ _).trans hl, h, rfl, rfl⟩

theorem stores_failed (h2 : 2 ≤ t.attempt) (hp : t.page < pageCount) {p : Part} {also : Part → Prop}
    (hl : (writeFailed t.owner s.part.failed).lasting = p.lasting)
    (h : also (settle (s.medium.spoilPage t.page) (writeFailed t.owner s.part.failed))) : StoresFailed s t p also :=
  have ⟨differs, silent⟩ := exec_pageFailed hb hw h2 hp
  ⟨⟨_, differs, (lasting_settle _ _).trans hl, h, rfl, rfl⟩, ⟨_, silent, (lasting_settle _ _).trans hl, h, rfl, rfl⟩⟩

end

/-! ## The full checkpoint through the settling -/

theorem refreshReaders_full (p : Part) : (refreshReaders p).storage.full = p.storage.full := by
  refine foldl_keeps (fun q => q.storage.full) (fun q r => ?_) _ p
  unfold refreshReader Part.setReaders
  split
  · rfl
  · split
    · rfl
    · rw [respond_storage]
      rfl

theorem grantReader_full (p : Part) : (grantReader p).storage.full = p.storage.full := by
  unfold grantReader
  split <;> rfl

/-- A grant changes a full checkpoint only where it places one that waits (R158). -/
theorem grant_full (m : Medium) {p : Part} (h : p.storage.full.state ≠ .waiting) :
    (grant m p).storage.full = p.storage.full := by
  unfold grant
  split_ifs
  · rfl
  · rfl
  · rw [grantReader_full, refreshReaders_full]
  · simp only [grantFull, h, if_false]
    rfl
  · rfl
  · split
    · unfold grantArchive
      dsimp only
      split <;> rfl
    · rfl
    · rw [grantReader_full, refreshReaders_full]

theorem settle_full (m : Medium) {p : Part} (h : p.storage.full.state ≠ .waiting) :
    (settle m p).storage.full = p.storage.full := by
  by_cases live : p.live = true
  · rw [settle_storage m live]
    exact grant_full m h
  · rw [settle_of_not_live _ (Bool.eq_false_iff.mpr live)]

/-! ## The waiters' answers (R158) -/

/-- What no response touches, the answer to a waiter keeps. -/
theorem answerWaiter_keeps {β : Type} (g : Part → β) (hch : ∀ ch c p, g (Part.setChan p ch c) = g p)
    (ended : Option (Nat × Nat)) (p : Part) (w : Waiter) : g (answerWaiter ended w p) = g p := by
  have answer : ∀ ch msg q, g (respond ch msg q) = g q := fun ch msg q => hch ch _ q
  cases w with
  | sleep => rfl
  | restart =>
    cases ended with
    | none => exact answer _ _ p
    | some x => exact (hch .service _ (respond .service [0x05, stDone] p)).trans (answer _ _ p)
  | clearAll => cases ended <;> exact answer _ _ p
  | checkpointNow ch => cases ended <;> exact answer _ _ p

theorem answerWaiter_other {ch : Channel} {w : Waiter} (h : waiterOn ch w = false) (ended : Option (Nat × Nat))
    (p : Part) : (answerWaiter ended w p).chan ch = p.chan ch := by
  cases w with
  | sleep => rfl
  | restart =>
    have other : ch ≠ .service := by rintro rfl; exact absurd h (by decide)
    cases ended with
    | none => exact respond_other _ _ other
    | some x => exact (Part.setChan_other _ _ other).trans (respond_other _ _ other)
  | clearAll =>
    have other : ch ≠ .service := by rintro rfl; exact absurd h (by decide)
    cases ended <;> exact respond_other _ _ other
  | checkpointNow c =>
    have other : ch ≠ c := by rintro rfl; simp [waiterOn] at h
    cases ended <;> exact respond_other _ _ other

theorem answerWaiter_chan {ch : Channel} {w : Waiter} (h : waiterOn ch w = true) (ended : Option (Nat × Nat)) (p : Part) :
    ((answerWaiter ended w p).chan ch).state = .responding ∧
      ((answerWaiter ended w p).chan ch).outbox = segments (waiterAnswer ended w) ∧
      ((answerWaiter ended w p).chan ch).offered = false := by
  have answer : ∀ c msg, waiterOn ch w = (c == ch) → ((respond c msg p).chan ch).state = .responding ∧
      ((respond c msg p).chan ch).outbox = segments msg ∧ ((respond c msg p).chan ch).offered = false := by
    intro c msg same
    have at_ : c = ch := beq_iff_eq.mp (same.symm.trans h)
    subst at_
    simp
  cases w with
  | sleep => exact absurd h Bool.false_ne_true
  | restart =>
    have at_ : ch = .service := by simpa [waiterOn] using h
    subst at_
    cases ended with
    | none => exact answer .service _ rfl
    | some x => simp [answerWaiter, respondRestart, waiterAnswer, stDone]
  | clearAll =>
    have at_ : ch = .service := by simpa [waiterOn] using h
    subst at_
    cases ended <;> exact answer .service _ rfl
  | checkpointNow c => cases ended <;> exact answer c _ rfl

/-- The part with every waiter of a list answered. -/
def Part.answers (ended : Option (Nat × Nat)) (ws : List Waiter) (p : Part) : Part :=
  ws.foldl (fun p w => answerWaiter ended w p) p

theorem answers_keeps {β : Type} (g : Part → β) (hch : ∀ ch c p, g (Part.setChan p ch c) = g p)
    (ended : Option (Nat × Nat)) (ws : List Waiter) (p : Part) : g (p.answers ended ws) = g p :=
  foldl_keeps g (answerWaiter_keeps g hch ended) ws p

theorem answers_lasting (ended : Option (Nat × Nat)) (ws : List Waiter) (p : Part) :
    (p.answers ended ws).lasting = p.lasting := by
  refine foldl_keeps Part.lasting (fun q w => ?_) ws p
  cases w with
  | sleep => rfl
  | restart =>
    cases ended with
    | none => exact lasting_respond _ _ q
    | some x =>
      exact (lasting_setChan _ .service _ rfl).trans (lasting_respond _ _ q)
  | clearAll => cases ended <;> exact lasting_respond _ _ q
  | checkpointNow ch => cases ended <;> exact lasting_respond _ _ q

theorem answers_other {ch : Channel} {ws : List Waiter} (h : ∀ w ∈ ws, waiterOn ch w = false)
    (ended : Option (Nat × Nat)) (p : Part) : (p.answers ended ws).chan ch = p.chan ch := by
  induction ws generalizing p with
  | nil => rfl
  | cons w ws ih =>
    exact (ih (fun x hx => h x (List.mem_cons_of_mem w hx)) (answerWaiter ended w p)).trans
      (answerWaiter_other (h w (List.mem_cons_self ..)) ended p)

/-- The one waiter on a channel is answered there. -/
theorem answers_chan {ch : Channel} {ws : List Waiter} {w : Waiter} (h : ws.filter (waiterOn ch) = [w])
    (ended : Option (Nat × Nat)) (p : Part) :
    ((p.answers ended ws).chan ch).state = .responding ∧
      ((p.answers ended ws).chan ch).outbox = segments (waiterAnswer ended w) ∧
      ((p.answers ended ws).chan ch).offered = false := by
  obtain ⟨before, after, rfl, -, on, none⟩ := List.filter_eq_cons_iff.mp h
  have later : ∀ x ∈ after, waiterOn ch x = false := fun x hx => by
    simpa using List.filter_eq_nil_iff.mp none x hx
  have split : p.answers ended (before ++ w :: after) =
      (answerWaiter ended w (p.answers ended before)).answers ended after := by
    simp [Part.answers]
  rw [split, answers_other later]
  exact answerWaiter_chan on ended _

/-- Answered waiters' responses are under way when the part has settled (R158, R178). -/
theorem settle_answered (m : Medium) {ws : List Waiter} {ended : Option (Nat × Nat)} {old p : Part}
    (hf : p.placedFrames = old.placedFrames) (hr : p.storage.readers = old.storage.readers) :
    Part.answered ws ended old (settle m (p.answers ended ws)) := by
  intro ch w on ⟨quiet, readers⟩
  obtain ⟨state, outbox, offered⟩ := answers_chan on ended p
  have placed : (p.answers ended ws).placedFrames = old.placedFrames :=
    (answers_keeps Part.placedFrames (fun ch c q => placedFrames_setChan q ch c) ended ws p).trans hf
  have working : (p.answers ended ws).storage.readers = old.storage.readers :=
    (answers_keeps (fun q => q.storage.readers) (fun ch c q => by simp) ended ws p).trans hr
  refine settle_responds m state outbox offered ?_ (by rw [working]; exact readers)
  rw [outgoing_eq] at quiet
  rw [Part.placedFor, placed]
  exact List.map_eq_nil_iff.mp (List.append_eq_nil_iff.mp quiet).1

/-! ## The end of a full checkpoint (R158) -/

/-- What a full checkpoint leaves when it ends: sequence and position when it completed. -/
def FullCheckpoint.ended (f : FullCheckpoint) (completed : Bool) : Option (Nat × Nat) :=
  if completed then some (f.sequence, f.position) else none

/-- The part after the end of its full checkpoint, before its waiters are answered. -/
def Part.fullOver (p : Part) (completed : Bool) : Part :=
  p.setStorage { p.storage with
    full := p.storage.full.afterEnd
    newest := if completed then some (p.storage.full.sequence, p.storage.full.position) else p.storage.newest }

theorem endFull_eq (completed : Bool) (p : Part) :
    endFull completed p =
      if p.storage.full.waiters.contains .sleep then
        settleSleep completed
          ((p.fullOver completed).answers (p.storage.full.ended completed) p.storage.full.waiters)
      else (p.fullOver completed).answers (p.storage.full.ended completed) p.storage.full.waiters := rfl

theorem endFull_of_no_sleep (completed : Bool) {p : Part} (h : .sleep ∉ p.storage.full.waiters) :
    endFull completed p =
      (p.fullOver completed).answers (p.storage.full.ended completed) p.storage.full.waiters := by
  rw [endFull_eq, if_neg (by simpa using h)]

/-- The conditions for sleep entry, at the end of the checkpoint that it waited for (R35, R43, R158). -/
def Part.sleeps (p : Part) : Prop :=
  p.modeCtl.sleepWait = some false ∧ p.storage.full.pending = false ∧ p.storage.short.state = .idle ∧
    p.modeCtl.save = .idle ∧ p.storage.archive = [] ∧ p.storage.captureJobs = [] ∧ p.storage.readers = [] ∧
    p.detector.engine = .stopped

theorem afterEnd_idle_iff (f : FullCheckpoint) : f.afterEnd.state = .idle ↔ f.pending = false := by
  unfold FullCheckpoint.afterEnd
  split <;> simp_all

theorem settleSleep_condition {p : Part} (hb : p.storage.bus = none) (completed : Bool) (ended : Option (Nat × Nat))
    (ws : List Waiter) :
    let q := (p.fullOver completed).answers ended ws
    (q.modeCtl.sleepWait = some false ∧ q.arbiterBusy = false ∧ q.detector.engine = .stopped) ↔ p.sleeps := by
  intro q
  have storage : q.storage = (p.fullOver completed).storage := answers_keeps Part.storage (fun _ _ _ => by simp) _ _ _
  have modeCtl : q.modeCtl = p.modeCtl := answers_keeps Part.modeCtl (fun _ _ _ => by simp) _ _ _
  have detector : q.detector = p.detector := answers_keeps Part.detector (fun _ _ _ => by simp) _ _ _
  have idle := afterEnd_idle_iff p.storage.full
  simp only [Part.arbiterBusy, storage, modeCtl, detector, Part.fullOver, Part.setStorage_storage, hb, Part.sleeps,
    Option.isSome_none, Bool.false_or, Bool.or_eq_false_iff, bne_eq_false_iff_eq, Bool.not_eq_false', List.isEmpty_iff, idle]
  tauto

/-- The checkpoint that sleep entry waited for ends without it: the part stays AWAKE (R35). -/
theorem endFull_awake {completed : Bool} {p : Part} (hb : p.storage.bus = none) (hw : .sleep ∈ p.storage.full.waiters)
    (h : ¬(completed = true ∧ p.sleeps)) :
    ∃ q : Part, endFull completed p = { q with modeCtl := { q.modeCtl with sleepWait := none } } ∧
      q = (p.fullOver completed).answers (p.storage.full.ended completed) p.storage.full.waiters := by
  refine ⟨_, ?_, rfl⟩
  rw [endFull_eq, if_pos (by simpa using hw), settleSleep, if_neg]
  rintro ⟨done, condition⟩
  exact h ⟨done, (settleSleep_condition hb completed _ _).mp condition⟩

theorem fullOver_lasting (p : Part) (completed : Bool) :
    (p.fullOver completed).lasting =
      { p with storage := { p.storage with
          newest := if completed then some (p.storage.full.sequence, p.storage.full.position)
            else p.storage.newest } }.lasting := rfl

/-- The end of a full checkpoint without sleep entry leaves the newest checkpoint, and nothing else that lasts. -/
theorem endFull_lasting {completed : Bool} {p : Part} (hb : p.storage.bus = none)
    (h : .sleep ∈ p.storage.full.waiters → ¬(completed = true ∧ p.sleeps)) :
    (endFull completed p).lasting =
      { p with storage := { p.storage with
          newest := if completed then some (p.storage.full.sequence, p.storage.full.position)
            else p.storage.newest } }.lasting := by
  rw [← fullOver_lasting]
  by_cases hw : .sleep ∈ p.storage.full.waiters
  · obtain ⟨q, ends, rfl⟩ := endFull_awake hb hw (h hw)
    rw [ends]
    exact answers_lasting _ _ (p.fullOver completed)
  · rw [endFull_of_no_sleep completed hw]
    exact answers_lasting _ _ _

end Sys2Proof.Machine
end

section
/-! What a page write of a full and of a short checkpoint leads to (R36, R153, R158 to R161). -/

namespace Sys2Proof.Machine

/-! ## Sleep entry (R36, R158) -/

/-- With nothing waiting at the arbiter a grant does nothing. -/
theorem grant_idle (m : Medium) {p : Part} (h : p.arbiterBusy = false) : grant m p = p := by
  simp only [Part.arbiterBusy, Bool.or_eq_false_iff, bne_eq_false_iff_eq, Bool.not_eq_false', List.isEmpty_iff] at h
  obtain ⟨⟨⟨⟨⟨⟨bus, short⟩, full⟩, save⟩, archive⟩, captures⟩, readers⟩ := h
  have reader : grantReader (refreshReaders p) = p := by simp [refreshReaders, readers, grantReader]
  simp [grant, bus, short, full, save, archive, captures, reader]

/-- The part after the full checkpoint that sleep entry waited for. -/
def Part.slept (p : Part) : Part := sleepEntry (p.fullOver true)

theorem endFull_slept {p : Part} (hb : p.storage.bus = none) (hw : p.storage.full.waiters = [.sleep]) (h : p.sleeps) :
    endFull true p = p.slept := by
  have condition := (settleSleep_condition hb true (p.storage.full.ended true) [.sleep]).mpr h
  rw [endFull_eq, hw, if_pos (by decide), settleSleep, if_pos ⟨rfl, condition⟩]
  rfl

theorem settle_slept (m : Medium) {p : Part} (hl : p.live = true) (hb : p.storage.bus = none) (h : p.sleeps) :
    settle m p.slept = p.slept := by
  obtain ⟨-, pending, short, save, archive, captures, readers, -⟩ := h
  have live : p.slept.live = true := hl
  have asleep : p.slept.modeCtl.asleep = true := rfl
  have storage : p.slept.storage = (p.fullOver true).storage := rfl
  have kept : p.slept.modeCtl.save = p.modeCtl.save := rfl
  have free : p.slept.arbiterBusy = false := by
    simp [Part.arbiterBusy, storage, kept, Part.fullOver, hb, short, save, archive, captures, readers,
      (afterEnd_idle_iff _).mpr pending]
  rw [settle, if_neg (by simp [live]), if_pos asleep, grant_idle m free]

/-! ## A page of a full checkpoint (R158) -/

theorem verified_bus (p : Part) : p.verified.storage.bus = none := rfl

theorem failed_bus (p : Part) : p.failed.storage.bus = none := rfl

theorem fullVerified_next {p : Part} (h : p.storage.full.page + 1 < 20) :
    fullVerified p =
      p.setStorage { p.storage with full := { p.storage.full with page := p.storage.full.page + 1 } } :=
  if_pos h

theorem fullVerified_last {p : Part} (h : 20 ≤ p.storage.full.page + 1) : fullVerified p = endFull true p :=
  if_neg (Nat.not_lt.mpr h)

/-- A full checkpoint for which no one waits leaves the storage controller alone with its end. -/
theorem endFull_unawaited {p : Part} (h : p.storage.full.waiters = []) : endFull true p = p.fullOver true := by
  rw [endFull_of_no_sleep true (by simp [h]), h]
  rfl

/-- The part that stays AWAKE after the checkpoint for sleep entry. -/
theorem settle_awake_after {m : Medium} {completed : Bool} {p : Part} (ha : p.awake = true) (hb : p.storage.bus = none)
    (hw : .sleep ∈ p.storage.full.waiters) (h : ¬(completed = true ∧ p.sleeps)) :
    (settle m (endFull completed p)).modeCtl.asleep = false ∧ (settle m (endFull completed p)).modeCtl.sleepWait = none := by
  obtain ⟨q, ends, hq⟩ := endFull_awake hb hw h
  have asleep : q.modeCtl.asleep = false := by
    subst hq
    exact (answers_keeps (fun r => r.modeCtl.asleep) (fun _ _ _ => by simp) _ _ _).trans (awake_parts ha).2.1
  rw [ends]
  exact ⟨(settle_keeps (fun r => r.modeCtl.asleep) (fun _ => rfl) _ _).trans asleep, settle_sleepWait _ _⟩

/-! ## The short checkpoint (R160, R161) -/

/-- The short checkpoint's end: another is placed with the content of this moment when the follow-up flag is set. -/
def Part.shortOver (p : Part) : Part :=
  { p with
    storage := { p.storage with
      short :=
        if p.storage.short.followUp then
          { sequence := p.storage.nextSequence
            position := placeAt p.storage.newest p.storage.writePosition 4
            image := some p.shortImage }
        else {} } }

theorem endShort_lasting (p : Part) : (endShort p).lasting = p.shortOver.lasting := by
  unfold endShort Part.shortOver
  split <;> rfl

theorem shortVerified_next {p : Part} (h : p.storage.short.page + 1 < 4) :
    shortVerified p =
      p.setStorage { p.storage with short := { p.storage.short with page := p.storage.short.page + 1 } } :=
  if_pos h

theorem shortVerified_last {p : Part} (h : 4 ≤ p.storage.short.page + 1) : shortVerified p = endShort p :=
  if_neg (Nat.not_lt.mpr h)

/-- Settles O50: each page's end from the rules of the transaction, of the waiters' answers and of sleep entry. -/
theorem verifiedPageIsWritten : Obligations.VerifiedPageIsWritten := by
  refine ⟨fun s t bytes ha hb hw hlen hp ho hm hs hwait hpend hread => ?_, fun s t writing => ?_,
    fun s t hl hb hw hp ho => ?_⟩
  · intro st
    have step := exec_pageVerified hb (by simp [hw]) hp
    have owner : writeVerified t.owner s.part.verified = fullVerified s.part.verified := by rw [ho]; rfl
    have written : s.medium.written t = s.medium.writePage t.page bytes := by simp [Medium.written, hw]
    rw [owner, written] at step
    have kept : ∀ {β : Type} (g : Part → β), (∀ q : Part, g q.lasting = g q) →
        (∀ full newest, g (s.part.verified.setStorage { s.part.verified.storage with full, newest }) =
          g s.part.verified) →
        g (settle (s.medium.writePage t.page bytes) (fullVerified s.part.verified)) = g s.part.verified := by
      intro β g hg hst
      rw [settle_keeps g hg]
      by_cases hpage : st.full.page + 1 < 20
      · rw [fullVerified_next (p := s.part.verified) hpage]
        exact hst _ s.part.verified.storage.newest
      · rw [fullVerified_last (p := s.part.verified) (Nat.le_of_not_lt hpage),
          endFull_unawaited (p := s.part.verified) hwait]
        exact hst _ _
    refine ⟨_, step, ?_, fun a outside => ?_, writePage_wf hm hp bytes, rfl,
      kept (fun q => q.storage.writes) (fun _ => rfl) (fun _ _ => rfl),
      kept (fun q => q.storage.fault) (fun _ => rfl) (fun _ _ => rfl),
      kept (fun q => q.storage.retries) (fun _ => rfl) (fun _ _ => rfl),
      kept (fun q => q.storage.failures) (fun _ => rfl) (fun _ _ => rfl),
      kept (fun q => q.register.slots) (fun _ => rfl) (fun _ _ => rfl),
      kept Part.hire (fun _ => rfl) (fun _ _ => rfl), kept Part.capture (fun _ => rfl) (fun _ _ => rfl),
      fun more => ?_, fun last => ?_⟩
    · exact (writePage_page hm t.page bytes).trans (padTo_self hlen)
    · exact (writePage_byte hm t.page bytes a).trans (if_neg (by omega))
    · rw [fullVerified_next (p := s.part.verified) more] at step ⊢
      have writing : (s.part.verified.setStorage { s.part.verified.storage with
          full := { s.part.verified.storage.full with page := s.part.verified.storage.full.page + 1 } }).storage.full.state =
            .writing := hs
      have full := settle_full (s.medium.writePage t.page bytes) (by rw [writing]; decide)
      refine ⟨settle_keeps (fun q => q.storage.newest) (fun _ => rfl) _ _, ?_, ?_⟩
      · exact congrArg FullCheckpoint.page full
      · exact (congrArg FullCheckpoint.state full).trans hs
    · rw [fullVerified_last (p := s.part.verified) last, endFull_unawaited (p := s.part.verified) hwait]
      have idle : (s.part.verified.fullOver true).storage.full.state = .idle := (afterEnd_idle_iff _).mpr hpend
      have full := settle_full (s.medium.writePage t.page bytes) (by rw [idle]; decide)
      exact ⟨settle_keeps (fun q => q.storage.newest) (fun _ => rfl) _ _,
        (congrArg FullCheckpoint.state full).trans idle⟩
  · obtain ⟨ha, hb, hw, hp, ho⟩ := writing
    intro st f p m quiet
    have last : 20 ≤ f.page + 1 → writeVerified t.owner s.part.verified = endFull true s.part.verified := fun h => by
      rw [ho]; exact fullVerified_last h
    have fails : writeFailed t.owner s.part.failed = endFull false s.part.failed := by rw [ho]; rfl
    refine ⟨fun awake => ⟨fun h => ?_, fun h2 => ?_⟩, fun waits => ⟨fun h none => ?_, fun h2 => ?_⟩, fun hw1 h sleeps => ?_⟩
    · refine stores_verified hb hw hp ?_ ?_
      · rw [last h]
        exact endFull_lasting (verified_bus s.part) fun hs => absurd hs awake
      · rw [last h, endFull_of_no_sleep true (p := s.part.verified) awake]
        exact settle_answered _ rfl rfl
    · refine stores_failed hb hw h2 hp ?_ ?_
      · rw [fails]
        exact endFull_lasting (failed_bus s.part) fun hs => absurd hs awake
      · rw [fails, endFull_of_no_sleep false (p := s.part.failed) awake]
        exact settle_answered _ rfl rfl
    · have stays : ¬(true = true ∧ s.part.verified.sleeps) := fun h => none h.2
      refine stores_verified hb hw hp ?_ ?_
      · rw [last h]
        exact endFull_lasting (verified_bus s.part) fun _ => stays
      · rw [last h]
        exact settle_awake_after ha (verified_bus s.part) waits stays
    · have stays : ¬(false = true ∧ s.part.failed.sleeps) := fun h => absurd h.1 (by decide)
      refine stores_failed hb hw h2 hp ?_ ?_
      · rw [fails]
        exact endFull_lasting (failed_bus s.part) fun _ => stays
      · rw [fails]
        exact settle_awake_after ha (failed_bus s.part) waits stays
    · have slept : s.part.verified.sleeps := sleeps
      have step := exec_pageVerified hb hw hp
      rw [last h, endFull_slept (verified_bus s.part) hw1 slept, State.stored,
        settle_slept _ (p := s.part.verified) (awake_parts ha).1 (verified_bus s.part) slept] at step
      exact ⟨_, step, rfl, rfl, rfl, rfl, rfl, rfl, rfl, rfl, rfl, rfl, rfl, rfl, rfl, rfl, rfl, rfl, rfl, rfl, rfl, rfl⟩
  · intro st ends
    refine ⟨fun more => ?_, fun last => ?_, fun h2 => ?_⟩
    · refine stores_verified hb hw hp ?_ trivial
      rw [ho]
      refine (congrArg Part.lasting (shortVerified_next (p := s.part.verified) more)).trans ?_
      rfl
    · refine stores_verified hb hw hp ?_ trivial
      rw [ho]
      exact (congrArg Part.lasting (shortVerified_last (p := s.part.verified) last)).trans (endShort_lasting _)
    · refine stores_failed hb hw h2 hp ?_ trivial
      rw [ho]
      exact endShort_lasting s.part.failed

end Sys2Proof.Machine
end

section
/-! The end of the leave sequence's table save (R27, R28, R32, R99). -/

namespace Sys2Proof.Machine

/-! ## Promotion (R21, R32, R99, R126) -/

theorem loseSpeed_of_stopped_off {p : Part} (h : p.detector.engine = .stopped) (hi : p.modeCtl.ignition = false) :
    loseSpeed p = { p with detector := p.detector.put .stopped none none none } := by
  have same : (discardAttempt p).detector.engine = .stopped := h
  have stays := changeEngine_self (discardAttempt p)
  rw [same] at stays
  simp only [loseSpeed, hi, Bool.false_eq_true, if_false, stays]
  rw [← h]
  rfl

/-- In STOPPED a loss of speed changes the detector and the quiet timer alone. -/
theorem loseSpeed_from_stopped {p : Part} (h : p.detector.engine = .stopped) (hf : ∀ m, p.modeCtl.save ≠ .saving m) :
    ∃ quiet, loseSpeed p =
      { p with
        detector := p.detector.put (if p.modeCtl.ignition then .unknown else .stopped) none none none
        modeCtl := { p.modeCtl with quiet } } := by
  cases hi : p.modeCtl.ignition with
  | true => exact ⟨none, loseSpeed_of_stopped h hi hf⟩
  | false => exact ⟨p.modeCtl.quiet, loseSpeed_of_stopped_off h hi⟩

/-- The part with its pending set made the active one and its spectra folded (R32, R99). -/
def Part.swapped (p : Part) : Part :=
  foldSpectra p.modeCtl.active p.modeCtl.pendingSet
    { p with
      modeCtl := { p.modeCtl with active := p.modeCtl.pendingSet, passAll := false, save := .idle, savePage := 0 }
      matcher := { p.matcher with counts := Vector.replicate 64 0 }
      signals := Vector.replicate 48 {}
      roles := Vector.replicate 10 {} }

/-- The part after the promotion of its pending set, but for the Forwarder's place and the quiet timer. -/
def Part.promoted (p : Part) : Part :=
  { p.swapped with
    detector := p.detector.put (if p.modeCtl.ignition then .unknown else .stopped) none none none }

theorem promote_of_lost (p : Part) :
    promote p =
      if (loseSpeed p.swapped).ring.age.isSome then
        movePointer (loseSpeed p.swapped).ring.pointer (loseSpeed p.swapped)
      else loseSpeed p.swapped := rfl

theorem promote_eq {p : Part} (h : p.detector.engine = .stopped) :
    ∃ quiet ring, promote p = { p.promoted with ring, modeCtl := { p.promoted.modeCtl with quiet } } ∧
      ring.lasting = p.ring.lasting ∧ ({ p with ring } : Part).placedFrames = p.placedFrames := by
  have idle : ∀ m, p.swapped.modeCtl.save ≠ .saving m := fun m => SaveState.noConfusion
  obtain ⟨quiet, lost⟩ := loseSpeed_from_stopped (p := p.swapped) h idle
  rw [promote_of_lost]
  by_cases age : (loseSpeed p.swapped).ring.age.isSome = true
  · rw [if_pos age, lost]
    exact ⟨quiet, _, rfl, rfl, rfl⟩
  · rw [if_neg age, lost]
    exact ⟨quiet, p.ring, rfl, rfl, rfl⟩

/-- Spectra fold where the load or the speed edges of their kind differ (R99). -/
theorem edgesDiffer_iff (old new : TableSet) (k : Kind) :
    edgesDiffer old new k = true ↔
      (old.bins[k.num]?.map fun r => (r.load, r.speed)) ≠ (new.bins[k.num]?.map fun r => (r.load, r.speed)) := by
  have bound : k.num < 8 := by cases k <;> decide
  simp only [edgesDiffer, bound, Vector.getElem?_eq_getElem, Option.map_some, Bool.or_eq_true, bne_iff_ne, ne_eq,
    Option.some.injEq, Prod.mk.injEq, not_and_or]

/-! ## The end of the save (R27, R28, R32) -/

/-- The part after the end of its table save, as it lasts. -/
def Part.saved (p : Part) (target : Mode) : Part :=
  { p.promoted with
    modeCtl := { p.promoted.modeCtl with mode := target, validation := .passed }
    hire := { p.hire with overspeed := {}, coldLoad := {}, lugging := {} }
    wear := if target = .active then { p.wear with running := Vector.replicate 12 false } else p.wear }

theorem completeSave_lasting {p : Part} {target : Mode} (h : p.detector.engine = .stopped) (ht : target ≠ .setup) :
    (completeSave target p).lasting = (p.saved target).lasting := by
  obtain ⟨quiet, ring, promoted, ringLasts, -⟩ := promote_eq h
  have entered : ({ enterMode target (promote p) with
      modeCtl := { (enterMode target (promote p)).modeCtl with validation := .passed } } : Part) =
        { p.saved target with
          ring := ring
          modeCtl := { (p.saved target).modeCtl with quiet := quiet } } := by
    rw [promoted]
    cases target with
    | setup => exact absurd rfl ht
    | paused => rfl
    | active => rfl
  unfold completeSave
  dsimp only
  rw [lasting_respond, lasting_requestFull, entered]
  exact (lasting_ring { p.saved target with modeCtl := { (p.saved target).modeCtl with quiet := quiet } } ring
    ringLasts).trans rfl

theorem completeSave_checkpointing (target : Mode) (p : Part) : (completeSave target p).checkpointing = true := by
  have state := requestFull_state .modeChange none
    { enterMode target (promote p) with
      modeCtl := { (enterMode target (promote p)).modeCtl with validation := .passed } }
  simpa [completeSave, Part.checkpointing] using state

/-- A response formed last on a channel that is clear for it is under way when the part has settled (R178). -/
theorem settle_respond (m : Medium) {ch : Channel} {msg : List Byte} {old p : Part} (hc : old.clearFor ch)
    (hf : p.placedFrames = old.placedFrames) (hr : p.storage.readers = old.storage.readers) :
    (settle m (respond ch msg p)).responds ch msg := by
  obtain ⟨quiet, readers⟩ := hc
  rw [outgoing_eq] at quiet
  refine settle_responds m (by simp) (by simp) (by simp) ?_ (by rw [respond_storage, hr]; exact readers)
  rw [Part.placedFor, placedFrames_respond, hf]
  exact List.map_eq_nil_iff.mp (List.append_eq_nil_iff.mp quiet).1

theorem settle_completeSave (m : Medium) {p : Part} {target : Mode} (h : p.detector.engine = .stopped)
    (ht : target ≠ .setup) (hc : p.clearFor .service) :
    (settle m (completeSave target p)).responds .service [0x03, 0x00] := by
  obtain ⟨quiet, ring, promoted, -, placed⟩ := promote_eq h
  have frames : (enterMode target (promote p)).placedFrames = p.placedFrames := by
    rw [promoted, ← placed]
    cases target <;> rfl
  have readers : (enterMode target (promote p)).storage.readers = p.storage.readers := by
    rw [promoted]
    cases target <;> rfl
  exact settle_respond m hc frames ((requestFull_storage_readers _ _ _).trans readers)

theorem tableVerified_saving {p : Part} {target : Mode} (h : p.modeCtl.save = .saving target) :
    tableVerified false p =
      if p.modeCtl.savePage + 1 < 32 then
        { p with modeCtl := { p.modeCtl with savePage := p.modeCtl.savePage + 1 } }
      else completeSave target p := by
  simp [tableVerified, h]

theorem tableVerified_resaving {p : Part} (h : p.modeCtl.save = .resaving) :
    tableVerified true p =
      if p.modeCtl.savePage + 1 < 32 then
        { p with modeCtl := { p.modeCtl with savePage := p.modeCtl.savePage + 1 } }
      else { p with modeCtl := { p.modeCtl with save := .idle, savePage := 0 } } := by
  simp [tableVerified, h]

/-- Settles O52: the pages of the save and of the re-save, and what ends either. -/
theorem tableSaveEnds : Obligations.TableSaveEnds := by
  refine ⟨fun s t target writing hs ht he => ?_, fun p target engine he hs hn hr => ?_, fun s t writing hs => ?_⟩
  · obtain ⟨ha, hb, hw, hp, ho⟩ := writing
    intro p m fold
    have saving : s.part.verified.modeCtl.save = .saving target := hs
    have failing : s.part.failed.modeCtl.save = .saving target := hs
    refine ⟨fun more => ?_, fun last hc => ?_, fun h2 hc => ?_⟩
    · refine stores_verified hb hw hp ?_ trivial
      rw [ho]
      exact (congrArg Part.lasting ((tableVerified_saving saving).trans (if_pos more))).trans rfl
    · have done : writeVerified t.owner s.part.verified = completeSave target s.part.verified := by
        rw [ho]
        exact (tableVerified_saving saving).trans (if_neg (Nat.not_lt.mpr last))
      have folds : (foldSpectra m.active m.pendingSet s.part.verified).register.slots =
          s.part.register.slots.map fun x => x.map fold := by
        refine congrArg (fun f => s.part.register.slots.map f) ?_
        funext x
        refine congrArg (fun f => x.map f) ?_
        funext c
        by_cases same : edgesDiffer m.active m.pendingSet c.kind = true
        · exact (if_pos same).trans (if_neg ((edgesDiffer_iff _ _ _).mp same)).symm
        · exact (if_neg same).trans
            (if_pos (not_not.mp fun ne => same ((edgesDiffer_iff m.active m.pendingSet c.kind).mpr ne))).symm
      refine stores_verified hb hw hp ?_ ⟨?_, ?_⟩
      · rw [done, completeSave_lasting (p := s.part.verified) he ht]
        have slots := congrArg (fun v => ({ s.part.verified.saved target with
          register := { (s.part.verified.saved target).register with slots := v } } : Part).lasting) folds
        exact slots.trans rfl
      · rw [done]
        exact settle_completeSave _ (p := s.part.verified) he ht hc
      · rw [done]
        exact settle_checkpointing _ (completeSave_checkpointing _ _)
    · have failed : writeFailed t.owner s.part.failed = failSave s.part.failed := by
        rw [ho]
        simp only [writeFailed, tableFailed, failing]
      refine stores_failed hb hw h2 hp ?_ ?_
      · rw [failed]
        exact lasting_respond _ _ _
      · rw [failed]
        exact settle_respond _ hc rfl rfl
  · intro u
    have ends : u = stopQuiet (endSave { p with detector := { p.detector with engine := engine } }) :=
      changeEngine_of_stopped he hn hr
    rw [ends]
    simp only [endSave, hs]
    refine ⟨?_, ?_, ?_, ?_, ?_, ?_, ?_⟩
    · simp [stopQuiet]
    · simp
    · exact congrArg Chan.state (respond_chan .service _ _)
    · exact congrArg Chan.outbox (respond_chan .service _ _)
    · simp
    · simp
    · simp
  · obtain ⟨ha, hb, hw, hp, ho⟩ := writing
    intro p m
    have saving : s.part.verified.modeCtl.save = .resaving := hs
    have failing : s.part.failed.modeCtl.save = .resaving := hs
    refine ⟨fun more => ?_, fun last => ?_, fun h2 => ?_⟩
    · refine stores_verified hb hw hp ?_ trivial
      rw [ho]
      exact (congrArg Part.lasting ((tableVerified_resaving saving).trans (if_pos more))).trans rfl
    · refine stores_verified hb hw hp ?_ trivial
      rw [ho]
      exact (congrArg Part.lasting ((tableVerified_resaving saving).trans (if_neg (Nat.not_lt.mpr last)))).trans rfl
    · refine stores_failed hb hw h2 hp ?_ trivial
      rw [ho]
      simp only [writeFailed, tableFailed, failing]
      rfl

end Sys2Proof.Machine
end

section
/-! The ring's writer as the other blocks see it (R122), and what an overrun does to the Forwarder's pointer (R123, R124).
-/

namespace Sys2Proof.Machine

/-! ## What the writer does beyond the copier -/

/-- The part without what the copier changes: the captures and the storage's operations. -/
def Part.uncaptured (p : Part) : Part := { p with capture := {}, storage := {} }

/-- The part with a frame recorded, before the copier has looked at the ring. -/
def Part.recorded (f : Frame) (forward : Bool) (p : Part) : Part :=
  let written : Part := { p with ring := p.ring.push (p.newRecord f forward) }
  if p.ring.overruns then movePointer (p.ring.pointer + 1) (countOverrun written)
  else if p.ring.pointer = p.ring.next then movePointer p.ring.pointer written
  else written

theorem copierRun_uncaptured (p : Part) : (copierRun p).uncaptured = p.uncaptured := by
  unfold copierRun
  split
  · rfl
  · dsimp only
    split <;> rfl

theorem copierLoses_uncaptured (q : Word32) (p : Part) : (copierLoses q p).uncaptured = p.uncaptured := by
  unfold copierLoses
  split
  · split <;> rfl
  · rfl

/-- The copier aside, recording a frame touches the ring and FORWARD_OVERRUN alone (R122, R123). -/
theorem recordFrame_uncaptured (f : Frame) (forward : Bool) (p : Part) :
    (recordFrame f forward p).uncaptured = (p.recorded f forward).uncaptured := by
  have moved : ∀ q : Part, q.uncaptured = p.uncaptured →
      (copierRun
        (if p.ring.overruns then movePointer (p.ring.pointer + 1)
          (countOverrun { q with ring := p.ring.push (p.newRecord f forward) })
        else if p.ring.pointer = p.ring.next then
          movePointer p.ring.pointer { q with ring := p.ring.push (p.newRecord f forward) }
        else { q with ring := p.ring.push (p.newRecord f forward) })).uncaptured = (p.recorded f forward).uncaptured := by
    intro q lost
    rw [copierRun_uncaptured]
    unfold Part.recorded
    dsimp only
    split_ifs
    · exact congrArg (fun r : Part => movePointer (p.ring.pointer + 1)
        (countOverrun { r with ring := p.ring.push (p.newRecord f forward) })) lost
    · exact congrArg (fun r : Part => movePointer p.ring.pointer
        { r with ring := p.ring.push (p.newRecord f forward) }) lost
    · exact congrArg (fun r : Part => { r with ring := p.ring.push (p.newRecord f forward) }) lost
  unfold recordFrame
  refine moved _ ?_
  split
  · exact copierLoses_uncaptured _ p
  · rfl

/-- The copier aside, what recording leaves is what its parts leave. -/
theorem recordFrame_leaves {β : Type} (g : Part → β) (hg : ∀ r : Part, g r.uncaptured = g r) (f : Frame) (forward : Bool)
    (p : Part) : g (recordFrame f forward p) = g (p.recorded f forward) := by
  rw [← hg, recordFrame_uncaptured, hg]

/-- What neither the ring nor FORWARD_OVERRUN touches, recording keeps. -/
theorem recorded_keeps {β : Type} (g : Part → β) (hr : ∀ (p : Part) ring, g { p with ring := ring } = g p)
    (hl : ∀ (p : Part) b, g { p with link := { p.link with forwardOverrun := b } } = g p) (f : Frame) (forward : Bool)
    (p : Part) : g (p.recorded f forward) = g p := by
  unfold Part.recorded
  dsimp only
  split_ifs
  · exact (hr { p with link := { p.link with forwardOverrun := true } } _).trans (hl p true)
  · exact hr p _
  · exact hr p _

/-- What neither the copier, the ring nor FORWARD_OVERRUN touches, the writer keeps. -/
theorem recordFrame_keeps {β : Type} (g : Part → β) (hc : ∀ r : Part, g r.uncaptured = g r)
    (hr : ∀ (p : Part) ring, g { p with ring := ring } = g p)
    (hl : ∀ (p : Part) b, g { p with link := { p.link with forwardOverrun := b } } = g p) (f : Frame) (forward : Bool)
    (p : Part) : g (recordFrame f forward p) = g p :=
  (recordFrame_leaves g hc f forward p).trans (recorded_keeps g hr hl f forward p)

/-! ## The ring with a record written (R122) -/

theorem recorded_next (f : Frame) (forward : Bool) (p : Part) : (p.recorded f forward).ring.next = p.ring.next + 1 := by
  unfold Part.recorded
  dsimp only
  split_ifs <;> rfl

theorem recorded_records (f : Frame) (forward : Bool) (p : Part) :
    (p.recorded f forward).ring.records =
      (if p.ring.records.length < 4096 then p.ring.records else p.ring.records.drop 1) ++ [p.newRecord f forward] := by
  unfold Part.recorded
  dsimp only
  split_ifs <;> simp_all [movePointer, countOverrun, Ring.push, Ring.fill, ringCapacity]

/-! ## Overruns (R123) -/

theorem overruns_of_replaced {r : Ring} {old : RingRecord} {rest : List RingRecord} (hr : r.records = old :: rest)
    (hfull : 4096 ≤ r.records.length) (hf : old.forward = true) (hs : old.sent = false)
    (hp : old.sequence = r.pointer) : r.overruns = true := by
  have full : ¬ r.fill < ringCapacity := Nat.not_lt.mpr hfull
  simp [Ring.overruns, Ring.replaced, full, hr, RingRecord.waiting, hf, hs, hp]

theorem not_overruns {r : Ring} (h : r.records.length < 4096 ∨
    (∀ old, r.records.head? = some old → old.waiting = false ∨ old.sequence ≠ r.pointer)) : r.overruns = false := by
  unfold Ring.overruns Ring.replaced
  rcases h with room | head
  · rw [if_pos (show r.fill < ringCapacity from room)]
    rfl
  · split
    · rfl
    · cases hr : r.records.head? with
      | none => rfl
      | some old => simpa using fun waiting => (head old hr).resolve_left (by simp [waiting])

theorem recorded_overrun {f : Frame} {forward : Bool} {p : Part} (h : p.ring.overruns = true) :
    p.recorded f forward = movePointer (p.ring.pointer + 1)
      (countOverrun { p with ring := p.ring.push (p.newRecord f forward) }) := by
  unfold Part.recorded
  exact if_pos h

/-- Without an overrun its count and its condition stand (R132). -/
theorem recorded_no_overrun {f : Frame} {forward : Bool} {p : Part} (h : p.ring.overruns = false) :
    (p.recorded f forward).ring.overrun = p.ring.overrun ∧
      (p.recorded f forward).link.forwardOverrun = p.link.forwardOverrun := by
  unfold Part.recorded
  dsimp only
  rw [if_neg (by simp [h])]
  split <;> exact ⟨rfl, rfl⟩

/-! ## The pointer's search (R124) -/

/-- The search passes over records that are not waiting. -/
theorem seekPointer_append {ring : Ring} {start : Word32} {age now : Nat} {before : List RingRecord}
    (h : ∀ y ∈ before, y.waiting = false) (after : List RingRecord) (expired : Nat) :
    seekPointer ring start age now (before ++ after) expired = seekPointer ring start age now after expired := by
  induction before with
  | nil => rfl
  | cons y ys ih =>
    have passed : (decide (ring.distance y.sequence < ring.distance start) || !y.waiting) = true := by
      simp [h y (List.mem_cons_self ..)]
    rw [List.cons_append, seekPointer, if_pos passed, ih fun z hz => h z (List.mem_cons_of_mem y hz)]

/-- With no record waiting the pointer stands at the next sequence. -/
theorem seekPointer_none {ring : Ring} {start : Word32} {age now : Nat} {records : List RingRecord}
    (h : ∀ y ∈ records, y.waiting = false) (expired : Nat) :
    seekPointer ring start age now records expired = (ring.next, none, expired) := by
  have passed := seekPointer_append (ring := ring) (start := start) (age := age) (now := now) h [] expired
  rwa [List.append_nil] at passed

/-- A waiting record from the start on that is young enough ends the search. -/
theorem seekPointer_found {ring : Ring} {start : Word32} {age now : Nat} {x : RingRecord} (after : List RingRecord)
    (hw : x.waiting = true) (hd : ring.distance start ≤ ring.distance x.sequence) (ha : now - x.receivedAt < age)
    (expired : Nat) :
    seekPointer ring start age now (x :: after) expired =
      (x.sequence, some (age - (now - x.receivedAt)), expired) := by
  have here : (decide (ring.distance x.sequence < ring.distance start) || !x.waiting) = false := by
    simp [hw, Int.not_lt.mpr hd]
  rw [seekPointer, if_neg (by simp [here]), if_neg (Nat.not_le.mpr ha)]

/-- An overrun's pointer searches from the record after the one it lost; distances are as they were before the writer. -/
theorem distance_succ (r : Ring) (p : Part) (f : Frame) (forward : Bool) :
    (r.push (p.newRecord f forward)).distance (r.pointer + 1) = (r.pointer - r.next).toInt := by
  unfold Ring.distance Ring.push
  congr 1
  bv_omega

end Sys2Proof.Machine
end

section
/-! The decoding of a matched frame (R11, R14, R16): what it does to each signal and to each role. -/

namespace Sys2Proof.Machine

variable {entry period : Nat} {data : List Byte}

/-! ## One signal of the frame -/

/-- The part with a sample of a signal judged (R11). -/
def Part.sampled (i : Nat) (e : SignalEntry) (period : Nat) (data : List Byte) (p : Part) : Part :=
  { p with
    signals := p.signals.setIfInBounds i
      ((p.signal i).sample (judgeSample e data).1 (judgeSample e data).2 (4 * period)) }

/-- The event that a judged sample is to the roles (R16). -/
def sampleEvent (q : Quality × Int) : RoleEvent := if q.1 = .usable then .usable q.2 else .nonUsable

/-- The decoder's turn at one signal index. -/
def decodeSignal (entry period : Nat) (data : List Byte) (p : Part) (i : Nat) : Part :=
  match p.modeCtl.active.signal i with
  | some e => if e.frame = entry then applySample i e period data p else p
  | none => p

theorem decodeFrame_eq (p : Part) :
    decodeFrame entry period data p = (List.range 48).foldl (decodeSignal entry period data) p := rfl

/-- The signal is cut from the frames of a Frame Table entry (R14). -/
def TableSet.cuts (t : TableSet) (entry i : Nat) : Bool := (t.signal i).any fun x => x.frame == entry

theorem decodeSignal_of_not_cut {p : Part} {i : Nat} (h : p.modeCtl.active.cuts entry i = false) :
    decodeSignal entry period data p i = p := by
  unfold decodeSignal
  split
  · rename_i e he
    exact if_neg (by simpa [TableSet.cuts, he] using h)
  · rfl

theorem decodeSignal_of_cut {p : Part} {i : Nat} {e : SignalEntry} (h : p.modeCtl.active.signal i = some e)
    (hf : e.frame = entry) :
    decodeSignal entry period data p i =
      applyRoles i (sampleEvent (judgeSample e data)) (p.sampled i e period data) := by
  simp only [decodeSignal, h, hf, if_true]
  rfl

theorem cuts_iff {t : TableSet} {i : Nat} : t.cuts entry i = true ↔ ∃ e, t.signal i = some e ∧ e.frame = entry := by
  simp [TableSet.cuts, Option.any_eq_true]

theorem lt_of_signal {t : TableSet} {i : Nat} {e : SignalEntry} (h : t.signal i = some e) : i < 48 := by
  have present : t.signals[i]? = some (some e) := Option.join_eq_some_iff.mp h
  exact (Vector.getElem?_eq_some_iff.mp present).1

theorem decodeSignal_applied (p : Part) (i : Nat) : p.Applied (decodeSignal entry period data p i) := by
  by_cases cut : p.modeCtl.active.cuts entry i = true
  · obtain ⟨e, he, hf⟩ := cuts_iff.mp cut
    rw [decodeSignal_of_cut he hf]
    exact (applied_of_written p _ p.roles).trans (applyRoles_applied _ _ _)
  · rw [decodeSignal_of_not_cut (by simpa using cut)]
    exact .refl p

theorem decodeFrame_applied (p : Part) : p.Applied (decodeFrame entry period data p) :=
  foldl_applied decodeSignal_applied _ p

/-! ## The turns that matter -/

/-- Turns that keep a figure under the active set, in a row keep it. -/
theorem foldl_decodeSignal_keeps {β : Type} (g : Part → β) {p : Part} {is : List Nat}
    (h : ∀ i ∈ is, ∀ q, q.modeCtl.active = p.modeCtl.active → g (decodeSignal entry period data q i) = g q) :
    g (is.foldl (decodeSignal entry period data) p) = g p := by
  induction is generalizing p with
  | nil => rfl
  | cons i is ih =>
    have same := (decodeSignal_applied (entry := entry) (period := period) (data := data) p i).active
    rw [List.foldl_cons, ih fun x hx q hq => h x (List.mem_cons_of_mem i hx) q (hq.trans same),
      h i (List.mem_cons_self ..) p rfl]

/-- A figure that one signal's turn alone moves is left as that turn leaves it. -/
theorem decodeFrame_of_one {β : Type} (g : Part → β) {p : Part} {j : Nat} (hj : j < 48)
    (h : ∀ i, i ≠ j → ∀ q, q.modeCtl.active = p.modeCtl.active → g (decodeSignal entry period data q i) = g q) :
    ∃ q, p.Applied q ∧ g q = g p ∧ g (decodeFrame entry period data p) = g (decodeSignal entry period data q j) := by
  obtain ⟨before, after, split⟩ := List.append_of_mem (List.mem_range.mpr hj)
  have distinct := List.nodup_middle.mp (split ▸ List.nodup_range : (before ++ j :: after).Nodup)
  have fresh : ∀ i ∈ before ++ after, i ≠ j := fun i hi e => (List.nodup_cons.mp distinct).1 (e ▸ hi)
  have first := foldl_applied (decodeSignal_applied (entry := entry) (period := period) (data := data)) before p
  refine ⟨_, first, foldl_decodeSignal_keeps g fun i hi => h i (fresh i (List.mem_append_left _ hi)), ?_⟩
  rw [decodeFrame_eq, split, List.foldl_append, List.foldl_cons]
  refine foldl_decodeSignal_keeps g fun i hi q hq => h i (fresh i (List.mem_append_right _ hi)) q ?_
  exact hq.trans ((decodeSignal_applied _ _).active.trans first.active)

/-- A figure that two signals' turns alone move is left as the two leave it, the lower index first (R14). -/
theorem decodeFrame_of_two {β : Type} (g : Part → β) {p : Part} {j b : Nat} (hjb : j < b) (hb : b < 48)
    (h : ∀ i, i ≠ j → i ≠ b → ∀ q, q.modeCtl.active = p.modeCtl.active →
      g (decodeSignal entry period data q i) = g q) :
    ∃ q r, p.Applied q ∧ p.Applied r ∧ g q = g p ∧ g r = g (decodeSignal entry period data q j) ∧
      g (decodeFrame entry period data p) = g (decodeSignal entry period data r b) := by
  have ordered : (List.range 48).Pairwise (· < ·) := List.pairwise_lt_range
  obtain ⟨before, rest, split⟩ := List.append_of_mem (List.mem_range.mpr (Nat.lt_trans hjb hb))
  rw [split, List.pairwise_append, List.pairwise_cons] at ordered
  obtain ⟨-, ⟨above, sorted⟩, below⟩ := ordered
  have later : b ∈ rest := by
    have somewhere : b ∈ before ++ j :: rest := split ▸ List.mem_range.mpr hb
    rcases List.mem_append.mp somewhere with early | late
    · exact absurd (below b early j (List.mem_cons_self ..)) (by omega)
    · exact (List.mem_cons.mp late).resolve_left (by omega)
  obtain ⟨between, after, again⟩ := List.append_of_mem later
  rw [again, List.pairwise_append, List.pairwise_cons] at sorted
  obtain ⟨-, ⟨beyond, -⟩, within⟩ := sorted
  have first := foldl_applied (decodeSignal_applied (entry := entry) (period := period) (data := data)) before p
  have second := first.trans (decodeSignal_applied (entry := entry) (period := period) (data := data) _ j)
  have third := second.trans
    (foldl_applied (decodeSignal_applied (entry := entry) (period := period) (data := data)) between _)
  refine ⟨_, _, first, third, ?_, ?_, ?_⟩
  · refine foldl_decodeSignal_keeps g fun i hi => h i ?_ ?_
    · exact (below i hi j (List.mem_cons_self ..)).ne
    · exact ((below i hi j (List.mem_cons_self ..)).trans hjb).ne
  · refine foldl_decodeSignal_keeps g fun i hi q hq => h i ?_ ?_ q (hq.trans second.active)
    · exact (above i (again ▸ List.mem_append_left _ hi)).ne'
    · exact (within i hi b (List.mem_cons_self ..)).ne
  · rw [decodeFrame_eq, split, again, List.foldl_append, List.foldl_cons, List.foldl_append, List.foldl_cons]
    refine foldl_decodeSignal_keeps g fun i hi q hq => h i ?_ ?_ q ?_
    · exact (hjb.trans (beyond i hi)).ne'
    · exact (beyond i hi).ne'
    · exact hq.trans ((decodeSignal_applied _ _).active.trans third.active)

/-! ## Signals (R11, R13) -/

theorem decodeSignal_signal_other {p : Part} {i j : Nat} (h : i ≠ j) :
    (decodeSignal entry period data p i).signal j = p.signal j := by
  by_cases cut : p.modeCtl.active.cuts entry i = true
  · obtain ⟨e, he, hf⟩ := cuts_iff.mp cut
    have kept := applyRoles_signals i (sampleEvent (judgeSample e data)) (p.sampled i e period data)
    rw [decodeSignal_of_cut he hf]
    exact (congrArg (fun v : Vector Signal 48 => v[j]?.getD {}) kept).trans
      (by simp [Part.sampled, Part.signal, Vector.getElem?_setIfInBounds_ne h])
  · rw [decodeSignal_of_not_cut (by simpa using cut)]

theorem decodeSignal_signal {p : Part} {j : Nat} {x : SignalEntry} (h : p.modeCtl.active.signal j = some x)
    (hf : x.frame = entry) :
    (decodeSignal entry period data p j).signal j =
      (p.signal j).sample (judgeSample x data).1 (judgeSample x data).2 (4 * period) := by
  have kept := applyRoles_signals j (sampleEvent (judgeSample x data)) (p.sampled j x period data)
  rw [decodeSignal_of_cut h hf]
  exact (congrArg (fun v : Vector Signal 48 => v[j]?.getD {}) kept).trans
    (by simp [Part.sampled, lt_of_signal h])

theorem decodeFrame_signal_of_not_cut {p : Part} {j : Nat} (h : p.modeCtl.active.cuts entry j = false) :
    (decodeFrame entry period data p).signal j = p.signal j := by
  refine foldl_decodeSignal_keeps (fun q => q.signal j) fun i _ q hq => ?_
  by_cases same : i = j
  · subst same
    simp only [decodeSignal_of_not_cut (hq ▸ h)]
  · exact decodeSignal_signal_other same

theorem decodeFrame_signal {p : Part} {j : Nat} {x : SignalEntry} (h : p.modeCtl.active.signal j = some x)
    (hf : x.frame = entry) :
    (decodeFrame entry period data p).signal j =
      (p.signal j).sample (judgeSample x data).1 (judgeSample x data).2 (4 * period) := by
  obtain ⟨q, applied, before, turn⟩ := decodeFrame_of_one (entry := entry) (period := period) (data := data)
    (fun q => q.signal j) (lt_of_signal h) fun i hi q _ => decodeSignal_signal_other hi
  rw [turn, decodeSignal_signal (applied.active ▸ h) hf, before]

/-! ## Roles (R16) -/

/-- A role's entry in the Role Map. -/
def TableSet.role (t : TableSet) (k : Nat) : RoleEntry := t.roles[k]?.getD {}

/-- A sample's event does not look at the other source. -/
theorem primaryEvent_sample (r : Role) (q : Quality × Int) (backup : Option Int) :
    primaryEvent r (sampleEvent q) backup = primaryEvent r (sampleEvent q) none := by
  unfold sampleEvent
  split
  · cases h : r.source <;> simp [primaryEvent, h]
  · cases h : r.source <;> simp [primaryEvent, h]

theorem backupEvent_sample (r : Role) (q : Quality × Int) (primary : Option Int) :
    backupEvent r (sampleEvent q) primary = backupEvent r (sampleEvent q) none := by
  unfold sampleEvent
  split
  · cases h : r.source <;> simp [backupEvent, h]
  · rfl

/-- What a sample of a signal does to a role of whose sources it may be one. -/
def TableSet.roleSample (t : TableSet) (i k : Nat) (q : Quality × Int) (r : Role) : Role :=
  if (t.role k).primary = some i then (primaryEvent r (sampleEvent q) none).role
  else if (t.role k).backup = some i then (backupEvent r (sampleEvent q) none).role
  else r

theorem roleStep_sample (p : Part) (i k : Nat) (q : Quality × Int) :
    (p.roleStep i (sampleEvent q) k).role = p.modeCtl.active.roleSample i k q (p.role k) := by
  unfold Part.roleStep TableSet.roleSample TableSet.role
  dsimp only
  split_ifs
  · rw [primaryEvent_sample]
  · rw [primaryEvent_sample]
  · rw [backupEvent_sample]
  · rfl

theorem decodeSignal_role {p : Part} {i k : Nat} {x : SignalEntry} (h : p.modeCtl.active.signal i = some x)
    (hf : x.frame = entry) (hk : k < 10) :
    (decodeSignal entry period data p i).role k =
      p.modeCtl.active.roleSample i k (judgeSample x data) (p.role k) := by
  rw [decodeSignal_of_cut h hf, applyRoles_role _ _ _ hk, roleStep_sample]
  rfl

/-- A signal that is not cut from the frame, or is no source of the role, leaves the role. -/
theorem decodeSignal_role_other {p : Part} {i k : Nat} (hk : k < 10)
    (hp : (p.modeCtl.active.role k).primary = some i → p.modeCtl.active.cuts entry i = false)
    (hb : (p.modeCtl.active.role k).backup = some i → p.modeCtl.active.cuts entry i = false) :
    (decodeSignal entry period data p i).role k = p.role k := by
  by_cases cut : p.modeCtl.active.cuts entry i = true
  · have noPrimary : (p.modeCtl.active.role k).primary ≠ some i := fun h => by simp [hp h] at cut
    have noBackup : (p.modeCtl.active.role k).backup ≠ some i := fun h => by simp [hb h] at cut
    obtain ⟨e, he, hf⟩ := cuts_iff.mp cut
    rw [decodeSignal_role he hf hk, TableSet.roleSample, if_neg noPrimary, if_neg noBackup]
  · rw [decodeSignal_of_not_cut (by simpa using cut)]

theorem decodeFrame_role_of_no_source {p : Part} {k : Nat} (hk : k < 10)
    (hp : ∀ j, (p.modeCtl.active.role k).primary = some j → p.modeCtl.active.cuts entry j = false)
    (hb : ∀ j, (p.modeCtl.active.role k).backup = some j → p.modeCtl.active.cuts entry j = false) :
    (decodeFrame entry period data p).role k = p.role k :=
  foldl_decodeSignal_keeps (fun q => q.role k) fun i _ q hq =>
    decodeSignal_role_other hk (by rw [hq]; exact hp i) (by rw [hq]; exact hb i)

/-- With one source in the frame, its sample is what happens to the role. -/
theorem decodeFrame_role_of_one_source {p : Part} {j k : Nat} {x : SignalEntry}
    (h : p.modeCtl.active.signal j = some x) (hf : x.frame = entry) (hk : k < 10)
    (hp : ∀ i, (p.modeCtl.active.role k).primary = some i → i = j ∨ p.modeCtl.active.cuts entry i = false)
    (hb : ∀ i, (p.modeCtl.active.role k).backup = some i → i = j ∨ p.modeCtl.active.cuts entry i = false) :
    (decodeFrame entry period data p).role k =
      p.modeCtl.active.roleSample j k (judgeSample x data) (p.role k) := by
  obtain ⟨q, applied, before, turn⟩ := decodeFrame_of_one (entry := entry) (period := period) (data := data)
    (fun q => q.role k) (lt_of_signal h) fun i hi q hq =>
      decodeSignal_role_other hk (by rw [hq]; exact fun e => (hp i e).resolve_left hi)
        (by rw [hq]; exact fun e => (hb i e).resolve_left hi)
  rw [turn, decodeSignal_role (by rw [applied.active]; exact h) hf hk, before, applied.active]

/-- With both sources in the frame, their samples happen to the role in index order. -/
theorem decodeFrame_role_of_two_sources {p : Part} {j b k : Nat} {x y : SignalEntry} (hjb : j < b)
    (hx : p.modeCtl.active.signal j = some x) (hxf : x.frame = entry)
    (hy : p.modeCtl.active.signal b = some y) (hyf : y.frame = entry) (hk : k < 10)
    (hp : ∀ i, (p.modeCtl.active.role k).primary = some i → i = j ∨ i = b)
    (hb : ∀ i, (p.modeCtl.active.role k).backup = some i → i = j ∨ i = b) :
    (decodeFrame entry period data p).role k =
      p.modeCtl.active.roleSample b k (judgeSample y data)
        (p.modeCtl.active.roleSample j k (judgeSample x data) (p.role k)) := by
  obtain ⟨q, r, first, second, before, between, turn⟩ := decodeFrame_of_two (entry := entry) (period := period)
    (data := data) (fun q => q.role k) hjb (lt_of_signal hy) fun i hj hb' q hq =>
      decodeSignal_role_other hk (by rw [hq]; exact fun e => absurd (hp i e) (by simp [hj, hb']))
        (by rw [hq]; exact fun e => absurd (hb i e) (by simp [hj, hb']))
  rw [turn, decodeSignal_role (by rw [second.active]; exact hy) hyf hk, between,
    decodeSignal_role (by rw [first.active]; exact hx) hxf hk, before, first.active, second.active]

end Sys2Proof.Machine

namespace Sys2Proof.Machine

/-! ## R16's table for samples -/

/-- The primary's rows of the table. -/
theorem primaryEvent_sample_table (role : Role) (q : Quality × Int) :
    let next := (primaryEvent role (sampleEvent q) none).role
    (q.1 = .usable → role.source = .backup → role.returns + 1 ≠ 3 →
        next = { role with returns := role.returns + 1 }) ∧
      (q.1 = .usable → (role.source = .backup ∧ role.returns + 1 = 3) ∨ role.source = .none →
        next = { source := .primary, value := some q.2, returns := 0 }) ∧
      (q.1 = .usable → role.source = .primary → next = { role with value := some q.2 }) ∧
      (q.1 ≠ .usable → next = if role.source = .backup then { role with returns := 0 } else role) := by
  intro next
  refine ⟨fun hu hs hr => ?_, fun hu hs => ?_, fun hu hs => ?_, fun hu => ?_⟩
  · simp [next, sampleEvent, hu, primaryEvent, hs, hr, RoleStep.unchanged]
  · rcases hs with ⟨hs, hr⟩ | hs
    · simp [next, sampleEvent, hu, primaryEvent, hs, hr]
    · simp [next, sampleEvent, hu, primaryEvent, hs]
  · simp [next, sampleEvent, hu, primaryEvent, hs]
  · cases hs : role.source <;> simp [next, sampleEvent, hu, primaryEvent, hs, RoleStep.unchanged]

/-- The backup's rows of the table. -/
theorem backupEvent_sample_table (role : Role) (q : Quality × Int) :
    let next := (backupEvent role (sampleEvent q) none).role
    (q.1 = .usable → role.source = .backup → next = { role with value := some q.2 }) ∧
      (q.1 = .usable → role.source = .none → next = { source := .backup, value := some q.2, returns := 0 }) ∧
      (q.1 ≠ .usable ∨ role.source = .primary → next = role) := by
  intro next
  refine ⟨fun hu hs => ?_, fun hu hs => ?_, fun h => ?_⟩
  · simp [next, sampleEvent, hu, backupEvent, hs]
  · simp [next, sampleEvent, hu, backupEvent, hs]
  · by_cases hu : q.1 = .usable
    · simp [next, sampleEvent, hu, backupEvent, h.resolve_left (by simp [hu]), RoleStep.unchanged]
    · simp [next, sampleEvent, hu, backupEvent, RoleStep.unchanged]

theorem roleSample_of_primary {t : TableSet} {i k : Nat} (h : (t.role k).primary = some i) (q : Quality × Int) (r : Role) :
    t.roleSample i k q r = (primaryEvent r (sampleEvent q) none).role := if_pos h

theorem roleSample_of_backup {t : TableSet} {i k : Nat} (hp : (t.role k).primary ≠ some i)
    (hb : (t.role k).backup = some i) (q : Quality × Int) (r : Role) :
    t.roleSample i k q r = (backupEvent r (sampleEvent q) none).role := (if_neg hp).trans (if_pos hb)

/-- What the decoding of a frame does to a role, by R16's table. -/
theorem decodeFrame_role_table (i period : Nat) (data : List Byte) (p : Part) {k : Nat} (hk : k < 10) :
    let set := p.modeCtl.active
    let entry := set.role k
    let role := p.role k
    let next := (decodeFrame i period data p).role k
    ((∀ j, entry.primary = some j → set.cuts i j = false) → (∀ j, entry.backup = some j → set.cuts i j = false) →
        next = role) ∧
      (∀ j x, entry.primary = some j → set.signal j = some x → x.frame = i →
        (∀ b, entry.backup = some b → b = j ∨ set.cuts i b = false) →
        next = (primaryEvent role (sampleEvent (judgeSample x data)) none).role) ∧
      (∀ b x, entry.backup = some b → set.signal b = some x → x.frame = i →
        (∀ j, entry.primary = some j → set.cuts i j = false) →
        next = (backupEvent role (sampleEvent (judgeSample x data)) none).role) ∧
      ∀ j b x y, entry.primary = some j → entry.backup = some b → set.signal j = some x → set.signal b = some y →
        x.frame = i → y.frame = i → role.source = .none → (judgeSample x data).1 = .usable →
        (judgeSample y data).1 = .usable →
        (j < b → next = { source := .primary, value := some (judgeSample x data).2, returns := 0 }) ∧
          (b < j → next = { source := .backup, value := some (judgeSample y data).2, returns := 1 }) := by
  intro set entry role next
  refine ⟨fun hp hb => decodeFrame_role_of_no_source hk hp hb, fun j x hp hx hf hb => ?_, fun b x hb hx hf hp => ?_,
    fun j b x y hp hb hx hy hxf hyf hs hux huy => ⟨fun order => ?_, fun order => ?_⟩⟩
  · refine (decodeFrame_role_of_one_source hx hf hk (fun i' h => Or.inl ?_) hb).trans (roleSample_of_primary hp _ _)
    exact Option.some.inj (h.symm.trans hp)
  · have distinct : entry.primary ≠ some b := fun h => by
      simpa [cuts_iff.mpr ⟨x, hx, hf⟩] using hp b h
    refine (decodeFrame_role_of_one_source hx hf hk (fun j h => Or.inr (hp j h)) (fun i' h => Or.inl ?_)).trans
      (roleSample_of_backup distinct hb _ _)
    exact Option.some.inj (h.symm.trans hb)
  · have distinct : entry.primary ≠ some b := by simp only [hp, ne_eq, Option.some.injEq]; omega
    refine (decodeFrame_role_of_two_sources order hx hxf hy hyf hk (fun i' h => Or.inl ?_)
      (fun i' h => Or.inr ?_)).trans ?_
    · exact Option.some.inj (h.symm.trans hp)
    · exact Option.some.inj (h.symm.trans hb)
    · rw [roleSample_of_primary hp, roleSample_of_backup distinct hb,
        (primaryEvent_sample_table _ _).2.1 hux (.inr hs)]
      exact (backupEvent_sample_table _ _).2.2 (.inr rfl)
  · have distinct : entry.primary ≠ some b := by simp only [hp, ne_eq, Option.some.injEq]; omega
    refine (decodeFrame_role_of_two_sources order hy hyf hx hxf hk (fun i' h => Or.inr ?_)
      (fun i' h => Or.inl ?_)).trans ?_
    · exact Option.some.inj (h.symm.trans hp)
    · exact Option.some.inj (h.symm.trans hb)
    · rw [roleSample_of_primary hp, roleSample_of_backup distinct hb,
        (backupEvent_sample_table _ _).2.1 huy hs]
      exact (primaryEvent_sample_table _ _).1 hux rfl (by simp)

end Sys2Proof.Machine
end

section
/-! A data frame from the port through the matcher (R5, R6): the figures that the recording and the decoding leave, as the
settled part shows them. -/

namespace Sys2Proof.Machine

/-! ## The matcher's two ways (R5, R6) -/

/-- The part with a matched frame counted, and recorded when it came in on port A. -/
def Part.matched (port : PortId) (f : Frame) (i : Nat) (forward : Bool) (p : Part) : Part :=
  if port = .a then recordFrame f forward (countEntry i p) else countEntry i p

theorem routeFrame_passAll {f : Frame} {p : Part} (hm : isReserved f.format f.ident.toNat = false)
    (hp : p.modeCtl.passAll = true) : routeFrame .a f p = recordFrame f true p := by
  simp [routeFrame, hm, matchFrame, hp]

theorem routeFrame_matched {port : PortId} {f : Frame} {i : Nat} {e : FrameEntry} {p : Part}
    (hm : isReserved f.format f.ident.toNat = false) (hp : p.modeCtl.passAll = false)
    (hi : p.modeCtl.active.findFrame port f = some i) (he : p.modeCtl.active.frame i = some e) :
    routeFrame port f p = decodeFrame i e.period f.data (p.matched port f i e.forward) := by
  have entry : (p.modeCtl.active.frames[i]?).join = some e := he
  simp only [routeFrame, hm, matchFrame, hp, hi, entry, Bool.false_eq_true, if_false]
  rfl

/-- What the matcher's count, the ring, FORWARD_OVERRUN and the captures do not touch, a matched frame leaves. -/
theorem matched_keeps {β : Type} (g : Part → β) (hc : ∀ r : Part, g r.uncaptured = g r)
    (hm : ∀ (p : Part) matcher, g { p with matcher := matcher } = g p)
    (hr : ∀ (p : Part) ring, g { p with ring := ring } = g p)
    (hl : ∀ (p : Part) b, g { p with link := { p.link with forwardOverrun := b } } = g p)
    (port : PortId) (f : Frame) (i : Nat) (forward : Bool) (p : Part) : g (p.matched port f i forward) = g p := by
  unfold Part.matched
  split
  · exact (recordFrame_keeps g hc hr hl f forward _).trans (hm p _)
  · exact hm p _

/-- What an event of a signal does not touch and the matcher's own figures do not bear on, the matcher keeps. -/
theorem matchFrame_keeps {β : Type} (g : Part → β) (hd : ∀ r : Part, g r.undecoded = g r)
    (hm : ∀ (p : Part) matcher, g { p with matcher := matcher } = g p)
    (hr : ∀ (p : Part) ring, g { p with ring := ring } = g p)
    (hl : ∀ (p : Part) b, g { p with link := { p.link with forwardOverrun := b } } = g p)
    (port : PortId) (f : Frame) (p : Part) : g (matchFrame port f p) = g p := by
  have captures : ∀ r : Part, g r.uncaptured = g r := fun r => by
    rw [← hd r.uncaptured, ← hd r]
    rfl
  have unmatched : ∀ q, g (countUnmatched q p) = g p := fun q => by cases q <;> exact hm p _
  unfold matchFrame
  split
  · split
    · exact recordFrame_keeps g captures hr hl f true p
    · exact unmatched .b
  · split
    · exact unmatched port
    · split
      · exact unmatched port
      · rename_i i _ _ e _
        exact ((decodeFrame_applied _).keeps g hd).trans (matched_keeps g captures hm hr hl port f i e.forward p)

theorem matchFrame_restore (port : PortId) (f : Frame) (p : Part) : (matchFrame port f p).restore = p.restore :=
  matchFrame_keeps Part.restore (fun _ => rfl) (fun _ _ => rfl) (fun _ _ => rfl) (fun _ _ => rfl) port f p

/-- A frame that reaches the matcher leaves the part as the matcher does, settled. -/
theorem exec_dataFrameReceived_matcher {s : State} {port : PortId} {f : Frame} (svc : Bool) (hf : frameOk f = true)
    (ha : s.part.awake = true) (hb : (s.part.port port).state ≠ .busOff)
    (hm : isReserved f.format f.ident.toNat = false) (hq : port = .a → s.part.register.query = none) :
    exec (.dataFrameReceived port f svc) s =
      .next { s with part := settle s.medium (routeFrame port f (s.part.heard port f svc)) } := by
  have routed : routeFrame port f (s.part.heard port f svc) = matchFrame port f (s.part.heard port f svc) := by
    simp [routeFrame, hm]
  rw [exec_dataFrameReceived_awake svc hf ha hb hq, after_eq s]
  rw [routed, matchFrame_restore, heard_restore]
  exact (awake_parts ha).2.2.2

/-! ## The record (R122) -/

/-- The ring's records without their sent flags, as the settling leaves them. -/
def Ring.unsent (r : Ring) : List RingRecord := r.records.map fun x => { x with sent := false }

theorem settle_unsent (m : Medium) (p : Part) : (settle m p).ring.unsent = p.ring.unsent :=
  settle_keeps (fun q => q.ring.unsent)
    (fun q => by simp [Ring.unsent, Part.lasting, Ring.lasting, List.map_map, Function.comp_def]) m p

/-- The recorded frame's ring, as the records stood when the frame came in. -/
theorem recorded_unsent (f : Frame) (forward : Bool) (p : Part) :
    (p.recorded f forward).ring.unsent =
      ((if p.ring.records.length < 4096 then p.ring.records else p.ring.records.drop 1).map fun x =>
        { x with sent := false }) ++ [p.newRecord f forward] := by
  rw [Ring.unsent, recorded_records, List.map_append]
  rfl

/-- The record depends on the ring, the time and the maximum age alone. -/
theorem recorded_ring_congr {p q : Part} (hr : q.ring = p.ring) (hn : q.now = p.now)
    (ha : q.modeCtl.active = p.modeCtl.active) (f : Frame) (forward : Bool) :
    (q.recorded f forward).ring = (p.recorded f forward).ring := by
  unfold Part.recorded
  simp only [Part.newRecord, hr, hn]
  split_ifs <;> simp only [movePointer, countOverrun, ha]

theorem recorded_forwardOverrun (f : Frame) (forward : Bool) (p : Part) :
    (p.recorded f forward).link.forwardOverrun = (p.ring.overruns || p.link.forwardOverrun) := by
  cases h : p.ring.overruns
  · rw [(recorded_no_overrun h).2, Bool.false_or]
  · rw [recorded_overrun h]
    rfl

/-- A frame coming in leaves the ring, the time, the set and FORWARD_OVERRUN as they are. -/
theorem heard_recorded (port : PortId) (f : Frame) (svc forward : Bool) (p : Part) :
    ((p.heard port f svc).recorded f forward).ring = (p.recorded f forward).ring ∧
      ((p.heard port f svc).recorded f forward).link.forwardOverrun =
        (p.recorded f forward).link.forwardOverrun := by
  have ring : (p.heard port f svc).ring = p.ring :=
    heard_keeps Part.ring (fun _ _ => rfl) (fun _ _ _ => by simp) (fun _ _ _ => rfl) port f svc p
  have now : (p.heard port f svc).now = p.now :=
    heard_keeps Part.now (fun _ _ => rfl) (fun _ port _ => by cases port <;> rfl) (fun _ _ _ => rfl) port f svc p
  have link : (p.heard port f svc).link = p.link :=
    heard_keeps Part.link (fun _ _ => rfl) (fun _ _ _ => by simp) (fun _ _ _ => rfl) port f svc p
  refine ⟨recorded_ring_congr ring now (heard_active port f svc p) f forward, ?_⟩
  rw [recorded_forwardOverrun, recorded_forwardOverrun, ring, link]

/-- Whichever way the matcher takes, a port-A frame that it records leaves the ring and FORWARD_OVERRUN as recorded. -/
theorem routeFrame_recorded {f : Frame} {forward : Bool} {p : Part} (hm : isReserved f.format f.ident.toNat = false)
    (h : (p.modeCtl.passAll = true ∧ forward = true) ∨
      (p.modeCtl.passAll = false ∧ ∃ i e, p.modeCtl.active.findFrame .a f = some i ∧
        p.modeCtl.active.frame i = some e ∧ e.forward = forward)) :
    (routeFrame .a f p).ring = (p.recorded f forward).ring ∧
      (routeFrame .a f p).link.forwardOverrun = (p.recorded f forward).link.forwardOverrun := by
  have ring : ∀ q : Part, (recordFrame f forward q).ring = (q.recorded f forward).ring :=
    recordFrame_leaves Part.ring (fun _ => rfl) f forward
  have overrun : ∀ q : Part,
      (recordFrame f forward q).link.forwardOverrun = (q.ring.overruns || q.link.forwardOverrun) := fun q =>
    (recordFrame_leaves (fun r => r.link.forwardOverrun) (fun _ => rfl) f forward q).trans
      (recorded_forwardOverrun f forward q)
  rw [recorded_forwardOverrun]
  rcases h with ⟨hp, rfl⟩ | ⟨hp, i, e, hi, he, rfl⟩
  · rw [routeFrame_passAll hm hp]
    exact ⟨ring p, overrun p⟩
  · have decoded := decodeFrame_applied (entry := i) (period := e.period) (data := f.data)
      (p.matched .a f i e.forward)
    rw [routeFrame_matched hm hp hi he]
    refine ⟨(decoded.keeps Part.ring fun _ => rfl).trans ((ring (countEntry i p)).trans ?_),
      (decoded.keeps (fun q => q.link.forwardOverrun) fun _ => rfl).trans (overrun (countEntry i p))⟩
    exact recorded_ring_congr (p := p) (q := countEntry i p) rfl rfl rfl f e.forward

end Sys2Proof.Machine
end

section
/-! What a data frame at an AWAKE part is seen to have done: the record in the ring, the signals and the roles, and the
overrun (R11, R16, R122, R123). -/

namespace Sys2Proof.Machine

/-! ## The frame as it comes in -/

theorem heard_received (port : PortId) (f : Frame) (svc : Bool) (p : Part) :
    ((p.heard port f svc).port port).received = min 4294967295 ((p.port port).received + 1) := by
  have counted : ((p.heard port f svc).port port).received = ((countReceived port p).port port).received := by
    have lasting := heard_lasting port f svc p
    cases port
    · exact (congrArg (fun q : Part => q.portA.received) lasting :)
    · exact (congrArg (fun q : Part => q.portB.received) lasting :)
  exact counted.trans (countReceived_port port p)

/-- What a frame's coming in leaves of the blocks that the matcher and the producers read. -/
theorem heard_blocks (port : PortId) (f : Frame) (svc : Bool) (p : Part) :
    (p.heard port f svc).matcher = p.matcher ∧ (p.heard port f svc).signals = p.signals ∧
      (p.heard port f svc).roles = p.roles ∧ (p.heard port f svc).detector = p.detector ∧
      (p.heard port f svc).register = p.register ∧ (p.heard port f svc).hire = p.hire ∧
      (p.heard port f svc).ring = p.ring := by
  have kept := heard_keeps (fun q => (q.matcher, q.signals, q.roles, q.detector, q.register, q.hire, q.ring))
    (fun _ _ => rfl) (fun _ port _ => by cases port <;> rfl) (fun _ _ _ => rfl) port f svc p
  simpa only [Prod.mk.injEq] using kept

/-! ## The record and the overrun -/

/-- A port-A frame that the matcher records: under pass-all with the forward flag set, else with its entry's (R5, R6). -/
def Part.records (p : Part) (f : Frame) (forward : Bool) : Prop :=
  (p.modeCtl.passAll = true ∧ forward = true) ∨
    (p.modeCtl.passAll = false ∧ ∃ i e, p.modeCtl.active.findFrame .a f = some i ∧
      p.modeCtl.active.frame i = some e ∧ e.forward = forward)

theorem heard_records {f : Frame} {forward svc : Bool} {p : Part} (h : p.records f forward) :
    (p.heard .a f svc).records f forward := by
  unfold Part.records
  rw [heard_passAll, heard_active]
  exact h

/-- The router leaves the ring and FORWARD_OVERRUN as the record made of the part before the frame does. -/
theorem routeFrame_heard_recorded {f : Frame} {forward : Bool} (svc : Bool) {p : Part}
    (hm : isReserved f.format f.ident.toNat = false) (h : p.records f forward) :
    (routeFrame .a f (p.heard .a f svc)).ring = (p.recorded f forward).ring ∧
      (routeFrame .a f (p.heard .a f svc)).link.forwardOverrun = (p.recorded f forward).link.forwardOverrun := by
  obtain ⟨ring, overrun⟩ := routeFrame_recorded hm (heard_records (svc := svc) h)
  obtain ⟨ring', overrun'⟩ := heard_recorded .a f svc forward p
  exact ⟨ring.trans ring', overrun.trans overrun'⟩

/-- The settled ring holds the record at its end (R122). -/
theorem settle_recorded (m : Medium) {f : Frame} {forward : Bool} (svc : Bool) {p : Part}
    (hm : isReserved f.format f.ident.toNat = false) (h : p.records f forward) :
    (settle m (routeFrame .a f (p.heard .a f svc))).ring.next = p.ring.next + 1 ∧
      (settle m (routeFrame .a f (p.heard .a f svc))).ring.unsent =
        ((if p.ring.records.length < 4096 then p.ring.records else p.ring.records.drop 1).map fun x =>
          { x with sent := false }) ++ [p.newRecord f forward] := by
  have ring := (routeFrame_heard_recorded svc hm h).1
  constructor
  · exact (settle_keeps (fun q => q.ring.next) (fun _ => rfl) m _).trans
      ((congrArg Ring.next ring).trans (recorded_next f forward p))
  · exact (settle_unsent m _).trans ((congrArg Ring.unsent ring).trans (recorded_unsent f forward p))

/-- The settled overrun count and FORWARD_OVERRUN are as the record leaves them (R132). -/
theorem settle_recorded_overrun (m : Medium) {f : Frame} {forward : Bool} (svc : Bool) {p : Part}
    (hm : isReserved f.format f.ident.toNat = false) (h : p.records f forward) :
    (settle m (routeFrame .a f (p.heard .a f svc))).ring.overrun = (p.recorded f forward).ring.overrun ∧
      (settle m (routeFrame .a f (p.heard .a f svc))).link.forwardOverrun =
        (p.recorded f forward).link.forwardOverrun := by
  obtain ⟨ring, overrun⟩ := routeFrame_heard_recorded svc hm h
  exact ⟨(settle_keeps (fun q => q.ring.overrun) (fun _ => rfl) m _).trans (congrArg Ring.overrun ring),
    (settle_keeps (fun q => q.link.forwardOverrun) (fun _ => rfl) m _).trans overrun⟩

/-- With a frame in port B's transmitter, the pointer is settled where the record leaves it. -/
theorem settle_recorded_place (m : Medium) {f : Frame} {forward : Bool} (svc : Bool) {p : Part}
    (hm : isReserved f.format f.ident.toNat = false) (h : p.records f forward) (hb : p.portB.tx.isSome = true) :
    (settle m (routeFrame .a f (p.heard .a f svc))).ring.place = (p.recorded f forward).ring.place := by
  have held : (p.heard .a f svc).portB = p.portB := by
    unfold Part.heard isWakeCause
    rfl
  have routed : routeFrame .a f (p.heard .a f svc) = matchFrame .a f (p.heard .a f svc) := by
    simp [routeFrame, hm]
  have portB : (routeFrame .a f (p.heard .a f svc)).portB = p.portB := by
    rw [routed]
    exact (matchFrame_keeps Part.portB (fun _ => rfl) (fun _ _ => rfl) (fun _ _ => rfl) (fun _ _ => rfl) .a f _).trans
      held
  rw [settle_place m (.inr (by rw [portB]; exact hb)), (routeFrame_heard_recorded svc hm h).1]

/-- An overrun's pointer with no waiting record left stands at the next sequence (R124). -/
theorem recorded_pointer_none {f : Frame} {forward : Bool} {p : Part} (ho : p.ring.overruns = true)
    (h : ∀ x ∈ (p.ring.push (p.newRecord f forward)).records, x.waiting = false) :
    (p.recorded f forward).ring.pointer = p.ring.next + 1 ∧ (p.recorded f forward).ring.age = none := by
  rw [recorded_overrun ho]
  have found := seekPointer_none (ring := (countOverrun { p with ring := p.ring.push (p.newRecord f forward) }).ring)
    (start := p.ring.pointer + 1) (age := p.modeCtl.active.limits.maximumAge) (now := p.now) h 0
  exact ⟨congrArg Prod.fst found, congrArg (fun x => x.2.1) found⟩

/-- An overrun's pointer finds the next waiting record that is young enough (R124). -/
theorem recorded_pointer_found {f : Frame} {forward : Bool} {p : Part} {before after : List RingRecord} {x : RingRecord}
    (ho : p.ring.overruns = true) (hs : (p.ring.push (p.newRecord f forward)).records = before ++ x :: after)
    (hb : ∀ y ∈ before, y.waiting = false) (hx : x.waiting = true)
    (hd : (p.ring.pointer - p.ring.next).toInt ≤ (x.sequence - (p.ring.next + 1)).toInt)
    (ha : p.now - x.receivedAt < p.modeCtl.active.limits.maximumAge) :
    (p.recorded f forward).ring.pointer = x.sequence ∧
      (p.recorded f forward).ring.age = some (p.modeCtl.active.limits.maximumAge - (p.now - x.receivedAt)) ∧
      (p.recorded f forward).ring.expired = min 4294967295 p.ring.expired := by
  rw [recorded_overrun ho]
  generalize hr : (countOverrun { p with ring := p.ring.push (p.newRecord f forward) }).ring = ring
  have records : ring.records = before ++ x :: after := by rw [← hr]; exact hs
  have start : ring.distance (p.ring.pointer + 1) ≤ ring.distance x.sequence := by
    have shifted := distance_succ p.ring p f forward
    rw [← hr]
    exact (le_of_eq shifted).trans hd
  have found : seekPointer ring (p.ring.pointer + 1) p.modeCtl.active.limits.maximumAge p.now ring.records 0 =
      (x.sequence, some (p.modeCtl.active.limits.maximumAge - (p.now - x.receivedAt)), 0) := by
    rw [records, seekPointer_append hb, seekPointer_found after hx start ha]
  subst hr
  exact ⟨congrArg Prod.fst found, congrArg (fun y => y.2.1) found,
    congrArg (fun y : Word32 × Option Nat × Nat => addSat max32 p.ring.expired y.2.2) found⟩

end Sys2Proof.Machine
end

section
/-! A reply to the query in progress (R67, R68, R72): how the query ends, and the frame then received as any frame. -/

namespace Sys2Proof.Machine

/-! ## How a query ends -/

/-- The part with its query ended, and what is then in hand. -/
def Part.unqueried (p : Part) (inHand : Option InHand) : Part :=
  { p with register := { p.register with query := none, inHand := inHand } }

/-- The end of a query touches the register and the channels alone. -/
theorem endQuery_keeps {β : Type} (g : Part → β) (hr : ∀ (p : Part) r, g { p with register := r } = g p)
    (hc : ∀ (p : Part) ch c, g (p.setChan ch c) = g p) (reply : Option Frame) (p : Part) :
    g (endQuery reply p) = g p := by
  have slot : ∀ (q : Part) n c, g (endVerification (q.setSlot n c)) = g q := fun q n c => (hr _ _).trans (hr q _)
  have attempt : ∀ h (q : Part), g (endAttemptInHand h reply q) = g q := by
    intro h q
    unfold endAttemptInHand
    split
    · exact hr q _
    · split
      · exact slot q _ _
      · split
        · exact slot q _ _
        · exact hr q _
  unfold endQuery
  split
  · rfl
  · dsimp only
    split
    · exact (hc _ _ _).trans (hr p _)
    · split
      · exact (attempt _ _).trans (hr p _)
      · exact hr p _

/-- The lines, the ports and the mode controller have no part in how a query ends. -/
theorem endQuery_with (reply : Option Frame) (p : Part) (lines : Lines) (portA : Port) (modeCtl : ModeCtl) :
    endQuery reply { p with lines := lines, portA := portA, modeCtl := modeCtl } =
      { endQuery reply p with lines := lines, portA := portA, modeCtl := modeCtl } := by
  have attempt : ∀ h (q : Part), endAttemptInHand h reply { q with lines := lines, portA := portA, modeCtl := modeCtl } =
      { endAttemptInHand h reply q with lines := lines, portA := portA, modeCtl := modeCtl } := by
    intro h q
    unfold endAttemptInHand Part.slot
    cases (q.register.slots[h.slot]?).join with
    | none => rfl
    | some c =>
      dsimp only
      cases replySerial ((c.query.map (·.offset)).getD 0) reply with
      | some serial => rfl
      | none =>
        by_cases last : 3 ≤ h.attempt
        · simp only [last, if_true]
          rfl
        · simp only [last, if_false]
  unfold endQuery
  cases p.register.query with
  | none => rfl
  | some q =>
    dsimp only
    cases q.forProbe with
    | true => rfl
    | false =>
      cases p.register.inHand with
      | none => rfl
      | some h => exact attempt h { p with register := { p.register with query := none } }

/-- The reply's frame is heard alike before and after the query's end. -/
theorem endQuery_heard (reply : Option Frame) (f : Frame) (svc : Bool) (p : Part) :
    endQuery reply (p.heard .a f svc) = (endQuery reply p).heard .a f svc := by
  have lines : (endQuery reply p).lines = p.lines :=
    endQuery_keeps Part.lines (fun _ _ => rfl) (fun _ _ _ => by simp) reply p
  have portA : (endQuery reply p).portA = p.portA :=
    endQuery_keeps Part.portA (fun _ _ => rfl) (fun _ _ _ => by simp) reply p
  have modeCtl : (endQuery reply p).modeCtl = p.modeCtl :=
    endQuery_keeps Part.modeCtl (fun _ _ => rfl) (fun _ _ _ => by simp) reply p
  have shape : ∀ q : Part, q.heard .a f svc =
      { q with
        lines := { q.lines with svc := svc }
        portA := { q.portA with received := addSat max32 q.portA.received 1 }
        modeCtl := (noteWakeCause q).modeCtl } := fun _ => rfl
  rw [shape, endQuery_with, shape (endQuery reply p), lines, portA]
  simp only [noteWakeCause, modeCtl]

theorem endQuery_query (reply : Option Frame) (p : Part) : (endQuery reply p).register.query = none := by
  have attempt : ∀ h (q : Part), q.register.query = none → (endAttemptInHand h reply q).register.query = none := by
    intro h q none
    unfold endAttemptInHand
    split
    · exact none
    · split
      · exact none
      · split
        · exact none
        · exact none
  unfold endQuery
  split
  · assumption
  · dsimp only
    split
    · rfl
    · split
      · exact attempt _ _ rfl
      · rfl

/-! ## The reply (R67) -/

/-- A port-A frame at an AWAKE part passes the Probe Unit on its way to the router. -/
theorem exec_dataFrameReceived_watched {s : State} {f : Frame} (svc : Bool) (hf : frameOk f = true)
    (ha : s.part.awake = true) (hb : s.part.portA.state ≠ .busOff) :
    exec (.dataFrameReceived .a f svc) s =
      .next (s.after (routeFrame .a f (watchReply f (s.part.heard .a f svc)))) := by
  simp only [exec, execDataFrameReceived, hf, if_true, receiveFrame_awake (port := .a) f svc ha hb]

theorem after_of_kept {s : State} {p : Part} (hr : p.restore = s.part.restore) (hs : p.storage = s.part.storage) :
    ({ s with part := p } : State).after = s.after := by
  funext q
  simp only [State.after, hr, hs]

/-- The awaited frame does what it would do after the query's end. -/
theorem exec_reply {s : State} {f : Frame} (svc : Bool) {q : Query} {p : Part} (hf : frameOk f = true)
    (ha : s.part.awake = true) (hb : s.part.portA.state ≠ .busOff) (hq : s.part.register.query = some q)
    (hsent : q.sent = true) (hfmt : f.format = q.replyFormat) (hid : f.ident = q.replyIdent)
    (hp : endQuery (some f) s.part = p) :
    exec (.dataFrameReceived .a f svc) s = exec (.dataFrameReceived .a f svc) { s with part := p } := by
  subst hp
  have kept : ∀ {β : Type} (g : Part → β), (∀ (p : Part) r, g { p with register := r } = g p) →
      (∀ (p : Part) ch c, g (p.setChan ch c) = g p) → g (endQuery (some f) s.part) = g s.part :=
    fun g hr hc => endQuery_keeps g hr hc (some f) s.part
  have awake : (endQuery (some f) s.part).awake = true :=
    (kept Part.awake (fun _ _ => rfl) (fun _ ch _ => by cases ch <;> rfl)).trans ha
  have portA : (endQuery (some f) s.part).portA = s.part.portA := kept Part.portA (fun _ _ => rfl) fun _ _ _ => by simp
  have watched : watchReply f (s.part.heard .a f svc) = (endQuery (some f) s.part).heard .a f svc := by
    rw [← endQuery_heard]
    simp [watchReply, heard_register, hq, hsent, hfmt, hid]
  rw [exec_dataFrameReceived_watched svc hf ha hb, watched,
    exec_dataFrameReceived_awake (s := { s with part := endQuery (some f) s.part }) (port := .a) svc hf awake
      (by rw [Part.port, portA]; exact hb) (fun _ => endQuery_query _ _)]
  exact congrArg (fun after : Part → State => Host.Outcome.next (after _))
    (after_of_kept (kept Part.restore (fun _ _ => rfl) fun _ _ _ => by simp)
      (kept Part.storage (fun _ _ => rfl) fun _ _ _ => by simp)).symm

/-- A frame that is not the awaited one leaves the query in progress (R67). -/
theorem exec_not_reply {s : State} {f : Frame} (svc : Bool) {q : Query} (hf : frameOk f = true)
    (ha : s.part.awake = true) (hb : s.part.portA.state ≠ .busOff) (hq : s.part.register.query = some q)
    (hn : q.sent = false ∨ f.format ≠ q.replyFormat ∨ f.ident ≠ q.replyIdent)
    (hm : isReserved f.format f.ident.toNat = false) :
    ∃ t, exec (.dataFrameReceived .a f svc) s = .next t ∧ t.part.register.query = some q := by
  have unwatched : watchReply f (s.part.heard .a f svc) = s.part.heard .a f svc := by
    have not : ¬ (q.sent = true ∧ f.format = q.replyFormat ∧ f.ident = q.replyIdent) := by
      rintro ⟨hsent, hfmt, hid⟩
      rcases hn with h | h | h
      · simp [h] at hsent
      · exact h hfmt
      · exact h hid
    simp only [watchReply, heard_register, hq, if_neg not]
  have routed : routeFrame .a f (s.part.heard .a f svc) = matchFrame .a f (s.part.heard .a f svc) := by
    simp [routeFrame, hm]
  have query : (matchFrame .a f (s.part.heard .a f svc)).register.query = some q :=
    (matchFrame_keeps (fun p => p.register.query) (fun _ => rfl) (fun _ _ => rfl) (fun _ _ => rfl) (fun _ _ => rfl)
      .a f _).trans (by rw [heard_register]; exact hq)
  refine ⟨_, exec_dataFrameReceived_watched svc hf ha hb, ?_⟩
  rw [unwatched, routed, after_eq s (by
    rw [matchFrame_restore, heard_restore]
    exact (awake_parts ha).2.2.2)]
  exact settle_query s.medium query

/-! ## What the reply does (R68, R72) -/

theorem probeAnswer_reply {f : Frame} (hf : frameOk f = true) :
    probeAnswer (some f) =
      [0x19, 0x00, 0x01, if f.format = .extended then 0x01 else 0x00] ++ beBytes 4 f.ident.toNat ++
        [BitVec.ofNat 8 f.data.length] ++ f.data ++ List.replicate (8 - f.data.length) 0 := by
  have short : f.data.length ≤ 8 := by simp_all [frameOk]
  have length : beBytes 1 f.data.length = [BitVec.ofNat 8 f.data.length] := by simp [beBytes]
  have data : f.data.take 8 = f.data := List.take_of_length_le short
  have flags : flagByte [isExtended f.format] = if f.format = .extended then 0x01 else 0x00 := by
    cases f.format <;> rfl
  simp only [probeAnswer, frameResult, padTo, length, data, flags, List.append_assoc]
  rfl

theorem endQuery_probe {p : Part} {q : Query} (reply : Option Frame) (hq : p.register.query = some q)
    (hp : q.forProbe = true) :
    endQuery reply p = respond .service (probeAnswer reply) (p.unqueried p.register.inHand) := by
  simp only [endQuery, hq, hp, if_true]
  rfl

/-- A reply to an abandoned verification changes no slot (R69). -/
theorem endQuery_abandoned {p : Part} {q : Query} (reply : Option Frame) (hq : p.register.query = some q)
    (hp : q.forProbe = false) (hh : p.register.inHand = none) : endQuery reply p = p.unqueried none := by
  simp only [endQuery, hq, hp, hh, Bool.false_eq_true, if_false]
  rfl

theorem endQuery_attempt {p : Part} {q : Query} {h : InHand} (reply : Option Frame) (hq : p.register.query = some q)
    (hp : q.forProbe = false) (hh : p.register.inHand = some h) :
    endQuery reply p = endAttemptInHand h reply (p.unqueried (some h)) := by
  simp only [endQuery, hq, hp, hh, Bool.false_eq_true, if_false]
  rfl

theorem endAttempt_empty {p : Part} {h : InHand} (reply : Option Frame) (hs : p.slot h.slot = none) :
    endAttemptInHand h reply (p.unqueried (some h)) = p.unqueried none := by
  have slot : (p.unqueried (some h)).slot h.slot = none := hs
  simp only [endAttemptInHand, slot]
  rfl

/-- A reply that carries the serial is judged on the slot (R68). -/
theorem endAttempt_answered {p : Part} {h : InHand} {c : Component} {f : Frame} (hs : p.slot h.slot = some c)
    (hd : (c.query.map (·.offset)).getD 0 + 6 ≤ f.data.length) :
    endAttemptInHand h (some f) (p.unqueried (some h)) =
      (p.unqueried none).setSlot h.slot (some (c.answered (serialAt f.data ((c.query.map (·.offset)).getD 0)))) := by
  have slot : (p.unqueried (some h)).slot h.slot = some c := hs
  simp only [endAttemptInHand, slot, replySerial, if_pos hd]
  rfl

/-- A shorter reply counts as no answer: the third ends the verification (R68). -/
theorem endAttempt_silent {p : Part} {h : InHand} {c : Component} {f : Frame} (hs : p.slot h.slot = some c)
    (hd : f.data.length < (c.query.map (·.offset)).getD 0 + 6) :
    endAttemptInHand h (some f) (p.unqueried (some h)) =
      if 3 ≤ h.attempt then (p.unqueried none).setSlot h.slot (some c.silence)
      else p.unqueried (some { h with attempt := h.attempt + 1 }) := by
  have slot : (p.unqueried (some h)).slot h.slot = some c := hs
  simp only [endAttemptInHand, slot, replySerial, if_neg (Nat.not_le.mpr hd)]
  rfl

theorem silence_eq (c : Component) :
    c.silence =
      { c with
        verification := if c.hold = none then .unverified else c.verification
        silent := min 255 (c.silent + 1) } := by
  cases h : c.hold <;> simp [Component.silence, h, addSat]

theorem answered_of_hold {c : Component} {hold : Hold} (serial : Serial) (h : c.hold = some hold) :
    c.answered serial = { c with hold := some { hold with reported := serial }, silent := 0 } := by
  simp [Component.answered, h]

theorem answered_of_equal {c : Component} {serial : Serial} (h : c.hold = none) (hi : c.identity = some serial) :
    c.answered serial = { c with verification := .verified, silent := 0 } := by
  simp [Component.answered, h, hi]

theorem answered_of_differing {c : Component} {serial : Serial} (h : c.hold = none) (hi : c.identity ≠ some serial) :
    c.answered serial =
      { c with
        hold := some { reported := serial, pool := { events := 0, time := 0, units := 0, residue := 0, unobserved := 0 } }
        verification := .unverified
        silent := 0 } := by
  simp [Component.answered, h, hi]

/-! ## IDENTITY_MISMATCH (R70) -/

theorem anyHeld_faces (r : Register) :
    ({ slots := r.slots.map (Option.map Component.face) } : Register).anyHeld = r.anyHeld := by
  simp only [Register.anyHeld, Vector.toList_map, List.any_map]
  congr 1
  funext s
  cases s with
  | none => rfl
  | some c => cases h : c.hold <;> simp [Component.face, Component.held, h]

theorem anyHeld_undecoded (p : Part) : p.undecoded.register.anyHeld = p.register.anyHeld := anyHeld_faces p.register

theorem anyHeld_of_slot {p : Part} {n : Nat} {c : Component} (h : p.slot n = some c) (hc : c.held = true) :
    p.register.anyHeld = true := by
  have stands : p.register.slots[n]? = some (some c) := Option.join_eq_some_iff.mp h
  exact List.any_eq_true.mpr ⟨some c, Vector.mem_toList_iff.mpr (Vector.mem_of_getElem? stands), by simpa using hc⟩

/-- A frame that reaches the matcher leaves IDENTITY_MISMATCH standing. -/
theorem exec_dataFrameReceived_anyHeld {s : State} {f : Frame} (svc : Bool) (hf : frameOk f = true)
    (ha : s.part.awake = true) (hb : s.part.portA.state ≠ .busOff) (hq : s.part.register.query = none)
    (hm : isReserved f.format f.ident.toNat = false) (hh : s.part.register.anyHeld = true) :
    ∃ t, exec (.dataFrameReceived .a f svc) s = .next t ∧ t.part.condition 3 = true := by
  have routed : routeFrame .a f (s.part.heard .a f svc) = matchFrame .a f (s.part.heard .a f svc) := by
    simp [routeFrame, hm]
  refine ⟨_, exec_dataFrameReceived_matcher (port := .a) svc hf ha hb hm fun _ => hq, ?_⟩
  refine (settle_keeps (fun p => p.register.anyHeld) (fun _ => rfl) s.medium _).trans ?_
  rw [routed]
  refine (matchFrame_keeps (fun p => p.register.anyHeld) anyHeld_undecoded (fun _ _ => rfl) (fun _ _ => rfl)
    (fun _ _ => rfl) .a f _).trans ?_
  rw [heard_register]
  exact hh

/-- A slot gone HELD at the query's end raises IDENTITY_MISMATCH, and the reply received then leaves it (R68, R70). -/
theorem exec_mismatch {s : State} {f : Frame} (svc : Bool) {n : Nat} {c : Component} (hf : frameOk f = true)
    (ha : s.part.awake = true) (hb : s.part.portA.state ≠ .busOff)
    (hm : isReserved f.format f.ident.toNat = false) (hn : n < 12) (hc : c.held = true) :
    ∃ t, exec (.dataFrameReceived .a f svc) { s with part := (s.part.unqueried none).setSlot n (some c) } = .next t ∧
      t.part.condition 3 = true := by
  have held := anyHeld_of_slot (Part.setSlot_slot (s.part.unqueried none) hn (some c)) hc
  have awake : ((s.part.unqueried none).setSlot n (some c)).awake = true := ha
  have query : ((s.part.unqueried none).setSlot n (some c)).register.query = none := rfl
  have open_ : ((s.part.unqueried none).setSlot n (some c)).portA.state ≠ .busOff := hb
  generalize (s.part.unqueried none).setSlot n (some c) = p at held awake query open_ ⊢
  exact exec_dataFrameReceived_anyHeld (s := { s with part := p }) svc hf awake open_ query hm held

end Sys2Proof.Machine
end

section
/-! The frames that the matcher takes (R5, R6, R11, R14, R16), and what a data frame is seen to do as a whole. -/

namespace Sys2Proof.Machine

/-! ## Under pass-all (R6) -/

/-- The blocks that pass-all leaves alone, and port A's count of received frames. -/
def Part.bystanders (p : Part) :
    Matcher × Vector Signal 48 × Vector Role 10 × Detector × Vector (Option Component) 12 × Hire × Nat :=
  (p.matcher, p.signals, p.roles, p.detector, p.register.slots, p.hire, p.portA.received)

/-- Under pass-all a port-A frame leaves the blocks of the decoder, the producers' and the Component Register as they
were, and is counted. -/
theorem passAll_blocks (m : Medium) {f : Frame} (svc : Bool) {p : Part}
    (hm : isReserved f.format f.ident.toNat = false) (hp : p.modeCtl.passAll = true) :
    let q := settle m (routeFrame .a f (p.heard .a f svc))
    q.matcher = p.matcher ∧ q.signals = p.signals ∧ q.roles = p.roles ∧ q.detector = p.detector ∧
      q.register.slots = p.register.slots ∧ q.hire = p.hire ∧
      q.portA.received = min 4294967295 (p.portA.received + 1) := by
  intro q
  have routed := routeFrame_passAll (f := f) (p := p.heard .a f svc) hm (by rw [heard_passAll]; exact hp)
  have kept : q.bystanders = (p.heard .a f svc).bystanders :=
    (settle_keeps Part.bystanders (fun _ => rfl) m _).trans ((congrArg Part.bystanders routed).trans
      (recordFrame_keeps Part.bystanders (fun _ => rfl) (fun _ _ => rfl) (fun _ _ => rfl) f true _))
  obtain ⟨matcher, signals, roles, detector, register, hire, -⟩ := heard_blocks .a f svc p
  simp only [Part.bystanders, Prod.mk.injEq, matcher, signals, roles, detector, register, hire] at kept
  obtain ⟨hmatcher, hsignals, hroles, hdetector, hslots, hhire, hreceived⟩ := kept
  exact ⟨hmatcher, hsignals, hroles, hdetector, hslots, hhire, hreceived.trans (heard_received .a f svc p)⟩

/-! ## A matched frame (R5) -/

theorem matched_matcher (port : PortId) (f : Frame) (i : Nat) (forward : Bool) (p : Part) :
    (p.matched port f i forward).matcher =
      { p.matcher with
        counts := p.matcher.counts.setIfInBounds i (min 4294967295 (p.matcher.counts[i]?.getD 0 + 1)) } := by
  unfold Part.matched
  split
  · exact recordFrame_keeps Part.matcher (fun _ => rfl) (fun _ _ => rfl) (fun _ _ => rfl) f forward (countEntry i p)
  · rfl

theorem heard_matched_blocks (port : PortId) (f : Frame) (svc : Bool) (i : Nat) (forward : Bool) (p : Part) :
    ((p.heard port f svc).matched port f i forward).signals = p.signals ∧
      ((p.heard port f svc).matched port f i forward).roles = p.roles ∧
      ((p.heard port f svc).matched port f i forward).modeCtl.active = p.modeCtl.active := by
  have kept := matched_keeps (fun q => (q.signals, q.roles, q.modeCtl.active)) (fun _ => rfl) (fun _ _ => rfl)
    (fun _ _ => rfl) (fun _ _ => rfl) port f i forward (p.heard port f svc)
  obtain ⟨-, signals, roles, -, -, -, -⟩ := heard_blocks port f svc p
  simpa only [Prod.mk.injEq, signals, roles, heard_active] using kept

/-- The part as a matched frame leaves it: decoded and settled. -/
def Part.afterMatched (m : Medium) (port : PortId) (f : Frame) (svc : Bool) (i : Nat) (e : FrameEntry) (p : Part) : Part :=
  settle m (decodeFrame i e.period f.data ((p.heard port f svc).matched port f i e.forward))

theorem exec_dataFrameReceived_matched {s : State} {port : PortId} {f : Frame} {i : Nat} {e : FrameEntry} (svc : Bool)
    (hf : frameOk f = true) (ha : s.part.awake = true) (hb : (s.part.port port).state ≠ .busOff)
    (hm : isReserved f.format f.ident.toNat = false) (hq : port = .a → s.part.register.query = none)
    (hp : s.part.modeCtl.passAll = false) (hi : s.part.modeCtl.active.findFrame port f = some i)
    (he : s.part.modeCtl.active.frame i = some e) :
    exec (.dataFrameReceived port f svc) s = .next { s with part := s.part.afterMatched s.medium port f svc i e } := by
  rw [exec_dataFrameReceived_matcher svc hf ha hb hm hq, routeFrame_matched hm (by rw [heard_passAll]; exact hp)
    (by rw [heard_active]; exact hi) (by rw [heard_active]; exact he), Part.afterMatched]

section
variable (m : Medium) (port : PortId) (f : Frame) (svc : Bool) (i : Nat) (e : FrameEntry) (p : Part)

/-- What neither an event of a signal nor the matcher's figures bear on is as the frame's coming in left it. -/
theorem afterMatched_keeps {β : Type} (g : Part → β) (hs : ∀ q : Part, g q.lasting = g q)
    (hd : ∀ q : Part, g q.undecoded = g q) :
    g (p.afterMatched m port f svc i e) = g ((p.heard port f svc).matched port f i e.forward) :=
  (settle_keeps g hs m _).trans ((decodeFrame_applied _).keeps g hd)

/-- A matched frame is counted on its port (R1). -/
theorem afterMatched_received :
    ((p.afterMatched m port f svc i e).port port).received = min 4294967295 ((p.port port).received + 1) := by
  refine (afterMatched_keeps m port f svc i e p (fun q => (q.port port).received) (fun _ => by cases port <;> rfl)
    fun _ => by cases port <;> rfl).trans ?_
  exact (matched_keeps (fun q => (q.port port).received) (fun _ => by cases port <;> rfl)
    (fun _ _ => by cases port <;> rfl) (fun _ _ => by cases port <;> rfl) (fun _ _ => by cases port <;> rfl)
    port f i e.forward _).trans (heard_received port f svc p)

/-- A matched frame is counted in its entry (R5). -/
theorem afterMatched_matcher :
    (p.afterMatched m port f svc i e).matcher =
      { p.matcher with
        counts := p.matcher.counts.setIfInBounds i (min 4294967295 (p.matcher.counts[i]?.getD 0 + 1)) } := by
  have counted := matched_matcher port f i e.forward (p.heard port f svc)
  rw [(heard_blocks port f svc p).1] at counted
  exact (afterMatched_keeps m port f svc i e p Part.matcher (fun _ => rfl) fun _ => rfl).trans counted

/-- A matched port-B frame is not recorded (R5). -/
theorem afterMatched_unrecorded (hb : port = .b) :
    (p.afterMatched m port f svc i e).ring.next = p.ring.next ∧
      (p.afterMatched m port f svc i e).ring.unsent = p.ring.unsent := by
  obtain ⟨-, -, -, -, -, -, heard⟩ := heard_blocks port f svc p
  have uncounted : (p.heard port f svc).matched port f i e.forward = countEntry i (p.heard port f svc) :=
    if_neg (by simp [hb])
  have ring : (decodeFrame i e.period f.data ((p.heard port f svc).matched port f i e.forward)).ring = p.ring :=
    ((decodeFrame_applied _).keeps Part.ring fun _ => rfl).trans ((congrArg Part.ring uncounted).trans heard)
  have next := settle_keeps (fun q => q.ring.next) (fun _ => rfl) m
    (decodeFrame i e.period f.data ((p.heard port f svc).matched port f i e.forward))
  have records := settle_unsent m (decodeFrame i e.period f.data ((p.heard port f svc).matched port f i e.forward))
  rw [ring] at next records
  unfold Part.afterMatched
  exact ⟨next, records⟩

variable {f i e p}

/-- A matched port-A frame is recorded with its entry's forward flag (R5, R122). -/
theorem afterMatched_recorded (hm : isReserved f.format f.ident.toNat = false) (hp : p.modeCtl.passAll = false)
    (hi : p.modeCtl.active.findFrame port f = some i) (he : p.modeCtl.active.frame i = some e) (ha : port = .a) :
    (p.afterMatched m port f svc i e).ring.next = p.ring.next + 1 ∧
      (p.afterMatched m port f svc i e).ring.unsent =
        ((if p.ring.records.length < 4096 then p.ring.records else p.ring.records.drop 1).map fun x =>
          { x with sent := false }) ++ [p.newRecord f e.forward] := by
  subst ha
  have routed := routeFrame_matched (p := p.heard .a f svc) hm (by rw [heard_passAll]; exact hp)
    (by rw [heard_active]; exact hi) (by rw [heard_active]; exact he)
  rw [Part.afterMatched, ← routed]
  exact settle_recorded m svc hm (.inr ⟨hp, i, e, hi, he, rfl⟩)

variable (f i e p)

/-- Each signal cut from a matched frame takes its sample; no other changes (R11, R13). -/
theorem afterMatched_signals (j : Fin 48) :
    (p.modeCtl.active.cuts i j = false → (p.afterMatched m port f svc i e).signals[j] = p.signals[j]) ∧
      ∀ x, p.modeCtl.active.signal j = some x → x.frame = i →
        (p.afterMatched m port f svc i e).signals[j] =
          p.signals[j].sample (judgeSample x f.data).1 (judgeSample x f.data).2 (4 * e.period) := by
  obtain ⟨signals, -, active⟩ := heard_matched_blocks port f svc i e.forward p
  have settled : (p.afterMatched m port f svc i e).signals[j] =
      (decodeFrame i e.period f.data ((p.heard port f svc).matched port f i e.forward)).signal j :=
    (congrArg (fun v : Vector Signal 48 => v[j]) (settle_keeps Part.signals (fun _ => rfl) m _)).trans
      (signal_fin _ j).symm
  have before : ((p.heard port f svc).matched port f i e.forward).signal j = p.signals[j] := by
    rw [signal_fin, signals]
  refine ⟨fun h => ?_, fun x hx hf => ?_⟩
  · rw [settled, decodeFrame_signal_of_not_cut (by rw [active]; exact h), before]
  · rw [settled, decodeFrame_signal (by rw [active]; exact hx) hf, before]

/-- The roles of a matched frame are settled where the decoding leaves them. -/
theorem afterMatched_roles (k : Fin 10) :
    (p.afterMatched m port f svc i e).roles[k] =
        (decodeFrame i e.period f.data ((p.heard port f svc).matched port f i e.forward)).role k ∧
      ((p.heard port f svc).matched port f i e.forward).role k = p.roles[k] := by
  obtain ⟨-, roles, -⟩ := heard_matched_blocks port f svc i e.forward p
  refine ⟨(congrArg (fun v : Vector Role 10 => v[k]) (settle_keeps Part.roles (fun _ => rfl) m _)).trans
    (role_fin _ k).symm, ?_⟩
  rw [role_fin, roles]

end

theorem role_entry_fin (t : TableSet) (k : Fin 10) : t.role k = t.roles[k] := by
  simp [TableSet.role]

theorem sample_eq (s : Signal) (q : Quality × Int) (deadline : Nat) :
    s.sample q.1 q.2 deadline =
      if q.1 = .usable then
        { s with status := .fresh, value := some q.2, quality := some .usable, deadline := some deadline }
      else { s with quality := some q.1, nonUsable := min 65535 (s.nonUsable + 1) } := by
  unfold Signal.sample
  split
  · rename_i h
    rw [h]
  · rfl

/-! ## The whole -/

/-- Settles O13: the matcher records and decodes in turn, signal by signal in index order; the record moves an overrun's
pointer; and a reply ends its query before it is received as any frame. -/
theorem framesAreRecordedAndDecoded : Obligations.FramesAreRecordedAndDecoded := by
  refine ⟨?_, ?_, ?_, ?_⟩
  case refine_1 =>
    intro f svc s hf ha hb hm hp hq r unsent
    obtain ⟨next, records⟩ := settle_recorded s.medium svc hm (p := s.part) (forward := true) (.inl ⟨hp, rfl⟩)
    obtain ⟨matcher, signals, roles, detector, slots, hire, received⟩ := passAll_blocks s.medium svc hm hp
    exact ⟨_, exec_dataFrameReceived_matcher (port := .a) svc hf ha hb hm fun _ => hq, next, records, matcher, signals,
      roles, detector, slots, hire, received, rfl, rfl⟩
  case refine_2 =>
    intro port f svc s i e hf ha hb hm hp hq hi he p r set cut unsent
    have step := exec_dataFrameReceived_matched svc hf ha hb hm hq hp hi he
    have received := afterMatched_received s.medium port f svc i e s.part
    have matcher := afterMatched_matcher s.medium port f svc i e s.part
    have signals := afterMatched_signals s.medium port f svc i e s.part
    have roles := afterMatched_roles s.medium port f svc i e s.part
    have recorded := afterMatched_recorded s.medium port svc hm hp hi he
    have unrecorded := afterMatched_unrecorded s.medium port f svc i e s.part
    generalize s.part.afterMatched s.medium port f svc i e = t at step received matcher signals roles recorded unrecorded
    refine ⟨_, step, rfl, rfl, received, matcher, recorded, unrecorded, fun j => ?_, fun k => ?_⟩
    · obtain ⟨uncut, sampled⟩ := signals j
      exact ⟨uncut, fun x hx hxf => (sampled x hx hxf).trans (sample_eq _ _ _)⟩
    · intro entry role
      obtain ⟨settled, before⟩ := roles k
      have table := decodeFrame_role_table i e.period f.data ((s.part.heard port f svc).matched port f i e.forward) k.isLt
      rw [(heard_matched_blocks port f svc i e.forward s.part).2.2, before, ← settled] at table
      obtain ⟨stays, primary, backup, both⟩ := table
      simp only [role_entry_fin] at stays primary backup both
      refine ⟨stays, fun j x hj hx hxf hone => ?_, fun b x hb' hx hxf hone => ?_, both⟩
      · rw [primary j x hj hx hxf hone]
        exact primaryEvent_sample_table role (judgeSample x f.data)
      · rw [backup b x hb' hx hxf hone]
        exact backupEvent_sample_table role (judgeSample x f.data)
  case refine_3 =>
    intro f svc forward s hf ha hb hm hq hr p r age new
    have taken : s.part.records f forward := hr
    obtain ⟨overrun, condition⟩ := settle_recorded_overrun s.medium svc hm taken
    refine ⟨_, exec_dataFrameReceived_matcher (port := .a) svc hf ha hb hm fun _ => hq,
      fun old rest hrecords hfull hfwd hsent hptr => ?_, fun h => ?_⟩
    · have overran := overruns_of_replaced hrecords hfull hfwd hsent hptr
      have written : (s.part.ring.push (s.part.newRecord f forward)).records = rest ++ [new] := by
        have full : ¬ s.part.ring.fill < ringCapacity := Nat.not_lt.mpr hfull
        rw [Ring.push, if_neg full, (hrecords : s.part.ring.records = old :: rest)]
        rfl
      refine ⟨overrun.trans ?_, condition.trans ?_, fun hb' => ?_⟩
      · rw [recorded_overrun overran]
        rfl
      · rw [recorded_forwardOverrun, overran]
        rfl
      · have place := settle_recorded_place s.medium svc hm taken hb'
        simp only [Ring.place, Prod.mk.injEq] at place
        obtain ⟨-, pointer, due, expired⟩ := place
        refine ⟨fun none => ?_, fun before x after hsplit hbefore hx hd hyoung => ?_⟩
        · obtain ⟨at_next, no_age⟩ := recorded_pointer_none overran (by rw [written]; exact none)
          exact ⟨pointer.trans at_next, due.trans no_age⟩
        · obtain ⟨at_x, its_age, none_expired⟩ :=
            recorded_pointer_found overran (written.trans hsplit) hbefore hx hd hyoung
          exact ⟨pointer.trans at_x, due.trans its_age, expired.trans none_expired⟩
    · obtain ⟨count, standing⟩ := recorded_no_overrun (f := f) (forward := forward) (not_overruns h)
      exact ⟨overrun.trans count, condition.trans standing⟩
  case refine_4 =>
    intro f svc s q hf ha hb hq p i ends without foreign
    refine ⟨fun hn hm => exec_not_reply svc hf ha hb hq hn hm, fun hsent hfmt hid => ?_⟩
    have reply : ∀ p', endQuery (some f) s.part = p' → ends p' := fun p' =>
      exec_reply svc hf ha hb hq hsent hfmt hid
    refine ⟨fun hp => reply _ ?_, fun hp => ⟨fun hh => reply _ (endQuery_abandoned _ hq hp hh), fun h hh => ?_⟩⟩
    · rw [endQuery_probe _ hq hp, probeAnswer_reply hf]
      rfl
    have attempt := endQuery_attempt (some f) hq hp hh
    refine ⟨fun hs => reply _ (attempt.trans (endAttempt_empty _ hs)), fun c hs => ?_⟩
    intro offset serial becomes
    refine ⟨fun hd => ?_, fun hd => ⟨fun last => reply _ ?_, fun more => reply _ ?_⟩⟩
    · have answered := attempt.trans (endAttempt_answered hs hd)
      refine ⟨fun hold hheld => reply _ ?_, fun hnone heq => reply _ ?_, fun hnone hne => ?_⟩
      · rw [answered, answered_of_hold _ hheld]
        rfl
      · rw [answered, answered_of_equal hnone heq]
        rfl
      · rw [answered_of_differing hnone hne] at answered
        refine ⟨reply _ answered, fun hm => ?_⟩
        rw [exec_reply svc hf ha hb hq hsent hfmt hid answered]
        exact exec_mismatch svc hf ha hb hm (slot_lt hs) rfl
    · rw [attempt, endAttempt_silent hs hd, if_pos last, silence_eq]
      rfl
    · rw [attempt, endAttempt_silent hs hd, if_neg (Nat.not_le.mpr more)]
      rfl

end Sys2Proof.Machine
end

section
/-! The new part (R33, R163), and the tick, the IGN line and the drive timer (R34, R37, R49, R141). -/

namespace Sys2Proof.Machine

/-- Settles O3: the working state of `Part.newPart`, field by field. -/
theorem resetLeavesNewPart : Obligations.ResetLeavesNewPart := by
  refine ⟨rfl, rfl, rfl, rfl, rfl, rfl, rfl, rfl, rfl, rfl, rfl, rfl, rfl, by decide, ?_, ?_, ?_, rfl, rfl, rfl, rfl, rfl,
    ?_, rfl, rfl, rfl, rfl, rfl, ⟨.nil, nofun⟩, nofun, by decide⟩
  · intro i
    exact congrArg Signal.status (Vector.getElem_replicate i.isLt)
  · intro r
    exact congrArg Role.source (Vector.getElem_replicate r.isLt)
  · intro n
    simp [Part.slot, State.reset, Part.newPart]
  · intro e
    simp [Capture.entry, State.reset, Part.newPart]

/-! ## The IGN line's debounce (R34, R49) -/

/-- The debounced ignition taken from the line. -/
def Part.ignited (p : Part) : Part :=
  { p with modeCtl := { p.modeCtl with ignition := p.lines.ign, debounce := none } }

/-- The end of the debounce on an AWAKE part: on is noted as a wake cause, off stops an engine in UNKNOWN. -/
theorem settleIgn_awake {p : Part} (h : p.awake = true) (hd : p.modeCtl.debounce.isSome = true) :
    settleIgn p =
      if p.lines.ign then noteWakeCause p.ignited
      else if p.detector.engine = .unknown then
        { p.ignited with detector := { p.detector with engine := .stopped } }
      else p.ignited := by
  obtain ⟨live, awake, -, -⟩ := awake_parts h
  have running : p.ignited.live = true := live
  have wake : wakeCause p.ignited = noteWakeCause p.ignited := by
    have : p.ignited.modeCtl.asleep = false := awake
    simp [wakeCause, this]
  have debounced : p.modeCtl.debounce.isNone = false := by simpa using hd
  have unfolded : settleIgn p =
      if p.ignited.live = false then p.ignited
      else if p.lines.ign then wakeCause p.ignited
      else if p.detector.engine = .unknown then changeEngine .stopped p.ignited
      else p.ignited := by
    simp only [settleIgn, debounced, Bool.false_eq_true, if_false]
    rfl
  rw [unfolded, running, wake, if_neg (by decide)]
  split_ifs with on unknown
  · rfl
  · exact changeEngine_between (p := p.ignited) (by simp [Part.ignited, unknown]) (by simp [Part.ignited, unknown])
      (by decide)
  · rfl

/-- Settles O28: each clause is the meaning of its command; the debounce ends by `settleIgn_awake`. -/
theorem clockLinesAndDebounce : Obligations.ClockLinesAndDebounce := by
  refine ⟨fun s => ⟨fun live => ?_, fun dead => ?_, fun level on => ?_, fun level off => ?_, rfl⟩, fun s awake due => ?_⟩
  · simp [exec, execDeviceClockTick, live, tickClock, addSat]
  · simp [exec, execDeviceClockTick, dead]
  · simp [exec, execIgnLineChange, changeIgn, on]
  · simp [exec, execIgnLineChange, changeIgn, off]
  · have settled := settleIgn_awake awake due
    have restore : (settleIgn s.part).restore = none := by
      rw [settled]
      split_ifs <;> exact (awake_parts awake).2.2.2
    have mode : (settleIgn s.part).modeCtl.ignition = s.part.lines.ign ∧ (settleIgn s.part).modeCtl.debounce = none := by
      rw [settled]
      split_ifs <;> exact ⟨rfl, rfl⟩
    refine ⟨_, congrArg Host.Outcome.next (after_eq s restore), (lasting_settle _ _).trans ?_, ⟨?_, ?_⟩, rfl, rfl⟩
    · rw [settled]
      cases on : s.part.lines.ign with
      | true => simp [Part.lasting, noteWakeCause, Part.ignited, on]
      | false => split_ifs <;> simp_all [Part.lasting, Part.ignited]
    · exact (settle_modeCtl_keeps ModeCtl.ignition (fun _ _ => rfl) _ _).trans mode.1
    · exact (settle_modeCtl_keeps ModeCtl.debounce (fun _ _ => rfl) _ _).trans mode.2

end Sys2Proof.Machine
end

section
/-! Admission (R176): what refuses a request of a permitted source, and the answers of the requests that are refused or act
at once. -/

namespace Sys2Proof.Machine

/-- Checks 3 to 5 of R176 on a permitted source, whose SVC line is on where it needs to be: level, mode, engine. -/
theorem refusal_taken {src : Source} (h : permitted src = true) (t : Terms) (p : Part) :
    t.refusal (sourceChannel src) (p.taken src) =
      if t.takes (sourceChannel src) = false then some stNotPermitted
      else if p.modeCtl.mode ∉ t.modes then some stWrongMode
      else if t.stopped ∧ p.detector.engine ≠ .stopped then some stEngineRunning
      else none := by
  have line : ¬(sourceChannel src = .service ∧ (p.taken src).lines.svc = false) := by
    cases src with
    | fleet => simp [sourceChannel]
    | service port svc =>
      have on : svc = true := h
      simp [taken_svc, on]
  simp only [Terms.refusal, line, if_false, taken_mode, taken_detector]

section
variable {src : Source} {t : Terms} {p : Part} (h : permitted src = true)
include h

theorem refusal_level (ht : t.takes (sourceChannel src) = false) :
    t.refusal (sourceChannel src) (p.taken src) = some stNotPermitted := by
  simp [refusal_taken h, ht]

theorem refusal_mode (ht : t.takes (sourceChannel src) = true) (hm : p.modeCtl.mode ∉ t.modes) :
    t.refusal (sourceChannel src) (p.taken src) = some stWrongMode := by
  simp [refusal_taken h, ht, hm]

theorem refusal_engine (ht : t.takes (sourceChannel src) = true) (hm : p.modeCtl.mode ∈ t.modes)
    (hs : t.stopped = true) (he : p.detector.engine ≠ .stopped) :
    t.refusal (sourceChannel src) (p.taken src) = some stEngineRunning := by
  simp [refusal_taken h, ht, hm, hs, he]

theorem refusal_none (ht : t.takes (sourceChannel src) = true) (hm : p.modeCtl.mode ∈ t.modes)
    (he : t.stopped = true → p.detector.engine = .stopped) :
    t.refusal (sourceChannel src) (p.taken src) = none := by
  have engine : ¬(t.stopped ∧ p.detector.engine ≠ .stopped) := fun ⟨hs, hn⟩ => hn (he hs)
  simp only [refusal_taken h, ht, hm, engine, not_true, if_false, Bool.true_eq_false]

end

theorem mode_mem_all (m : Mode) : m ∈ [Mode.setup, .paused, .active] := by
  cases m <;> decide

theorem admitRequest_refused {t : Terms} {ch : Channel} {p : Part} {status : Byte} (hr : t.refusal ch p = some status)
    (code : Byte) (bad : Option Nat) (go : Part → Part) :
    admitRequest t ch code bad go p = respond ch [code, status] p := by
  simp only [admitRequest, hr, refuse]

theorem admitRequest_bad {t : Terms} {ch : Channel} {p : Part} (hr : t.refusal ch p = none) (code : Byte) (index : Nat)
    (go : Part → Part) :
    admitRequest t ch code (some index) go p = respond ch [code, 0x16, BitVec.ofNat 8 index] p := by
  simp only [admitRequest, hr, refuseArgument]

theorem admitRequest_none {t : Terms} {ch : Channel} {p : Part} (hr : t.refusal ch p = none) (code : Byte)
    (go : Part → Part) : admitRequest t ch code none go p = go p := by
  simp only [admitRequest, hr]

section
variable {i : Instr} {src : Source} {s : State} {msg : List Byte} {run : Channel → Part → Part}

/-- A request that checks 3 to 5 of R176 refuse is answered with its code and the status, and changes nothing. -/
theorem refused_answers (hi : exec i s = runRequest src msg run s) (h : Ready src s) (hl : lengthFits msg = true)
    {t : Terms} {code status : Byte} {bad : Option Nat} {go : Part → Part}
    (hrun : run (sourceChannel src) (s.part.taken src) =
      admitRequest t (sourceChannel src) code bad go (s.part.taken src))
    (hr : t.refusal (sourceChannel src) (s.part.taken src) = some status) : Answers i src s [code, status] s.part :=
  read_answers hi h hl (hrun.trans (admitRequest_refused hr _ _ _))

/-- A request with an argument at fault is answered BAD_ARGUMENT with its index, and changes nothing (R176, R190). -/
theorem badArgument_answers (hi : exec i s = runRequest src msg run s) (h : Ready src s) (hl : lengthFits msg = true)
    {t : Terms} {code : Byte} {bad : Option Nat} {go : Part → Part} {index : Nat}
    (hrun : run (sourceChannel src) (s.part.taken src) =
      admitRequest t (sourceChannel src) code bad go (s.part.taken src))
    (hr : t.refusal (sourceChannel src) (s.part.taken src) = none) (hb : bad = some index) :
    Answers i src s [code, 0x16, BitVec.ofNat 8 index] s.part :=
  read_answers hi h hl (by rw [hrun, hb]; exact admitRequest_bad hr _ _ _)

/-- A request that acts at once and responds: what lasts is what its action leaves. -/
theorem acting_answers (hi : exec i s = runRequest src msg run s) (h : Ready src s) (hl : lengthFits msg = true)
    {m : List Byte} {q p : Part} (hq : run (sourceChannel src) (s.part.taken src) = q)
    (ha : Responding (sourceChannel src) m (s.part.taken src) q) (hlast : q.lasting = p.lasting) {also : Part → Prop}
    (more : ∀ medium, also (settle medium q)) : Answers i src s m p also := by
  obtain ⟨t, step, responds, lasting, holds, medium, pending⟩ := request_answers hi h hl hq ha more
  exact ⟨t, step, responds, lasting.trans hlast, holds, medium, pending⟩

/-- A request that changes the part and then responds. -/
theorem changing_answers (hi : exec i s = runRequest src msg run s) (h : Ready src s) (hl : lengthFits msg = true)
    {m : List Byte} {q p : Part} (hq : run (sourceChannel src) (s.part.taken src) = respond (sourceChannel src) m q)
    (hf : q.placedFrames = (s.part.taken src).placedFrames := by rfl)
    (hr : q.storage.readers = (s.part.taken src).storage.readers := by rfl)
    (he : q.restore = (s.part.taken src).restore := by rfl) (hlast : q.lasting = p.lasting := by rfl) :
    Answers i src s m p :=
  acting_answers hi h hl hq (responding_respond hf hr he) ((lasting_respond _ _ _).trans hlast) fun _ => trivial

end

end Sys2Proof.Machine
end

section
/-! Levels and engine states at the requests (R24, R39, R40, R62, R64, R73 to R75, R176). -/

namespace Sys2Proof.Machine

/-- Write Table's message has its table's length, or any that the code allows for a table number above 6 (R176, R191). -/
theorem lengthFits_writeTable {table : Byte} (item : Byte) {contents : List Byte} (h : itemFits table contents = true) :
    lengthFits ([0x08, table, item] ++ contents) = true := by
  have fits : lengthFits ([0x08, table, item] ++ contents) =
      (decide (5 ≤ contents.length + 3) && decide (contents.length + 3 ≤ 135) &&
        (decide (6 < table.toNat) || contents.length + 3 == 3 + itemLength table.toNat)) := rfl
  rw [fits]
  unfold itemFits at h
  split at h
  · rename_i low
    have length : contents.length = itemLength table.toNat := by simpa using h
    have range : 2 ≤ itemLength table.toNat ∧ itemLength table.toNat ≤ 132 := by
      interval_cases table.toNat <;> decide
    simp only [Bool.and_eq_true, Bool.or_eq_true, decide_eq_true_eq, beq_iff_eq]
    omega
  · simp only [Bool.and_eq_true, decide_eq_true_eq] at h
    simp only [Bool.and_eq_true, Bool.or_eq_true, decide_eq_true_eq, beq_iff_eq]
    omega

/-- A mode's number names the mode (R190). -/
theorem ofNat?_num (m : Mode) : Mode.ofNat? (BitVec.ofNat 8 m.num).toNat = some m := by
  cases m <;> rfl

theorem touchesSetup_of_setup {p : Part} (h : p.modeCtl.mode = .setup) (target : Option Mode) :
    p.touchesSetup target = true := by
  simp [Part.touchesSetup, h]

theorem touchesSetup_to_setup (p : Part) : p.touchesSetup (some .setup) = true := by
  simp [Part.touchesSetup]

/-- Where a Set Mode is taken: one that involves SETUP on the Service channel alone, and one that changes to or from it
with the engine STOPPED (R24). -/
def Part.setModeTerms (p : Part) (target : Option Mode) : Terms where
  fleet := !p.touchesSetup target
  stopped := target.isSome && p.touchesSetup target && target != some p.modeCtl.mode

theorem requestSetMode_eq (ch : Channel) (target : Mode) (p : Part) :
    requestSetMode ch (BitVec.ofNat 8 target.num) p =
      admitRequest (p.setModeTerms (some target)) ch 0x03 none (applyMode ch target) p := by
  cases target <;> rfl

/-- A Set Mode that involves SETUP is taken on the Service channel alone (R24). -/
theorem setMode_fleet_refused {s : State} (h : Ready .fleet s) {target : Byte}
    (ht : s.part.touchesSetup (Mode.ofNat? target.toNat) = true) :
    Answers (.setMode .fleet target) .fleet s [0x03, 0x12] s.part := by
  have level : ((s.part.taken .fleet).setModeTerms (Mode.ofNat? target.toNat)).takes .fleet = false :=
    congrArg (!·) ht
  exact refused_answers (run := fun ch => requestSetMode ch target) rfl h rfl (by unfold requestSetMode; rfl)
    (refusal_level rfl level)

/-- A change of mode that involves SETUP needs the engine STOPPED (R24, R27). -/
theorem setMode_engine_refused {s : State} {port : PortId} (h : Ready (.service port true) s)
    (he : s.part.detector.engine ≠ .stopped) {target : Mode} (ht : s.part.touchesSetup (some target) = true)
    (hm : s.part.modeCtl.mode ≠ target) :
    Answers (.setMode (.service port true) (BitVec.ofNat 8 target.num)) (.service port true) s [0x03, 0x15] s.part := by
  have stopped : ((s.part.taken (.service port true)).setModeTerms (some target)).stopped = true := by
    have taken : (s.part.taken (.service port true)).touchesSetup (some target) = true := ht
    simp [Part.setModeTerms, taken, hm.symm]
  exact refused_answers rfl h rfl (requestSetMode_eq _ target _) (refusal_engine rfl rfl (mode_mem_all _) stopped he)

/-- Settles O35: `refusal_level` and `refusal_engine` at each request's terms. -/
theorem levelAndEngineAreChecked : Obligations.LevelAndEngineAreChecked := by
  refine ⟨fun s slot args query events time wear port mask table item contents => ⟨fun h => ?_, fun h => ?_⟩,
    fun s port slot args events time wear => ?_⟩
  · refine ⟨?_, ?_, ?_, ?_, ?_, ?_, ?_, ?_, ?_, fun fits => ?_, fun setup => ?_⟩
    iterate 8 exact refused_answers rfl h rfl rfl (refusal_level rfl rfl)
    · exact setMode_fleet_refused h (touchesSetup_to_setup _)
    · exact refused_answers rfl h (lengthFits_writeTable item fits) rfl (refusal_level rfl rfl)
    · exact setMode_fleet_refused h (touchesSetup_of_setup setup _)
  · exact ⟨refused_answers rfl h rfl rfl (refusal_level rfl rfl),
      refused_answers rfl h rfl rfl (refusal_level rfl rfl)⟩
  · intro src h he
    refine ⟨?_, fun setup => ?_, fun inactive => ⟨?_, ?_⟩, ?_, ?_, ?_, fun away => ?_, fun setup target away => ?_⟩
    · exact refused_answers rfl h rfl rfl (refusal_engine rfl rfl (mode_mem_all _) rfl he)
    · exact refused_answers rfl h rfl rfl (refusal_engine rfl rfl (by simp [setup]) rfl he)
    · exact refused_answers rfl h rfl rfl (refusal_engine rfl rfl (by cases m : s.part.modeCtl.mode <;> simp_all) rfl he)
    · exact refused_answers rfl h rfl rfl (refusal_engine rfl rfl (by cases m : s.part.modeCtl.mode <;> simp_all) rfl he)
    · exact refused_answers rfl h rfl rfl (refusal_engine rfl rfl (mode_mem_all _) rfl he)
    · exact refused_answers rfl h rfl rfl (refusal_engine rfl rfl (mode_mem_all _) rfl he)
    · exact refused_answers rfl h rfl rfl (refusal_engine rfl rfl (mode_mem_all _) rfl he)
    · exact setMode_engine_refused (target := .setup) h he (touchesSetup_to_setup _) away
    · exact setMode_engine_refused h he (touchesSetup_of_setup setup _) (by rw [setup]; exact away.symm)

end Sys2Proof.Machine
end

section
/-! Read Table and Write Table (R28 to R30), Set Clock, the condition mask and the captures' locks (R37, R148, R183). -/

namespace Sys2Proof.Machine

/-! ## The arguments of a table item (R29) -/

theorem firstBad_table {table : Byte} (item : Byte) (h : 6 < table.toNat) :
    firstBad (tableChecks table item) = some 0 := by
  simp [firstBad, tableChecks, Nat.not_le.mpr h]

theorem firstBad_item {table item : Byte} (ht : table.toNat ≤ 6) (hi : itemCount table.toNat ≤ item.toNat) :
    firstBad (tableChecks table item) = some 1 := by
  simp [firstBad, tableChecks, ht, Nat.not_lt.mpr hi]

theorem firstBad_inRange {table item : Byte} (ht : table.toNat ≤ 6) (hi : item.toNat < itemCount table.toNat) :
    firstBad (tableChecks table item) = none := by
  simp [firstBad, tableChecks, ht, hi]

/-! ## Read Table (R30) -/

section
variable {src : Source} {s : State} (h : Ready src s) (hp : permitted src = true) {table item : Byte}
include h hp

theorem readTable_bad {index : Nat} (hb : firstBad (tableChecks table item) = some index) :
    Answers (.readTable src table item) src s [0x09, 0x16, BitVec.ofNat 8 index] s.part :=
  badArgument_answers rfl h rfl rfl (refusal_none hp (by cases src <;> rfl) (mode_mem_all _) nofun) hb

theorem readTable_busy (hb : firstBad (tableChecks table item) = none) (hs : s.part.modeCtl.save ≠ .idle) :
    Answers (.readTable src table item) src s [0x09, 0x01] s.part :=
  admitted_read_answers rfl h hp rfl hb (by simp only [taken_save, hs, ne_eq, not_false_eq_true, if_true]; rfl)

theorem readTable_item (hb : firstBad (tableChecks table item) = none) (hs : s.part.modeCtl.save = .idle) :
    Answers (.readTable src table item) src s
      ([0x09, 0x00] ++ s.part.readSet.itemBytes table.toNat item.toNat ++
        beBytes 1 (if s.part.modeCtl.mode = .setup then 0 else 1)) s.part :=
  admitted_read_answers rfl h hp rfl hb (by
    simp only [taken_save, hs, ne_eq, not_true, if_false, taken_mode, Part.readSet, taken_pendingSet, taken_active]
    rfl)

end

/-- Settles O37: `readTable_item` by the mode, and its two kinds of refusal. -/
theorem readTableReadsModesSet : Obligations.ReadTableReadsModesSet := by
  intro src table item s h hp
  refine ⟨fun ht hi => ⟨fun saving => ?_, fun idle setup => ?_, fun idle away => ?_⟩, fun ht => ?_, fun ht hi => ?_⟩
  · exact readTable_busy h hp (firstBad_inRange ht hi) saving
  · have answered := readTable_item h hp (firstBad_inRange ht hi) idle
    rw [Part.readSet, if_pos setup, if_pos setup] at answered
    exact answered
  · have answered := readTable_item h hp (firstBad_inRange ht hi) idle
    rw [Part.readSet, if_neg away, if_neg away] at answered
    exact answered
  · exact readTable_bad h hp (firstBad_table item ht)
  · exact readTable_bad h hp (firstBad_item ht hi)

/-! ## Write Table (R28, R29) -/

section
variable {s : State} {port : PortId} (h : Ready (.service port true) s) {table item : Byte} {contents : List Byte}
  (hf : itemFits table contents = true)
include h hf

theorem writeTable_bad (hm : s.part.modeCtl.mode = .setup) {index : Nat}
    (hb : badItem s.part.modeCtl.pendingSet table item contents = some index) :
    Answers (.writeTable (.service port true) table item contents) (.service port true) s
      [0x08, 0x16, BitVec.ofNat 8 index] s.part :=
  badArgument_answers rfl h (lengthFits_writeTable item hf) rfl (refusal_none rfl rfl (by simp [hm]) nofun) hb

end

/-- With no argument at fault Write Table is admitted in SETUP. -/
theorem writeTable_admitted {port : PortId} {table item : Byte} {contents : List Byte} {p : Part}
    (hm : p.modeCtl.mode = .setup) (hb : badItem p.modeCtl.pendingSet table item contents = none) :
    requestWriteTable .service table item contents (p.taken (.service port true)) =
      writeItem .service table item contents (p.taken (.service port true)) := by
  unfold requestWriteTable
  rw [taken_pendingSet, hb]
  exact admitRequest_none (refusal_none (src := .service port true) rfl rfl (by simp [hm]) (nofun : false = true → _)) _ _

theorem writeItem_saving (ch : Channel) (table item : Byte) (contents : List Byte) {p : Part}
    (hs : p.modeCtl.save ≠ .idle) : writeItem ch table item contents p = respond ch [0x08, 0x01] p :=
  if_pos hs

theorem writeItem_written (ch : Channel) {table item : Byte} {contents : List Byte} {set : TableSet} {p : Part}
    (hs : p.modeCtl.save = .idle)
    (hw : p.modeCtl.pendingSet.withItem table.toNat item.toNat contents = .ok set) :
    writeItem ch table item contents p =
      respond ch [0x08, 0x00] { p with modeCtl := { p.modeCtl with pendingSet := set } } := by
  simp only [writeItem, hs, ne_eq, not_true, if_false, hw]
  rfl

/-- An item in range whose contents hold has no argument at fault. -/
theorem badItem_ok {set new : TableSet} {table item : Byte} {contents : List Byte} (ht : table.toNat ≤ 6)
    (hi : item.toNat < itemCount table.toNat) (hw : set.withItem table.toNat item.toNat contents = .ok new) :
    badItem set table item contents = none := by
  simp [badItem, firstBad_inRange ht hi, hw]

theorem badItem_error {set : TableSet} {table item : Byte} {contents : List Byte} {index : Nat} (ht : table.toNat ≤ 6)
    (hi : item.toNat < itemCount table.toNat) (hw : set.withItem table.toNat item.toNat contents = .error index) :
    badItem set table item contents = some index := by
  simp [badItem, firstBad_inRange ht hi, hw]

theorem badItem_checks {table item : Byte} {index : Nat} (hb : firstBad (tableChecks table item) = some index)
    (set : TableSet) (contents : List Byte) : badItem set table item contents = some index := by
  simp [badItem, hb]

/-- Settles O41: the mode's refusal, the first argument at fault, and `writeItem`. -/
theorem writeTableEditsPendingSet : Obligations.WriteTableEditsPendingSet := by
  intro port table item bytes s src m h fits
  have length := lengthFits_writeTable item fits
  refine ⟨fun away => ?_, fun setup => ⟨fun ht => ?_, fun ht hi => ?_, fun ht hi => ⟨fun k hw => ?_, fun set hw =>
    ⟨fun saving => ?_, fun idle => ?_⟩⟩⟩⟩
  · exact refused_answers rfl h length rfl (refusal_mode rfl rfl (by simpa using away))
  · exact writeTable_bad h fits setup (badItem_checks (firstBad_table item ht) _ _)
  · exact writeTable_bad h fits setup (badItem_checks (firstBad_item ht hi) _ _)
  · exact writeTable_bad h fits setup (badItem_error ht hi hw)
  · exact read_answers rfl h length ((writeTable_admitted setup (badItem_ok ht hi hw)).trans
      (writeItem_saving _ _ _ _ saving))
  · have written := (writeTable_admitted (port := port) setup (badItem_ok ht hi hw)).trans (writeItem_written _ idle hw)
    exact changing_answers rfl h length written

/-! ## Set Clock (R37), Set Condition Mask (R183), Lock and Unlock Capture (R148) -/

/-- Lock and Unlock of a number that no entry holds are refused (R148). -/
theorem heldNumber_none {p : Part} {number : Word32} (hn : p.capture.entryOf number.toNat = none) :
    heldNumber p number = some 0 := by
  simp [heldNumber, firstBad, hn]

theorem heldNumber_some {p : Part} {number : Word32} {e : Nat} (hn : p.capture.entryOf number.toNat = some e) :
    heldNumber p number = none := by
  simp [heldNumber, firstBad, hn]

theorem setLocked_eq {c : Capture} {number e : Nat} {x : CaptureEntry} (hn : c.entryOf number = some e)
    (hx : c.entry e = some x) (b : Bool) :
    setLocked number b c = { c with entries := c.entries.setIfInBounds e (some { x with locked := b }) } := by
  simp only [setLocked, hn, Capture.mapEntry, hx, Option.map_some]

section
variable {src : Source} {s : State} (h : Ready src s)
include h

theorem setClock_answers (hp : permitted src = true) (value : Word32) :
    Answers (.setClock src value) src s [0x04, 0x00]
      { s.part with modeCtl := { s.part.modeCtl with clock := value.toNat, sync := true } } := by
  have set := admitRequest_anywhere hp 0x04 rfl (fun p => answer (sourceChannel src) 0x04 []
    { p with modeCtl := { p.modeCtl with clock := value.toNat, sync := true } }) s.part
  exact changing_answers rfl h rfl set (hlast := by cases src <;> rfl)

end

theorem setMask_answers {s : State} (h : Ready .fleet s) {mask : BitVec 16} (hm : mask.toNat < 1024) :
    Answers (.setConditionMask .fleet mask) .fleet s [0x4A, 0x00]
      { s.part with link := { s.part.link with mask := BitVec.ofNat 10 mask.toNat } } := by
  have fits : firstBad [(0, decide (mask.toNat < 1024))] = none := by simp [firstBad, hm]
  have set : requestMask .fleet mask (s.part.taken .fleet) = respond .fleet [0x4A, 0x00]
      { s.part.taken .fleet with link := { (s.part.taken .fleet).link with mask := mask.setWidth 10 } } := by
    unfold requestMask
    rw [fits]
    exact admitRequest_none (refusal_none (src := .fleet) rfl rfl (mode_mem_all _) (nofun : false = true → _)) _ _
  exact changing_answers rfl h rfl set

theorem setMask_bad {s : State} (h : Ready .fleet s) {mask : BitVec 16} (hm : 1024 ≤ mask.toNat) :
    Answers (.setConditionMask .fleet mask) .fleet s [0x4A, 0x16, 0x00] s.part :=
  badArgument_answers (index := 0) rfl h rfl rfl (refusal_none rfl rfl (mode_mem_all _) nofun)
    (by simp [firstBad, Nat.not_lt.mpr hm])

section
variable {i : Instr} {src : Source} {s : State} {msg : List Byte} {code : Byte} {number : Word32} {b : Bool}
  (hi : exec i s = runRequest src msg (fun ch => requestLock ch code number b) s) (h : Ready src s)
  (hp : permitted src = true) (hl : lengthFits msg = true)
include hi h hp hl

/-- Lock and Unlock Capture, by code and flag (R148). -/
theorem requestLock_answers {e : Nat} {x : CaptureEntry} (hn : s.part.capture.entryOf number.toNat = some e)
    (hx : s.part.capture.entry e = some x) :
    Answers i src s [code, 0x00]
      { s.part with
        capture := { s.part.capture with
          entries := s.part.capture.entries.setIfInBounds e (some { x with locked := b }) } } := by
  have set : requestLock (sourceChannel src) code number b (s.part.taken src) =
      respond (sourceChannel src) [code, 0x00]
        { s.part.taken src with capture := setLocked number.toNat b s.part.capture } :=
    (admitRequest_anywhere hp code (heldNumber_some (by rw [taken_capture]; exact hn)) _ s.part).trans
      (by rw [taken_capture]; rfl)
  rw [setLocked_eq hn hx] at set
  exact changing_answers hi h hl set (hlast := by cases src <;> rfl)

theorem requestLock_bad (hn : s.part.capture.entryOf number.toNat = none) :
    Answers i src s [code, 0x16, 0x00] s.part :=
  badArgument_answers (index := 0) hi h hl rfl (refusal_none hp (by cases src <;> rfl) (mode_mem_all _) nofun)
    (heldNumber_none (by rw [taken_capture]; exact hn))

end

/-- Settles O39: each setting's own rule. -/
theorem settingsActAtOnce : Obligations.SettingsActAtOnce := by
  intro src s h hp
  refine ⟨setClock_answers h hp, fun mask fleet => ?_, fun number => ⟨fun none => ⟨?_, ?_⟩, fun e x holds entry => ⟨?_, ?_⟩⟩⟩
  · subst fleet
    exact ⟨setMask_answers h, setMask_bad h⟩
  · exact requestLock_bad (number := number) (b := true) rfl h hp rfl none
  · exact requestLock_bad (number := number) (b := false) rfl h hp rfl none
  · exact requestLock_answers (number := number) rfl h hp rfl holds entry
  · exact requestLock_answers (number := number) rfl h hp rfl holds entry

end Sys2Proof.Machine
end

section
/-! What admission moves of the part (the lines, the quiet timer and the sleep entry, the channels) does not touch the close
of an engagement (R96), so that a request that closes one closes the engagement of the part as it stood. -/

namespace Sys2Proof.Machine

/-- The part with its lines, its quiet timer and sleep entry, and its link replaced. -/
def Part.managed (lines : Lines) (quiet : Option Nat) (sleepWait : Option Bool) (link : Link) (p : Part) : Part :=
  { p with lines, modeCtl := { p.modeCtl with quiet, sleepWait }, link }

/-- The part as an admission takes it is the part with those replaced. -/
theorem taken_eq_managed (src : Source) (p : Part) :
    p.taken src =
      p.managed (p.taken src).lines (p.taken src).modeCtl.quiet (p.taken src).modeCtl.sleepWait (p.taken src).link := by
  cases src <;> rfl

section
variable (lines : Lines) (quiet : Option Nat) (sleepWait : Option Bool) (link : Link) (p : Part)

theorem managed_slot (n : Nat) : (p.managed lines quiet sleepWait link).slot n = p.slot n := rfl

theorem managed_slotOfKind (k : Kind) : (p.managed lines quiet sleepWait link).slotOfKind k = p.slotOfKind k := rfl

theorem managed_capture : (p.managed lines quiet sleepWait link).capture = p.capture := rfl

theorem managed_ring : (p.managed lines quiet sleepWait link).ring = p.ring := rfl

theorem managed_active : (p.managed lines quiet sleepWait link).modeCtl.active = p.modeCtl.active := rfl

theorem managed_engagement : (p.managed lines quiet sleepWait link).clutch.engagement = p.clutch.engagement := rfl

theorem creditSlot_managed (n : Nat) (a : Credit) :
    creditSlot n a (p.managed lines quiet sleepWait link) = (creditSlot n a p).managed lines quiet sleepWait link := by
  unfold creditSlot
  rw [managed_slot]
  cases p.slot n <;> rfl

theorem engagementCredit_managed (e : Engagement) :
    engagementCredit e (p.managed lines quiet sleepWait link) =
      (engagementCredit e p).managed lines quiet sleepWait link := by
  unfold engagementCredit
  rw [managed_slotOfKind]
  cases p.slotOfKind .clutch with
  | none => rfl
  | some n => exact creditSlot_managed lines quiet sleepWait link p n _

theorem copierRun_managed :
    copierRun (p.managed lines quiet sleepWait link) = (copierRun p).managed lines quiet sleepWait link := by
  unfold copierRun
  rw [managed_capture, managed_ring]
  cases p.capture.copier with
  | none => rfl
  | some k =>
    dsimp only
    cases copierAsk (copierTake framesPerPage p.ring k) p.ring <;> rfl

theorem startIn_managed (e : Nat) (t : Trigger) :
    startIn e t (p.managed lines quiet sleepWait link) = (startIn e t p).managed lines quiet sleepWait link := by
  have started : ∀ capture hire,
      copierRun (askCapture (.openHeader e) { p.managed lines quiet sleepWait link with capture, hire }) =
        (copierRun (askCapture (.openHeader e) { p with capture, hire })).managed lines quiet sleepWait link :=
    fun capture hire =>
      copierRun_managed lines quiet sleepWait link (askCapture (.openHeader e) { p with capture, hire })
  exact started _ _

theorem startCapture_managed (t : Trigger) :
    (startCapture t (p.managed lines quiet sleepWait link)).1 =
      (startCapture t p).1.managed lines quiet sleepWait link := by
  unfold startCapture
  rw [managed_capture]
  split
  · rfl
  · cases p.capture.choose with
    | none => rfl
    | some e => exact startIn_managed lines quiet sleepWait link p e t

theorem takeTrigger_managed (t : Trigger) :
    (takeTrigger t (p.managed lines quiet sleepWait link)).1 =
      (takeTrigger t p).1.managed lines quiet sleepWait link := by
  unfold takeTrigger
  rw [managed_capture]
  split_ifs
  · exact startCapture_managed lines quiet sleepWait link p t
  · rfl
  · rfl

theorem markSlot_managed (kind : Cause) :
    markSlot kind (p.managed lines quiet sleepWait link) = (markSlot kind p).managed lines quiet sleepWait link := by
  unfold markSlot
  rw [managed_slotOfKind]
  cases p.slotOfKind kind.slotKind with
  | none => rfl
  | some n =>
    dsimp only
    rw [managed_slot]
    cases p.slot n <;> rfl

theorem makeMark_managed (kind : Cause) (magnitude : Int) :
    makeMark kind magnitude (p.managed lines quiet sleepWait link) =
      (makeMark kind magnitude p).managed lines quiet sleepWait link := by
  unfold makeMark
  dsimp only
  rw [markSlot_managed, managed_active]
  split
  · have taken : ∀ hire t,
        (takeTrigger t { (markSlot kind p).managed lines quiet sleepWait link with hire }).1 =
          (takeTrigger t { markSlot kind p with hire }).1.managed lines quiet sleepWait link :=
      fun hire t => takeTrigger_managed lines quiet sleepWait link { markSlot kind p with hire } t
    exact taken _ _
  · rfl

theorem judgeEngagement_managed (energy : Nat) :
    judgeEngagement energy (p.managed lines quiet sleepWait link) =
      (judgeEngagement energy p).managed lines quiet sleepWait link := by
  unfold judgeEngagement
  rw [managed_active]
  split
  · exact makeMark_managed lines quiet sleepWait link p _ _
  · rfl

theorem closeEngagement_managed :
    closeEngagement (p.managed lines quiet sleepWait link) =
      (closeEngagement p).managed lines quiet sleepWait link := by
  unfold closeEngagement
  rw [managed_engagement]
  cases p.clutch.engagement with
  | none => rfl
  | some e =>
    dsimp only
    rw [engagementCredit_managed, judgeEngagement_managed]
    rfl

theorem leaveActive_managed :
    leaveActive (p.managed lines quiet sleepWait link) = (leaveActive p).managed lines quiet sleepWait link := by
  have mode : (p.managed lines quiet sleepWait link).modeCtl.mode = p.modeCtl.mode := rfl
  unfold leaveActive
  rw [mode]
  split
  · exact closeEngagement_managed lines quiet sleepWait link p
  · rfl

end

/-! ## What the close of an engagement changes -/

/-- The part without what a credit, a mark and the start of a capture change. -/
def Part.unaccounted (p : Part) : Part :=
  { p with
    register := {}, hire := {}, capture := {}, clutch := {}
    storage := { p.storage with archive := [], captureJobs := [] } }

theorem creditSlot_unaccounted (n : Nat) (a : Credit) (p : Part) :
    (creditSlot n a p).unaccounted = p.unaccounted := by
  unfold creditSlot
  split <;> rfl

theorem copierRun_unaccounted (p : Part) : (copierRun p).unaccounted = p.unaccounted := by
  unfold copierRun
  split
  · rfl
  · dsimp only
    split <;> rfl

theorem takeTrigger_unaccounted (t : Trigger) (p : Part) : (takeTrigger t p).1.unaccounted = p.unaccounted := by
  unfold takeTrigger
  split
  · unfold startCapture
    split
    · rfl
    · split
      · rfl
      · exact copierRun_unaccounted _
  · split <;> rfl

theorem markSlot_unaccounted (kind : Cause) (p : Part) : (markSlot kind p).unaccounted = p.unaccounted := by
  unfold markSlot
  split
  · rfl
  · split <;> rfl

theorem judgeEngagement_unaccounted (energy : Nat) (p : Part) :
    (judgeEngagement energy p).unaccounted = p.unaccounted := by
  unfold judgeEngagement
  split
  · unfold makeMark
    dsimp only
    split
    · exact (takeTrigger_unaccounted _ _).trans (markSlot_unaccounted _ p)
    · exact markSlot_unaccounted _ p
  · rfl

theorem engagementCredit_unaccounted (e : Engagement) (p : Part) :
    (engagementCredit e p).unaccounted = p.unaccounted := by
  unfold engagementCredit
  split
  · rfl
  · exact creditSlot_unaccounted _ _ p

theorem closeEngagement_unaccounted (p : Part) : (closeEngagement p).unaccounted = p.unaccounted := by
  unfold closeEngagement
  split
  · rfl
  · exact (judgeEngagement_unaccounted _ _).trans (engagementCredit_unaccounted _ p)

theorem leaveActive_unaccounted (p : Part) : (leaveActive p).unaccounted = p.unaccounted := by
  unfold leaveActive
  split
  · exact closeEngagement_unaccounted p
  · rfl

/-- What no accounting changes, a mode's leaving ACTIVE keeps. -/
theorem leaveActive_keeps {β : Type} (g : Part → β) (hg : ∀ q : Part, g q.unaccounted = g q) (p : Part) :
    g (leaveActive p) = g p := by
  rw [← hg, leaveActive_unaccounted, hg]

/-- An engagement that a request's change of mode closes is that of the part as it stood (R25). -/
theorem leaveActive_taken (src : Source) (p : Part) :
    leaveActive (p.taken src) =
      (leaveActive p).managed (p.taken src).lines (p.taken src).modeCtl.quiet (p.taken src).modeCtl.sleepWait
        (p.taken src).link := by
  rw [← leaveActive_managed, ← taken_eq_managed]

end Sys2Proof.Machine
end

section
/-! Set Mode (R24 to R27, R31). -/

namespace Sys2Proof.Machine

/-! ## Requests that stay in progress -/

/-- The settling keeps the state of a channel that no reader works for. -/
theorem settle_chan_state_of_readers (m : Medium) {p : Part} {ch : Channel} (h : ∀ r ∈ p.storage.readers, r.ch ≠ ch) :
    ((settle m p).chan ch).state = (p.chan ch).state := by
  have granted : (grant m p).chan ch = p.chan ch := (grant_same m p h).1
  have offers : ∀ q, ((linkOffers q).chan ch).state = (q.chan ch).state := by
    intro q
    simp only [linkOffers, offerNext_chan_state]
  have quiet : ∀ q, ((settleQuiet q).chan ch).state = (q.chan ch).state := by
    intro q
    cases ch <;> rfl
  unfold settle
  split
  · rfl
  · split
    · rw [granted]
    · rw [quiet, transmitSettle, offers, fillB_chan, fillA_chan, offers, (probeNext_same _).1, granted]

/-- A request that changes the part and stays in progress: its channel remains PROCESSING (R176). -/
theorem changing_processes {i : Instr} {src : Source} {s : State} {msg : List Byte} {run : Channel → Part → Part}
    (hi : exec i s = runRequest src msg run s) (h : Ready src s) (hl : lengthFits msg = true) {q p : Part}
    (hq : run (sourceChannel src) (s.part.taken src) = q) {also : Part → Prop} (more : ∀ medium, also (settle medium q))
    (hc : q.chan (sourceChannel src) = (s.part.taken src).chan (sourceChannel src))
    (hr : q.storage.readers = (s.part.taken src).storage.readers := by rfl)
    (he : q.restore = (s.part.taken src).restore := by rfl) (hlast : q.lasting = p.lasting := by rfl) :
    Processes i src s p also := by
  have restore : q.restore = none := by rw [he, taken_restore]; exact (awake_parts h.1).2.2.2
  have readers : ∀ r ∈ q.storage.readers, r.ch ≠ sourceChannel src := by
    rw [hr, taken_storage]
    exact h.2.2.2.2
  refine ⟨_, hi.trans (runRequest_ready h hl hq restore), ?_, (lasting_settle _ _).trans hlast, more _, rfl, rfl⟩
  rw [settle_chan_state_of_readers _ readers, hc, taken_chan]
  rfl

theorem chan_of_link {p q : Part} (h : q.link = p.link) (ch : Channel) : q.chan ch = p.chan ch := by
  cases ch <;> simp only [Part.chan, h]

/-! ## The admission of Set Mode (R24) -/

section
variable {src : Source} {p : Part} {target : Mode} (hp : permitted src = true)
include hp

/-- A Set Mode is admitted on the Service channel, or where it does not involve SETUP; a change to or from SETUP with the
engine STOPPED. -/
theorem requestSetMode_admitted (level : p.touchesSetup (some target) = true → serviceOn src = true)
    (engine : p.touchesSetup (some target) = true → p.modeCtl.mode ≠ target → p.detector.engine = .stopped) :
    requestSetMode (sourceChannel src) (BitVec.ofNat 8 target.num) (p.taken src) =
      applyMode (sourceChannel src) target (p.taken src) := by
  have touches : (p.taken src).touchesSetup (some target) = p.touchesSetup (some target) := by cases src <;> rfl
  rw [requestSetMode_eq]
  refine admitRequest_none (refusal_none hp ?_ (mode_mem_all _) fun needed => ?_) _ _
  · cases src with
    | fleet =>
      have away : p.touchesSetup (some target) = false := by
        rw [← Bool.not_eq_true]
        exact fun on => absurd (level on) (by decide)
      simp [Part.setModeTerms, Terms.takes, sourceChannel, touches, away]
    | service port svc => rfl
  · simp only [Part.setModeTerms, touches, taken_mode, Option.isSome_some, Bool.true_and, Bool.and_eq_true,
      bne_iff_ne, ne_eq, Option.some.injEq] at needed
    exact engine needed.1 fun same => needed.2 same.symm

end

/-! ## What Set Mode does after its admission (R24, R27, R28) -/

section
variable {ch : Channel} {target : Mode} {p : Part} (hs : p.modeCtl.save = .idle)
include hs

theorem applyMode_same (hm : p.modeCtl.mode = target) : applyMode ch target p = respond ch [0x03, 0x00] p := by
  rw [applyMode, if_neg (not_not_intro hs), if_pos hm]
  rfl

/-- A change out of a mode other than SETUP; one into SETUP with no hire and no capture open. -/
theorem applyMode_change (hm : p.modeCtl.mode ≠ target) (hn : p.modeCtl.mode ≠ .setup)
    (ht : target = .setup → p.hireOpen = false ∧ p.capture.anyOpen = false) :
    applyMode ch target p = respond ch [0x03, 0x00] (changeMode target p) := by
  rw [applyMode, if_neg (not_not_intro hs), if_neg hm]
  by_cases setup : target = .setup
  · obtain ⟨hire, capture⟩ := ht setup
    simp only [setup, hire, capture, if_true, Bool.false_eq_true, if_false]
    rfl
  · rw [if_neg setup, if_neg hn]
    rfl

/-- Out of SETUP a pending set that fails validation is refused with its reason and item (R27). -/
theorem applyMode_invalid (hm : p.modeCtl.mode = .setup) (ht : target ≠ .setup) (hc : p.hire.closing = none)
    {reason index : Nat} (hv : validate p.register p.modeCtl.pendingSet = some (reason, index)) :
    applyMode ch target p =
      respond ch [0x03, 0x29, BitVec.ofNat 8 reason, BitVec.ofNat 8 index]
        { p with modeCtl := { p.modeCtl with validation := .failed reason index } } := by
  rw [applyMode, if_neg (not_not_intro hs), if_neg (by rw [hm]; exact ht.symm), if_neg ht, if_pos hm, hc, hv]
  rfl

/-- Out of SETUP a pending set that passes validation is saved (R27). -/
theorem applyMode_save (hm : p.modeCtl.mode = .setup) (ht : target ≠ .setup) (hc : p.hire.closing = none)
    (hv : validate p.register p.modeCtl.pendingSet = none) :
    applyMode ch target p =
      { p with modeCtl := { p.modeCtl with save := .saving target, savePage := 0 } } := by
  rw [applyMode, if_neg (not_not_intro hs), if_neg (by rw [hm]; exact ht.symm), if_neg ht, if_pos hm, hc, hv]
  rfl

end

/-! ## The change of mode as it lasts (R24, R25, R26) -/

theorem enterMode_managed (target : Mode) (lines : Lines) (quiet : Option Nat) (sleepWait : Option Bool) (link : Link)
    (p : Part) :
    enterMode target (p.managed lines quiet sleepWait link) =
      (enterMode target p).managed lines quiet sleepWait link := by
  cases target <;> rfl

theorem enterMode_lines (target : Mode) (p : Part) : (enterMode target p).lines = p.lines := by cases target <;> rfl

theorem enterMode_link (target : Mode) (p : Part) : (enterMode target p).link = p.link := by cases target <;> rfl

theorem enterMode_storage (target : Mode) (p : Part) : (enterMode target p).storage = p.storage := by cases target <;> rfl

theorem enterMode_restore (target : Mode) (p : Part) : (enterMode target p).restore = p.restore := by cases target <;> rfl

theorem enterMode_placedFrames (target : Mode) (p : Part) : (enterMode target p).placedFrames = p.placedFrames := by
  cases target <;> rfl

/-- What admission moves does not last. -/
theorem lasting_managed_taken (src : Source) {p q : Part} (hl : q.lines = p.lines) (hk : q.link = p.link)
    (quiet : Option Nat) (sleepWait : Option Bool) :
    (q.managed (p.taken src).lines quiet sleepWait (p.taken src).link).lasting = q.lasting := by
  cases src <;> simp [Part.lasting, Part.managed, hl, hk, Part.taken, noteWakeCause, sampleSource,
    Part.mapChan, Part.setChan, Part.chan, sourceChannel, Chan.accept, Chan.lasting]

theorem changeMode_taken_lasting (src : Source) (target : Mode) (p : Part) :
    (changeMode target (p.taken src)).lasting = (enterMode target (leaveActive p)).lasting := by
  rw [changeMode, lasting_requestFull, leaveActive_taken, enterMode_managed]
  exact lasting_managed_taken src
    ((enterMode_lines _ _).trans (leaveActive_keeps Part.lines (fun _ => rfl) p))
    ((enterMode_link _ _).trans (leaveActive_keeps Part.link (fun _ => rfl) p)) _ _

/-- A Set Mode that changes the mode is answered DONE, closes an open engagement on leaving ACTIVE, and is followed by a full
checkpoint (R24 to R26). -/
theorem setMode_changes {src : Source} {s : State} {target : Mode} (h : Ready src s) (hp : permitted src = true)
    (hs : s.part.modeCtl.save = .idle) (hm : s.part.modeCtl.mode ≠ target) (hn : s.part.modeCtl.mode ≠ .setup)
    (ht : target = .setup → serviceOn src = true ∧ s.part.detector.engine = .stopped ∧ s.part.hireOpen = false ∧
      s.part.capture.anyOpen = false) :
    Answers (.setMode src (BitVec.ofNat 8 target.num)) src s [0x03, 0x00] (enterMode target (leaveActive s.part))
      fun t => t.checkpointing = true := by
  have setup : s.part.touchesSetup (some target) = true → target = .setup := by
    simp [Part.touchesSetup, hn]
  have admitted := (requestSetMode_admitted hp (fun on => (ht (setup on)).1) fun on _ => (ht (setup on)).2.1).trans
    (applyMode_change (by rw [taken_save]; exact hs) (by rw [taken_mode]; exact hm) (by rw [taken_mode]; exact hn)
      fun on => by
        rw [Part.hireOpen, taken_hire, taken_capture]
        exact (ht on).2.2)
  refine acting_answers rfl h rfl admitted ?_ ((lasting_respond _ _ _).trans (changeMode_taken_lasting src target s.part))
    fun medium => settle_checkpointing medium ?_
  · refine responding_respond ?_ ?_ ?_
    · exact (enterMode_placedFrames target _).trans (leaveActive_keeps Part.placedFrames (fun _ => rfl) _)
    · rw [changeMode, requestFull_storage_readers, enterMode_storage]
      exact leaveActive_keeps (fun q => q.storage.readers) (fun _ => rfl) _
    · exact (enterMode_restore target _).trans (leaveActive_keeps Part.restore (fun _ => rfl) _)
  · have asked := requestFull_state .modeChange none (enterMode target (leaveActive (s.part.taken src)))
    simpa [Part.checkpointing, changeMode] using asked

/-- The part that a change of mode leaves, but for what each target adds. -/
theorem enterMode_leaveActive (target : Mode) (p : Part) :
    enterMode target (leaveActive p) =
      enterMode target { leaveActive p with modeCtl := p.modeCtl } := by
  have mode : (leaveActive p).modeCtl = p.modeCtl := leaveActive_keeps Part.modeCtl (fun _ => rfl) p
  rw [← mode]

/-- A Set Mode whose target is the mode is answered and changes nothing (R24). -/
theorem setMode_same {src : Source} {s : State} {target : Mode} (h : Ready src s) (hp : permitted src = true)
    (hs : s.part.modeCtl.save = .idle) (hm : s.part.modeCtl.mode = target)
    (ht : target = .setup → serviceOn src = true) :
    Answers (.setMode src (BitVec.ofNat 8 target.num)) src s [0x03, 0x00] s.part := by
  have level : s.part.touchesSetup (some target) = true → serviceOn src = true := by
    intro on
    refine ht ?_
    simpa [Part.touchesSetup, hm] using on
  exact read_answers rfl h rfl ((requestSetMode_admitted hp level fun _ away => absurd hm away).trans
    (applyMode_same (by rw [taken_save]; exact hs) (by rw [taken_mode]; exact hm)))

/-- Settles O40: `setMode_changes` for each change, and `applyMode` where nothing changes or SETUP is left. -/
theorem setModeChangesMode : Obligations.SetModeChangesMode := by
  intro src s h hp idle p left hire
  refine ⟨fun paused => ?_, fun active => ?_, fun target same level => setMode_same h hp idle same level,
    fun service stopped => ⟨fun away current closing closed => ?_, fun target away setup closing => ?_⟩⟩
  · have changed := setMode_changes (target := .active) h hp idle (by rw [paused]; decide) (by rw [paused]; decide) nofun
    have stays : leaveActive s.part = s.part := if_neg (by rw [paused]; decide)
    have same : left = p := stays
    rw [stays] at changed
    simp only [hire, same]
    exact changed
  · have changed := setMode_changes (target := .paused) h hp idle (by rw [active]; decide) (by rw [active]; decide) nofun
    rw [enterMode_leaveActive] at changed
    exact changed
  · have none : s.part.hireOpen = false := by
      rw [Part.hireOpen, (current : s.part.hire.current = _), (closing : s.part.hire.closing = _)]
      rfl
    have changed := setMode_changes (target := .setup) h hp idle away away fun _ => ⟨service, stopped, none, closed⟩
    rw [enterMode_leaveActive] at changed
    exact changed
  · have admitted := requestSetMode_admitted (target := target) hp (fun _ => service) fun _ _ => stopped
    have unsaved : (p.taken src).modeCtl.save = .idle := (taken_save src p).trans idle
    have inSetup : (p.taken src).modeCtl.mode = .setup := (taken_mode src p).trans setup
    have unclosing : (p.taken src).hire.closing = none := by rw [taken_hire]; exact closing
    have validated : validate (p.taken src).register (p.taken src).modeCtl.pendingSet =
        validate p.register p.modeCtl.pendingSet := by rw [taken_register, taken_pendingSet]
    refine ⟨fun reason index fails => ?_, fun passes => ?_⟩
    · have leaves := admitted.trans (applyMode_invalid unsaved inSetup away unclosing (validated.trans fails))
      exact changing_answers rfl h rfl leaves (hlast := by cases src <;> rfl)
    · have leaves := admitted.trans (applyMode_save unsaved inSetup away unclosing (validated.trans passes))
      exact changing_processes rfl h rfl leaves (fun _ => trivial) (by exact chan_of_link rfl _)
        (hlast := by cases src <;> rfl)

end Sys2Proof.Machine
end

section
/-! Restart, Clear All and Checkpoint Now (R39, R40, R134, R158, R169). -/

namespace Sys2Proof.Machine

/-! ## Who waits for a full checkpoint (R158) -/

/-- A grant leaves the waiters of the full checkpoints as they are. -/
theorem grant_waiters (m : Medium) (p : Part) :
    (grant m p).storage.full.waiters = p.storage.full.waiters ∧
      (grant m p).storage.full.nextWaiters = p.storage.full.nextWaiters := by
  unfold grant
  split_ifs
  · exact ⟨rfl, rfl⟩
  · exact ⟨rfl, rfl⟩
  · rw [grantReader_full, refreshReaders_full]
    exact ⟨rfl, rfl⟩
  · unfold grantFull
    dsimp only
    split <;> exact ⟨rfl, rfl⟩
  · exact ⟨rfl, rfl⟩
  · split
    · unfold grantArchive
      dsimp only
      split <;> exact ⟨rfl, rfl⟩
    · exact ⟨rfl, rfl⟩
    · rw [grantReader_full, refreshReaders_full]
      exact ⟨rfl, rfl⟩

/-- Who waits for a full checkpoint still waits after the settling. -/
theorem settle_awaits (m : Medium) {p : Part} {w : Waiter} (h : p.awaitsCheckpoint w = true) :
    (settle m p).awaitsCheckpoint w = true := by
  by_cases live : p.live = true
  · obtain ⟨waiters, next⟩ := grant_waiters m p
    simp only [Part.awaitsCheckpoint, Bool.and_eq_true] at h ⊢
    refine ⟨settle_checkpointing m h.1, ?_⟩
    rw [settle_storage m live, waiters, next]
    exact h.2
  · rw [settle_of_not_live _ (Bool.eq_false_iff.mpr live)]
    exact h

theorem requestFull_awaits (cause : CheckpointCause) (w : Waiter) (p : Part) :
    (requestFull cause (some w) p).awaitsCheckpoint w = true := by
  cases h : p.storage.full.state <;> simp [Part.awaitsCheckpoint, Part.checkpointing, requestFull, h]

/-- A request whose whole effect is that it waits for a full checkpoint. -/
theorem awaiting_processes {i : Instr} {src : Source} {s : State} {msg : List Byte} {run : Channel → Part → Part}
    (hi : exec i s = runRequest src msg run s) (h : Ready src s) (hl : lengthFits msg = true) {cause : CheckpointCause}
    {w : Waiter} (hq : run (sourceChannel src) (s.part.taken src) = requestFull cause (some w) (s.part.taken src)) :
    Processes i src s s.part fun t => t.awaitsCheckpoint w :=
  changing_processes hi h hl hq (fun medium => settle_awaits medium (requestFull_awaits _ _ _)) (requestFull_chan ..)
    (hlast := (lasting_requestFull _ _ _).trans (taken_lasting src s.part))

/-! ## Restart (R39) and Clear All (R40) -/

theorem takes_service {src : Source} (h : serviceOn src = true) {t : Terms} (ht : t.service = true) :
    t.takes (sourceChannel src) = true := by
  cases src with
  | fleet => exact absurd h (by decide)
  | service port svc => exact ht

section
variable {src : Source} {p : Part} (hp : permitted src = true) (hs : serviceOn src = true)
  (he : p.detector.engine = .stopped) (ho : p.capture.anyOpen = false) (hc : p.hire.closing = none)
  (hi : p.modeCtl.save = .idle)
include hp hs he ho hc hi

theorem requestRestart_admitted :
    requestRestart (sourceChannel src) (p.taken src) = requestFull .restart (some .restart) (p.taken src) := by
  have free : ((p.taken src).capture.anyOpen || (p.taken src).hire.closing.isSome || (p.taken src).modeCtl.save != .idle) =
      false := by
    simp [ho, hc, hi]
  refine (admitRequest_none (refusal_none hp (takes_service hs rfl) (mode_mem_all _) fun _ => he) _ _).trans ?_
  simp only [free, Bool.false_eq_true, if_false]

theorem requestClearAll_admitted (hm : p.modeCtl.mode = .setup) (hr : p.storage.releasing = false) :
    requestClearAll (sourceChannel src) (p.taken src) = applyClear (p.taken src) := by
  have free : ((p.taken src).capture.anyOpen || (p.taken src).hire.closing.isSome ||
      (p.taken src).storage.releasing || (p.taken src).modeCtl.save != .idle) = false := by
    simp [ho, hc, hi, hr]
  refine (admitRequest_none (refusal_none hp (takes_service hs rfl) (by simp [hm]) fun _ => he) _ _).trans ?_
  simp only [free, Bool.false_eq_true, if_false]

end

/-! ## Port A's frames (R130, R134) -/

theorem startAttempt_framesA_prefix (n : Nat) {p q : Part} (h : q.framesA = p.framesA) :
    p.framesA <+: (startAttempt n q).framesA := by
  rw [← h]
  unfold startAttempt
  split
  · exact ⟨_, List.append_assoc _ _ _⟩
  · exact List.prefix_refl _

theorem probeNext_framesA_prefix (p : Part) : p.framesA <+: (probeNext p).framesA := by
  unfold probeNext
  dsimp only
  split
  · exact List.prefix_refl _
  · exact ⟨_, List.append_assoc _ _ _⟩
  · exact startAttempt_framesA_prefix _ rfl
  · exact startAttempt_framesA_prefix _ rfl
  · exact List.prefix_refl _

theorem offerNext_framesA_prefix (ch : Channel) (port : PortId) (p : Part) : p.framesA <+: (offerNext ch port p).framesA := by
  have offered : ∀ (f : TxFrame) (c : Chan), p.framesA <+: (offerFrame ch port f (p.setChan ch c)).framesA := by
    intro f c
    rw [← setChan_framesA ch c p]
    cases port with
    | a => exact ⟨[f], List.append_assoc _ _ _⟩
    | b => cases ch <;> exact List.prefix_refl _
  unfold offerNext
  split
  · exact List.prefix_refl _
  · dsimp only
    split
    · exact offered _ _
    · split
      · split
        · exact List.prefix_refl _
        · exact offered _ _
      · exact List.prefix_refl _

theorem linkOffers_framesA_prefix (p : Part) : p.framesA <+: (linkOffers p).framesA :=
  ((offerNext_framesA_prefix .fleet .b p).trans (offerNext_framesA_prefix .service .b _)).trans
    (offerNext_framesA_prefix .service .a _)

/-- The settling takes no frame from port A; it adds behind those that stand there. -/
theorem settle_framesA_prefix (m : Medium) (p : Part) : p.framesA <+: (settle m p).framesA := by
  have filled : ∀ q : Part, (fillB (fillA q)).framesA = q.framesA := fun q =>
    (fillB_framesA _).trans (fillA_framesA q)
  have transmitted : ∀ q : Part, q.framesA <+: (transmitSettle q).framesA := fun q => by
    refine (linkOffers_framesA_prefix q).trans ?_
    rw [← filled (linkOffers q)]
    exact linkOffers_framesA_prefix _
  unfold settle
  split
  · exact List.prefix_refl _
  · split
    · rw [grant_framesA]
    · rw [settleQuiet_framesA, ← grant_framesA m p]
      exact (probeNext_framesA_prefix _).trans (transmitted _)

/-- Clear All keeps what port A has to send, a query's frame among it (R134). -/
theorem applyClear_frames (p : Part) : (applyClear p).framesA.map (·.frame) = p.framesA.map (·.frame) := by
  have same : ∀ f : TxFrame, f.orphaned.frame = f.frame := by
    intro f
    unfold TxFrame.orphaned
    split <;> rfl
  have orphaned : (applyClear p).framesA = p.framesA.map TxFrame.orphaned := by
    simp [Part.framesA, applyClear, clearCounting, ← Option.toList_map]
  rw [orphaned, List.map_map]
  exact List.map_congr_left fun f _ => same f

/-- Settles O42: Restart and Checkpoint Now by `awaiting_processes`; Clear All by what `applyClear` leaves. -/
theorem checkpointRequestsWait : Obligations.CheckpointRequestsWait := by
  intro src s h hp
  refine ⟨?_, fun service stopped closed unclosing idle => ⟨?_, fun setup unreleasing => ?_⟩⟩
  · exact awaiting_processes rfl h rfl (admitRequest_anywhere hp 0x38 rfl _ s.part)
  · exact awaiting_processes rfl h rfl (requestRestart_admitted hp service stopped closed unclosing idle)
  · have cleared := requestClearAll_admitted hp service stopped closed unclosing idle setup unreleasing
    refine changing_processes rfl h rfl cleared (fun medium => ?_) (by exact chan_of_link rfl _)
      (hlast := by cases src <;> rfl)
    have kept := (settle_framesA_prefix medium (applyClear (s.part.taken src))).map (·.frame)
    rw [applyClear_frames] at kept
    exact (by cases src <;> exact kept)

end Sys2Proof.Machine
end

section
/-! The ends of the archive level's writes (R40, R64, R65, R73, R108, R109, R171). -/

namespace Sys2Proof.Machine

/-! ## The poller through the settling (R67) -/

theorem startAttempt_pollQueue (n : Nat) (p : Part) : (startAttempt n p).register.pollQueue = p.register.pollQueue := by
  unfold startAttempt
  split <;> rfl

theorem startAttempt_inHand {n : Nat} {p : Part} {h : InHand} (hh : (startAttempt n p).register.inHand = some h) :
    p.register.inHand = some h := by
  unfold startAttempt at hh
  split at hh
  · exact hh
  · exact absurd hh nofun

/-- The Probe Unit takes slots from the queue and puts none into it. -/
theorem probeNext_pollQueue {p : Part} {n : Nat} (h : n ∈ (probeNext p).register.pollQueue) :
    n ∈ p.register.pollQueue := by
  unfold probeNext at h
  dsimp only at h
  split at h
  · exact h
  · exact h
  · rwa [startAttempt_pollQueue] at h
  · rename_i queue
    rw [startAttempt_pollQueue] at h
    rw [queue]
    exact List.mem_cons_of_mem _ h
  · exact h

/-- A verification in hand was in hand, or has just left the queue. -/
theorem probeNext_inHand {p : Part} {h : InHand} (hh : (probeNext p).register.inHand = some h) :
    p.register.inHand = some h ∨ h.slot ∈ p.register.pollQueue := by
  unfold probeNext at hh
  dsimp only at hh
  split at hh
  · exact .inl hh
  · exact .inl hh
  · exact .inl (startAttempt_inHand hh)
  · rename_i queue
    obtain rfl := Option.some.inj (startAttempt_inHand hh)
    exact .inr (by simp [queue])
  · exact .inl hh

/-- The settling changes the register as the Probe Unit does, or not at all. -/
theorem settle_register (m : Medium) (p : Part) :
    (settle m p).register = p.register ∨
      ∃ q : Part, q.register = p.register ∧ (settle m p).register = (probeNext q).register := by
  unfold settle
  split
  · exact .inl rfl
  · split
    · exact .inl (grant_register m p)
    · exact .inr ⟨grant m p, grant_register m p, by rw [settleQuiet_register, transmitSettle_register]⟩

/-- A slot that neither waits for verification nor is in hand stays so through the settling. -/
theorem settle_unqueued (m : Medium) {p : Part} {n : Nat} (hq : n ∉ p.register.pollQueue)
    (hh : ∀ h, p.register.inHand = some h → h.slot ≠ n) :
    n ∉ (settle m p).register.pollQueue ∧ ∀ h, (settle m p).register.inHand = some h → h.slot ≠ n := by
  rcases settle_register m p with same | ⟨q, before, after⟩
  · rw [same]
    exact ⟨hq, hh⟩
  · rw [after]
    rw [← before] at hq hh
    refine ⟨fun queued => hq (probeNext_pollQueue queued), fun h inHand => ?_⟩
    rcases probeNext_inHand inHand with was | taken
    · exact hh h was
    · exact fun same => hq (same ▸ taken)

/-! ## A response with a full checkpoint after it -/

theorem requestFull_respond (cause : CheckpointCause) (w : Option Waiter) (ch : Channel) (msg : List Byte) (p : Part) :
    requestFull cause w (respond ch msg p) = respond ch msg (requestFull cause w p) := by
  cases ch <;> rfl

theorem requestFull_checkpointing (cause : CheckpointCause) (w : Option Waiter) (p : Part) :
    (requestFull cause w p).checkpointing = true := by
  simpa [Part.checkpointing] using requestFull_state cause w p

/-- A response formed before a full checkpoint is asked for is under way, and the checkpoint asked for, when the part
has settled. -/
theorem settle_respond_requestFull (m : Medium) {ch : Channel} {msg : List Byte} {old p : Part} (hc : old.clearFor ch)
    (cause : CheckpointCause) (hf : p.placedFrames = old.placedFrames) (hr : p.storage.readers = old.storage.readers) :
    (settle m (requestFull cause none (respond ch msg p))).checkpointing = true ∧
      (settle m (requestFull cause none (respond ch msg p))).responds ch msg := by
  refine ⟨settle_checkpointing m (requestFull_checkpointing _ _ _), ?_⟩
  rw [requestFull_respond]
  exact settle_respond m hc hf hr

/-! ## The archive job at the head (R156) -/

/-- The part with the archive job at the head gone. -/
def Part.archiveOver (p : Part) (rest : List ArchiveJob) : Part :=
  p.setStorage { p.storage with archive := rest, archivePage := 0 }

section
variable {p : Part} {job : ArchiveJob} {rest : List ArchiveJob} (h : p.storage.archive = job :: rest)
include h

theorem archiveVerified_next (hl : p.storage.archivePage + 1 < job.pages) :
    archiveVerified p = p.setStorage { p.storage with archivePage := p.storage.archivePage + 1 } := by
  simp only [archiveVerified, h, hl, if_true]

theorem archiveVerified_last (hl : job.pages ≤ p.storage.archivePage + 1) :
    archiveVerified p = completeArchive job (p.archiveOver rest) := by
  simp only [archiveVerified, h, Nat.not_lt.mpr hl, if_false]
  rfl

theorem archiveFailed_eq : archiveFailed p = failArchive job (p.archiveOver rest) := by
  simp only [archiveFailed, h]
  rfl

end

/-! ## Component records (R64, R73) -/

theorem code_eq (cause : ArchiveCause) : cause.code = if cause = .removed then 0x14 else 0x15 := by
  cases cause <;> rfl

/-- A figure held at its limit is at it just when the sum reaches it. -/
theorem atLimit_addSat (a b : Nat) : atLimit (addSat max32 a b) = decide (4294967295 ≤ a + b) := by
  simp [atLimit, addSat]

/-- Units at their limit stay there whatever is added (R88). -/
theorem addWear_limit {units : Nat} (residue counts : Nat) (h : wearLimit ≤ units) :
    wearLimit ≤ (addWear units residue counts).1 := by
  unfold addWear
  dsimp only
  split
  · exact Nat.le_refl _
  · exact Nat.le_add_right_of_le h

/-- A starting figure at its limit brings its sum with the pool there, so SATURATED is what the sums say (R63, R73). -/
theorem confirmed_saturated (kind : Kind) {events time units : Nat} {pool : Pool} {wear : Nat}
    (hw : wearLimit ≤ units → wearLimit ≤ wear) :
    (((atLimit events || atLimit time || atLimit (kind.share events time) || atLimit 0 || decide (wearLimit ≤ units)) ||
        (atLimit (addSat max32 events pool.events) || atLimit (addSat max32 time pool.time) ||
          atLimit (addSat max32 (kind.share events time) (kind.share pool.events pool.time)) ||
          atLimit (addSat max32 0 pool.unobserved) || decide (wearLimit ≤ wear)))) =
      (decide (4294967295 ≤ events + pool.events) || decide (4294967295 ≤ time + pool.time) ||
        decide (4294967295 ≤ pool.unobserved) || decide (99999999 ≤ wear)) := by
  simp only [atLimit_addSat]
  rw [Bool.eq_iff_iff]
  simp only [Bool.or_eq_true, atLimit, decide_eq_true_eq, max32, wearLimit] at hw ⊢
  cases hk : kind.continuous <;> simp only [Kind.share, hk, if_true, Bool.false_eq_true, if_false] <;> omega

/-- The new component of Confirm Change, figure by figure (R73). -/
theorem confirmed_eq (c : Component) (successor : Serial) (events time units clock : Nat) (marks : Vector Nat 4)
    {pool : Pool} (hp : pool = (c.hold.map (·.pool)).getD {}) {wear : Nat × Nat × Bool}
    (hw : wear = addWear units pool.residue (16000 * pool.units)) :
    c.confirmed successor events time units clock marks =
      { kind := c.kind, identity := some successor, verification := .verified, query := c.query, hold := none
        installClock := clock
        events := min 4294967295 (events + pool.events)
        time := min 4294967295 (time + pool.time)
        units := wear.1
        residue := wear.2.1
        unbinned :=
          if c.kind.continuous then min 4294967295 (time + pool.time) else min 4294967295 (events + pool.events)
        saturated :=
          decide (4294967295 ≤ events + pool.events) || decide (4294967295 ≤ time + pool.time) ||
            decide (4294967295 ≤ pool.unobserved) || decide (99999999 ≤ wear.1)
        unobserved := min 4294967295 pool.unobserved
        reference := none, regressed := false, uncertain := 0, failedStarts := 0, abuse := marks
        cells := Vector.replicate 64 0, generation := 0, silent := 0 } := by
  have saturated := confirmed_saturated c.kind (events := events) (time := time) (pool := pool)
    (by rw [hw]; exact addWear_limit pool.residue (16000 * pool.units) : wearLimit ≤ units → wearLimit ≤ wear.1)
  have unbinned : addSat max32 (c.kind.share events time) (c.kind.share pool.events pool.time) =
      if c.kind.continuous then min 4294967295 (time + pool.time) else min 4294967295 (events + pool.events) := by
    unfold Kind.share
    split <;> rfl
  have unobserved : addSat max32 0 pool.unobserved = min 4294967295 pool.unobserved := by simp [addSat]
  rw [← saturated, ← unbinned, ← unobserved]
  simp only [Component.confirmed, Component.mergePool, Component.starting, Component.anyLimit, Nat.zero_add, ← hp, ← hw]
  rfl

/-- The part with its next archive number given. -/
def Part.numbered (p : Part) (next : Nat) : Part := { p with register := { p.register with nextArchive := next } }

section
variable {record : ArchiveRecord} {p : Part} (events time units : Nat) (marks : Vector Nat 4)

/-- The end of Remove's write (R64, R65). -/
theorem completeComponent_removed (hc : record.cause = .removed) :
    completeComponent record events time units marks p =
      requestFull .archive none (respond .service ([0x14, 0x00] ++ beBytes 4 record.number)
        ((emptySlot record.slot p).numbered (record.number + 1))) := by
  simp only [completeComponent, hc]
  rfl

/-- The end of Confirm Change's write (R65, R73). -/
theorem completeComponent_changed {c : Component} (hc : record.cause = .changed) (hs : p.slot record.slot = some c) :
    completeComponent record events time units marks p =
      requestFull .archive none (respond .service ([0x15, 0x00] ++ beBytes 4 record.number)
        ((setRunning record.slot false (p.setSlot record.slot
          (some (c.confirmed record.successor events time units p.modeCtl.clock marks)))).numbered (record.number + 1))) := by
  simp only [completeComponent, hc, hs]
  rfl

end

theorem emptySlot_unqueued (n : Nat) (p : Part) :
    n ∉ (emptySlot n p).register.pollQueue ∧ ∀ h, (emptySlot n p).register.inHand = some h → h.slot ≠ n := by
  refine ⟨by simp [emptySlot], fun h inHand => ?_⟩
  have kept : (if p.register.inHand.any (·.slot == n) then none else p.register.inHand) = some h := inHand
  split at kept
  · exact absurd kept nofun
  · rename_i other
    rw [kept] at other
    simpa using other

/-! ## Hire records (R108, R109) -/

/-- A closed hire's number joins the queue; a ninth drops the head (R109). -/
theorem append_eq (h : Hire) (number : Nat) :
    h.append number =
      { h with
        queue := (if decide (8 ≤ h.queue.length) then h.queue.drop 1 else h.queue) ++ [number]
        dropped := h.dropped || decide (8 ≤ h.queue.length) } := by
  unfold Hire.append
  by_cases full : 8 ≤ h.queue.length <;> simp [full]

theorem completeHire_eq {p : Part} {h : HireRecord} (hc : p.hire.closing = some h) (ch : Channel) :
    completeHire ch p =
      requestFull .archive none (respond ch ([0x21, 0x00] ++ beBytes 4 h.number)
        { p with hire := { p.hire.append h.number with newest := h.number, closing := none } }) := by
  simp only [completeHire, hc]

theorem reopenHire_eq {p : Part} {h : HireRecord} (hc : p.hire.closing = some h) (ch : Channel) :
    reopenHire ch p =
      respond ch [0x21, 0x28]
        { p with hire := { p.hire with current := some { h with close := none }, closing := none } } := by
  simp only [reopenHire, hc]

/-! ## What the ends leave to port A, port B and the readers -/

@[simp] theorem verified_placedFrames (p : Part) : p.verified.placedFrames = p.placedFrames := rfl
@[simp] theorem verified_readers (p : Part) : p.verified.storage.readers = p.storage.readers := rfl
@[simp] theorem failed_placedFrames (p : Part) : p.failed.placedFrames = p.placedFrames := rfl
@[simp] theorem failed_readers (p : Part) : p.failed.storage.readers = p.storage.readers := rfl
@[simp] theorem archiveOver_placedFrames (rest : List ArchiveJob) (p : Part) :
    (p.archiveOver rest).placedFrames = p.placedFrames := rfl
@[simp] theorem archiveOver_readers (rest : List ArchiveJob) (p : Part) :
    (p.archiveOver rest).storage.readers = p.storage.readers := rfl
@[simp] theorem numbered_placedFrames (next : Nat) (p : Part) : (p.numbered next).placedFrames = p.placedFrames := rfl
@[simp] theorem numbered_storage (next : Nat) (p : Part) : (p.numbered next).storage = p.storage := rfl
@[simp] theorem emptySlot_placedFrames (n : Nat) (p : Part) : (emptySlot n p).placedFrames = p.placedFrames := rfl
@[simp] theorem emptySlot_storage (n : Nat) (p : Part) : (emptySlot n p).storage = p.storage := rfl
@[simp] theorem setRunning_placedFrames (n : Nat) (b : Bool) (p : Part) :
    (setRunning n b p).placedFrames = p.placedFrames := rfl
@[simp] theorem setRunning_storage (n : Nat) (b : Bool) (p : Part) : (setRunning n b p).storage = p.storage := rfl
@[simp] theorem setSlot_placedFrames (n : Nat) (c : Option Component) (p : Part) :
    (p.setSlot n c).placedFrames = p.placedFrames := rfl
@[simp] theorem setSlot_storage (n : Nat) (c : Option Component) (p : Part) : (p.setSlot n c).storage = p.storage := rfl

/-! ## The whole -/

section
variable {s : State} {t : Transaction} {job : ArchiveJob} {rest : List ArchiveJob} (hw : Writing s t .archive)
  (hj : s.part.storage.archive = job :: rest) {p : Part} {also : Part → Prop}
include hw hj

/-- The verified last page of the archive job at the head completes the job. -/
theorem stores_archived (hl : job.pages ≤ s.part.storage.archivePage + 1) {q : Part}
    (hq : completeArchive job (s.part.verified.archiveOver rest) = q) (hlast : q.lasting = p.lasting)
    (h : ∀ m, also (settle m q)) : Stores (.pageWriteComplete true) s (s.medium.written t) p also := by
  obtain ⟨-, bus, write, page, owner⟩ := hw
  have ends : writeVerified t.owner s.part.verified = q := by
    rw [owner, ← hq]
    exact archiveVerified_last (p := s.part.verified) hj hl
  exact stores_verified bus write page (by rw [ends]; exact hlast) (by rw [ends]; exact h _)

/-- A job whose end is a response and a full checkpoint (R65, R108). -/
theorem stores_archive_answered (hl : job.pages ≤ s.part.storage.archivePage + 1) {q : Part} {ch : Channel}
    {msg : List Byte} (hc : s.part.clearFor ch)
    (hq : completeArchive job (s.part.verified.archiveOver rest) = requestFull .archive none (respond ch msg q))
    (hlast : q.lasting = p.lasting) (hf : q.placedFrames = s.part.placedFrames)
    (hr : q.storage.readers = s.part.storage.readers)
    (h : ∀ m, (settle m (requestFull .archive none (respond ch msg q))).responds ch msg →
      also (settle m (requestFull .archive none (respond ch msg q)))) :
    Stores (.pageWriteComplete true) s (s.medium.written t) p fun u => u.checkpointing = true ∧ also u :=
  stores_archived hw hj hl hq (((lasting_requestFull _ _ _).trans (lasting_respond _ _ _)).trans hlast) fun m =>
    let ⟨asked, responds⟩ := settle_respond_requestFull m hc .archive hf hr
    ⟨asked, h m responds⟩

/-- A page of the archive job at the head that fails twice ends the job with a response. -/
theorem stores_archive_failed (h2 : 2 ≤ t.attempt) {q : Part} {ch : Channel} {msg : List Byte} (hc : s.part.clearFor ch)
    (hq : failArchive job (s.part.failed.archiveOver rest) = respond ch msg q) (hlast : q.lasting = p.lasting)
    (hf : q.placedFrames = s.part.placedFrames) (hr : q.storage.readers = s.part.storage.readers) :
    StoresFailed s t p fun u => u.responds ch msg := by
  obtain ⟨-, bus, write, page, owner⟩ := hw
  have ends : writeFailed t.owner s.part.failed = respond ch msg q := by
    rw [owner, ← hq]
    exact archiveFailed_eq (p := s.part.failed) hj
  exact stores_failed bus write h2 page (by rw [ends]; exact (lasting_respond _ _ _).trans hlast)
    (by rw [ends]; exact settle_respond _ hc hf hr)

end

/-- A removed slot is out of the queue and out of hand when the part has settled (R64). -/
theorem removed_unqueued (m : Medium) (n k : Nat) (msg : List Byte) (p : Part) :
    let u := settle m (requestFull .archive none (respond .service msg ((emptySlot n p).numbered k)))
    n ∉ u.register.pollQueue ∧ ∀ h, u.register.inHand = some h → h.slot ≠ n := by
  obtain ⟨queue, inHand⟩ := emptySlot_unqueued n p
  refine settle_unqueued m ?_ ?_
  · rw [requestFull_register, respond_register]
    exact queue
  · rw [requestFull_register, respond_register]
    exact inHand

/-- Settles O53: `archiveVerified` and `archiveFailed` at each job's end. -/
theorem archiveWritesEnd : Obligations.ArchiveWritesEnd := by
  intro s t job rest writing head ended p q done
  refine ⟨fun more => ?_, ?_, ?_, ?_⟩
  · obtain ⟨-, bus, write, page, owner⟩ := writing
    refine stores_verified bus write page ?_ trivial
    rw [owner]
    exact (congrArg Part.lasting (archiveVerified_next (p := s.part.verified) head more)).trans rfl
  · intro record events time units marks isJob clear n code register answer
    subst isJob
    have codeIs : code = record.cause.code := (code_eq _).symm
    refine ⟨fun last removed => ?_, fun c last changed held => ?_, fun h2 => ?_⟩
    · have code14 : code = 0x14 := if_pos removed
      dsimp only [answer, done]
      rw [code14]
      exact stores_archive_answered writing head last clear (completeComponent_removed events time units marks removed)
        rfl (by simp) (by simp) fun m responds => ⟨responds, removed_unqueued m _ _ _ _⟩
    · intro pool wear new
      have code15 : code = 0x15 := by rw [codeIs, changed]; rfl
      have built : c.confirmed record.successor events time units p.modeCtl.clock marks = new :=
        confirmed_eq c record.successor events time units p.modeCtl.clock marks rfl rfl
      dsimp only [answer, done]
      rw [code15, ← built]
      exact stores_archive_answered writing head last clear
        (completeComponent_changed events time units marks changed held) rfl (by simp) (by simp) fun _ responds => responds
    · rw [codeIs]
      exact stores_archive_failed writing head h2 clear rfl rfl (by simp) (by simp)
  · intro ch h isJob closing clear
    subst isJob
    refine ⟨fun last => ?_, fun h2 => ?_⟩
    · refine stores_archive_answered writing head last clear
        (completeHire_eq (p := s.part.verified.archiveOver rest) closing ch) ?_ rfl rfl fun _ responds => responds
      rw [append_eq]
      rfl
    · exact stores_archive_failed writing head h2 clear
        (reopenHire_eq (p := s.part.failed.archiveOver rest) closing ch) rfl rfl rfl
  · intro pages isJob
    subst isJob
    refine ⟨fun last => ?_, fun h2 clear => ?_⟩
    · exact stores_archived writing head last rfl (lasting_requestFull _ _ _) fun m =>
        ⟨settle_checkpointing m (requestFull_checkpointing _ _ _), settle_awaits m (requestFull_awaits _ _ _)⟩
    · exact stores_archive_failed writing head h2 clear rfl rfl (by simp) (by simp)

end Sys2Proof.Machine
end

section
/-! The items of the tables written and read back (R29, R30, R190, R192). -/

namespace Sys2Proof.Machine

/-! ## Fields of a byte string -/

section
variable {bs : List Byte} {o n : Nat}

theorem bytesAt_length (h : o + n ≤ bs.length) : (bytesAt bs o n).length = n := by
  simp [bytesAt]; omega

theorem bytesAt_all (h : bs.length = n) : bytesAt bs 0 n = bs := by
  simp [bytesAt, ← h]

/-- Two fields side by side are one field. -/
theorem bytesAt_append_bytesAt {k : Nat} (hk : k = o + n) (l : Nat) :
    bytesAt bs o n ++ bytesAt bs k l = bytesAt bs o (n + l) := by
  simp only [bytesAt, hk, ← List.drop_drop, List.take_add]

theorem natAt_lt (bs : List Byte) (o n : Nat) : natAt bs o n < 256 ^ n :=
  (ofBe_lt _).trans_le (Nat.pow_le_pow_right (by decide) (by simp [bytesAt]))

theorem beBytes_natAt (h : o + n ≤ bs.length) : beBytes n (natAt bs o n) = bytesAt bs o n := by
  have back := beBytes_ofBe (bytesAt bs o n)
  rwa [bytesAt_length h] at back

/-- The two's complement of the integer that bytes spell is those bytes. -/
theorem intBytes_ofBeSigned (bs : List Byte) : intBytes bs.length (ofBeSigned bs) = bs := by
  have mod : ofBeSigned bs % (256 ^ bs.length : Nat) = ofBe bs := by
    have small : (ofBe bs : Int) % (256 ^ bs.length : Nat) = ofBe bs :=
      Int.emod_eq_of_lt (by omega) (by exact_mod_cast ofBe_lt bs)
    unfold ofBeSigned
    dsimp only
    split
    · exact small
    · rw [Int.sub_emod_right, small]
  rw [intBytes, mod, Int.toNat_natCast, beBytes_ofBe]

theorem intBytes_intAt (h : o + n ≤ bs.length) : intBytes n (intAt bs o n) = bytesAt bs o n := by
  have back := intBytes_ofBeSigned (bytesAt bs o n)
  rwa [bytesAt_length h] at back

theorem byteAt_bytesAt (h : o + 1 ≤ bs.length) : [byteAt bs o] = bytesAt bs o 1 := by
  have inside : o < bs.length := h
  rw [bytesAt, List.drop_eq_getElem_cons inside, byteAt, List.getD_eq_getElem _ _ inside]
  rfl

/-- Fields of one width, each of which spells its bytes. -/
theorem flatMap_fields {w : Nat} {f : Nat → List Byte} (h : ∀ i, i < n → f i = bytesAt bs (o + w * i) w) :
    (List.range n).flatMap f = bytesAt bs o (w * n) := by
  induction n with
  | zero => simp [bytesAt]
  | succ n ih =>
    rw [List.range_succ, List.flatMap_append, ih fun i hi => h i (by omega), List.flatMap_singleton, h n (by omega),
      bytesAt_append_bytesAt rfl, Nat.mul_succ]

theorem toList_ofFn {α : Type} (n : Nat) (f : Nat → α) :
    (Vector.ofFn fun i : Fin n => f i).toList = (List.range n).map f := by
  rw [Vector.toList_ofFn]
  exact List.ofFn_eq_map.trans (by rw [← List.map_coe_finRange_eq_range, List.map_map]; rfl)

theorem encodeNats_natsAt {w : Nat} (h : o + w * n ≤ bs.length) :
    encodeNats w (natsAt bs o w n).toList = bytesAt bs o (w * n) := by
  rw [encodeNats, natsAt, toList_ofFn n fun i => natAt bs (o + w * i) w, List.flatMap_map]
  exact flatMap_fields fun i hi => beBytes_natAt (by nlinarith)

theorem encodeInts_intsAt {w : Nat} (h : o + w * n ≤ bs.length) :
    encodeInts w (intsAt bs o w n).toList = bytesAt bs o (w * n) := by
  rw [encodeInts, intsAt, toList_ofFn n fun i => intAt bs (o + w * i) w, List.flatMap_map]
  exact flatMap_fields fun i hi => intBytes_intAt (by nlinarith)

end

/-! ## Flag bytes (R190) -/

theorem foldr_testBit (n k : Nat) :
    ((List.range k).map n.testBit).foldr (fun b acc => 2 * acc + b.toNat) 0 = n % 2 ^ k := by
  induction k generalizing n with
  | zero => simp [Nat.mod_one]
  | succ k ih =>
    have rest : (List.range k).map (n.testBit ∘ Nat.succ) = (List.range k).map (n / 2).testBit :=
      List.map_congr_left fun i _ => Nat.testBit_succ n i
    rw [List.range_succ_eq_map, List.map_cons, List.map_map, List.foldr_cons, rest, ih, pow_succ', Nat.mod_mul,
      Nat.testBit_zero, Nat.add_comm]
    rcases Nat.mod_two_eq_zero_or_one n with even | odd
    · simp [even]
    · simp [odd]

/-- A flag byte without undefined bits is the flag byte of its bits. -/
theorem flagByte_bits {b : Byte} {k : Nat} (h : flagsOk b k = true) :
    flagByte ((List.range k).map fun i => b.getLsbD i) = b := by
  have whole : b.toNat % 2 ^ k = b.toNat := Nat.mod_eq_of_lt (of_decide_eq_true h)
  have bits := foldr_testBit b.toNat k
  rw [whole] at bits
  exact (congrArg (BitVec.ofNat 8) bits).trans (by simp)

/-! ## The checks on an item (R29) -/

theorem require_bind {α : Type} {ok : Bool} {index : Nat} {f : Unit → Except Nat α} {x : α} :
    (require ok index >>= f) = .ok x ↔ ok = true ∧ f () = .ok x := by
  cases ok <;> simp [require, bind, Except.bind]

/-! ## Each table's items -/

theorem identLimit_lt (f : Format) : identLimit f < 2 ^ 29 := by
  cases f <;> decide

theorem port_bit (b : Bool) : ((if b = true then PortId.b else PortId.a) == .b) = b := by
  cases b <;> rfl

theorem isExtended_formatOfBool (b : Bool) : isExtended (formatOfBool b) = b := by
  cases b <;> rfl

theorem encodeFrameEntry_read {bs : List Byte} {e : FrameEntry} (hl : bs.length = 7)
    (h : readFrameEntry bs = .ok (some e)) : encodeFrameEntry (some e) = bs := by
  unfold readFrameEntry at h
  rw [require_bind] at h
  obtain ⟨flags, h⟩ := h
  split at h
  · exact absurd h nofun
  · rename_i present
    simp only [require_bind, pure, Except.pure] at h
    obtain ⟨ident, -, h⟩ := h
    obtain rfl := Option.some.inj (Except.ok.inj h)
    have bits : [true, (if (byteAt bs 0).getLsbD 1 = true then PortId.b else PortId.a) == .b,
        isExtended (formatOfBool ((byteAt bs 0).getLsbD 2)), (byteAt bs 0).getLsbD 3] =
        (List.range 4).map fun i => (byteAt bs 0).getLsbD i := by
      have first : (byteAt bs 0).getLsbD 0 = true := by simpa using present
      rw [port_bit, isExtended_formatOfBool]
      exact congrArg (· :: _) first.symm
    have fits : (BitVec.ofNat 29 (natAt bs 1 4)).toNat = natAt bs 1 4 :=
      BitVec.toNat_ofNat _ _ ▸ Nat.mod_eq_of_lt ((of_decide_eq_true ident).trans_lt (identLimit_lt _))
    rw [encodeFrameEntry, bits, flagByte_bits flags, fits, byteAt_bytesAt (by omega), beBytes_natAt (by omega),
      beBytes_natAt (by omega), bytesAt_append_bytesAt rfl, bytesAt_append_bytesAt rfl, bytesAt_all hl]

theorem encodeRoleEntry_read {bs : List Byte} {e : RoleEntry} (hl : bs.length = 2)
    (h : readRoleEntry bs = .ok e) : encodeRoleEntry e = bs := by
  simp only [readRoleEntry, require_bind, pure, Except.pure] at h
  obtain ⟨-, -, h⟩ := h
  obtain rfl := Except.ok.inj h
  have index : ∀ b : Byte, encodeIndex (readIndex b) = [b] := fun b => by
    unfold readIndex
    split
    · rename_i absent
      rw [absent]
      rfl
    · simp [encodeIndex, beBytes]
  rw [encodeRoleEntry, index, index, byteAt_bytesAt (by omega), byteAt_bytesAt (by omega), bytesAt_append_bytesAt rfl,
    bytesAt_all hl]

theorem encodeBinRow_read {bs : List Byte} {r : BinRow} (hl : bs.length = 68)
    (h : readBinRow bs = .ok r) : encodeBinRow r = bs := by
  obtain rfl := Except.ok.inj h
  rw [encodeBinRow, encodeInts_intsAt (by omega), encodeInts_intsAt (by omega), encodeInts_intsAt (by omega),
    bytesAt_append_bytesAt rfl, bytesAt_append_bytesAt rfl, bytesAt_all hl]

theorem encodeWeightRow_read {bs : List Byte} {r : WeightRow} (hl : bs.length = 132)
    (h : readWeightRow bs = .ok r) : encodeWeightRow r = bs := by
  unfold readWeightRow at h
  dsimp only at h
  split at h
  · exact absurd h nofun
  · split at h
    · exact absurd h nofun
    · obtain rfl := Except.ok.inj h
      rw [encodeWeightRow, encodeNats_natsAt (by omega), encodeNats_natsAt (by omega), bytesAt_append_bytesAt rfl,
        bytesAt_all hl]

theorem beBytes_readRatio {bs : List Byte} {r : Nat} (hl : bs.length = 2) (h : readRatio bs = .ok r) :
    beBytes 2 r = bs := by
  simp only [readRatio, require_bind, pure, Except.pure] at h
  obtain ⟨-, h⟩ := h
  obtain rfl := Except.ok.inj h
  rw [beBytes_natAt (by omega), bytesAt_all hl]

theorem encodeAbuseCapture_read {bs : List Byte} (hl : bs.length = 5) (hf : flagsOk (byteAt bs 0) 2 = true) :
    encodeAbuseCapture (readAbuseCapture bs) = bs := by
  have flags : flagByte [(byteAt bs 0).getLsbD 0, (byteAt bs 0).getLsbD 1] = byteAt bs 0 := flagByte_bits hf
  rw [encodeAbuseCapture, readAbuseCapture, flags, byteAt_bytesAt (by omega), beBytes_natAt (by omega),
    beBytes_natAt (by omega), bytesAt_append_bytesAt rfl, bytesAt_append_bytesAt rfl, bytesAt_all hl]

theorem bytesAt_bytesAt {bs : List Byte} {o n k l : Nat} (h : k + l ≤ n) :
    bytesAt (bytesAt bs o n) k l = bytesAt bs (o + k) l := by
  simp only [bytesAt, List.drop_take, List.drop_drop, List.take_take]
  congr 1
  omega

theorem abuse_read {bs : List Byte} (hl : bs.length = 55)
    (hf : ∀ o ∈ [30, 35, 40, 45], flagsOk (byteAt (bytesAt bs o 5) 0) 2 = true) :
    (Vector.ofFn fun i : Fin 4 => readAbuseCapture (bytesAt bs (30 + 5 * i) 5)).toList.flatMap encodeAbuseCapture =
      bytesAt bs 30 20 := by
  rw [toList_ofFn 4 fun i => readAbuseCapture (bytesAt bs (30 + 5 * i) 5), List.flatMap_map]
  exact flatMap_fields fun i hi => encodeAbuseCapture_read (bytesAt_length (by omega)) (hf _ (by simp; omega))

theorem encodeLimits_read {bs : List Byte} {l : Limits} (hl : bs.length = 55)
    (h : readLimits bs = .ok l) : encodeLimits l = bs := by
  simp only [readLimits, requireAbuse, bind_assoc, require_bind] at h
  obtain ⟨-, -, -, -, -, -, -, -, -, -, -, -, -, -, -, -, -, -, flags0, -, -, flags1, -, -, flags2, -, -, flags3, -, -,
    capt, -, -, h⟩ := h
  obtain rfl := Except.ok.inj h
  have abuse := abuse_read hl (by simp only [List.forall_mem_cons, flags0, flags1, flags2, flags3]; simp)
  have yes : yesNo ((byteAt bs 50).getLsbD 0) = bytesAt bs 50 1 := by
    rw [← byteAt_bytesAt (by omega), yesNo]
    exact congrArg (fun b => [b]) (flagByte_bits capt)
  have field : ∀ {o n}, o + n ≤ 55 → beBytes n (natAt bs o n) = bytesAt bs o n :=
    fun inside => beBytes_natAt (hl ▸ inside)
  have coolant : intBytes 1 (intAt bs 18 1) = bytesAt bs 18 1 := intBytes_intAt (by omega)
  -- `delta`, as Lean is slow to form the equation of so long a definition
  delta encodeLimits
  simp only [abuse, yes, coolant, field, bytesAt_append_bytesAt, Nat.reduceAdd, Nat.reduceLeDiff]
  exact bytesAt_all hl

/-! ## Signal entries (R8, log 27) -/

/-- The bytes before an offset are those of what stands before it. -/
theorem bytesAt_prefix {bs rest : List Byte} {k o n : Nat} (hk : k ≤ bs.length) (h : o + n ≤ k) :
    bytesAt (bytesAt bs 0 k ++ rest) o n = bytesAt bs o n := by
  have front : (bytesAt bs 0 k).length = k := bytesAt_length (by omega)
  have inside : o + n ≤ (bytesAt bs 0 k).length := by omega
  have skipped : o ≤ (bytesAt bs 0 k).length := by omega
  have same := bytesAt_bytesAt (bs := bs) (o := 0) h
  rw [Nat.zero_add] at same
  rw [← same]
  generalize bytesAt bs 0 k = kept at *
  rw [bytesAt, List.drop_append_of_le_length skipped, List.take_append_of_le_length (by simp; omega)]
  rfl

/-- A field that stands behind a front of its offset's length. -/
theorem bytesAt_behind {front field rest : List Byte} {o n : Nat} (ho : front.length = o) (hn : field.length = n) :
    bytesAt (front ++ field ++ rest) o n = field := by
  rw [List.append_assoc, bytesAt, List.drop_left' ho, List.take_left' hn]

/-- A byte is known by any field that starts with it. -/
theorem byteAt_of_bytesAt {bs field : List Byte} {o n : Nat} (hn : 1 ≤ n) (hl : o + n ≤ bs.length)
    (h : bytesAt bs o n = field) : byteAt bs o = byteAt field 0 := by
  have length : field.length = n := h ▸ bytesAt_length hl
  refine List.singleton_inj.mp ?_
  rw [byteAt_bytesAt (by omega), byteAt_bytesAt (by omega), ← h, bytesAt_bytesAt (by omega), Nat.add_zero]

theorem encodeSigned5_length (v : Int) : (encodeSigned5 v).length = 5 := by
  simp [encodeSigned5, beBytes_length]

theorem flagsOk_encodeSigned5 (v : Int) : flagsOk (byteAt (encodeSigned5 v) 0) 1 = true := by
  unfold encodeSigned5
  split <;> rfl

theorem readSigned5_encodeSigned5 {v : Int} (h : v.natAbs < 256 ^ 4) : readSigned5 (encodeSigned5 v) = v := by
  have magnitude : natAt (encodeSigned5 v) 1 4 = v.natAbs := by
    have field := natAt_append (beBytes 1 (if v < 0 then 1 else 0)) (beBytes 4 v.natAbs) 0 4
    rw [beBytes_length] at field
    have front := natAt_zero 4 v.natAbs []
    rw [List.append_nil, Nat.mod_eq_of_lt h] at front
    exact field.trans front
  have sign : byteAt (encodeSigned5 v) 0 = if v < 0 then 1 else 0 := by
    unfold encodeSigned5
    split <;> rfl
  rw [readSigned5, magnitude, sign]
  split
  · rw [if_pos rfl]
    omega
  · rw [if_neg (by decide)]
    omega

theorem natAbs_readSigned5 (bs : List Byte) : (readSigned5 bs).natAbs < 256 ^ 4 := by
  have magnitude := natAt_lt bs 1 4
  unfold readSigned5
  split <;> simpa using magnitude

/-- The bytes of a Signal Table entry before its plausible limits. -/
theorem signal_front {bs : List Byte} (hl : bs.length = 21) (hp : (byteAt bs 0).getLsbD 0 = true)
    (hf : flagsOk (byteAt bs 0) 3 = true) :
    [flagByte [true, (byteAt bs 0).getLsbD 1, (byteAt bs 0).getLsbD 2]] ++ beBytes 1 (natAt bs 1 1) ++
        beBytes 1 (natAt bs 2 1) ++ beBytes 1 (natAt bs 3 1) ++ beBytes 2 (natAt bs 4 2) ++ beBytes 1 (natAt bs 6 1) ++
        intBytes 4 (intAt bs 7 4) =
      bytesAt bs 0 11 := by
  have flags : flagByte [true, (byteAt bs 0).getLsbD 1, (byteAt bs 0).getLsbD 2] = byteAt bs 0 := by
    rw [← hp]
    exact flagByte_bits hf
  have field : ∀ {o n}, o + n ≤ 21 → beBytes n (natAt bs o n) = bytesAt bs o n :=
    fun inside => beBytes_natAt (hl ▸ inside)
  rw [flags, byteAt_bytesAt (by omega), intBytes_intAt (by omega)]
  simp only [field, bytesAt_append_bytesAt, Nat.reduceAdd, Nat.reduceLeDiff]

/-- A Signal Table entry depends on the bytes of its plausible limits only by what they read as. -/
theorem readSignalEntry_congr {bs bs' low high : List Byte} (hl : bs.length = 21) (hlow : low.length = 5)
    (hhigh : high.length = 5) (hbs : bs' = bytesAt bs 0 11 ++ low ++ high)
    (h9 : flagsOk (byteAt bs 11) 1 = true) (h9' : flagsOk (byteAt low 0) 1 = true)
    (h10 : flagsOk (byteAt bs 16) 1 = true) (h10' : flagsOk (byteAt high 0) 1 = true)
    (hmin : readSigned5 low = readSigned5 (bytesAt bs 11 5)) (hmax : readSigned5 high = readSigned5 (bytesAt bs 16 5)) :
    readSignalEntry bs' = readSignalEntry bs := by
  have front : (bytesAt bs 0 11).length = 11 := bytesAt_length (by omega)
  have length : bs'.length = 21 := by simp [hbs, front, hlow, hhigh]
  have kept : ∀ {o n}, o + n ≤ 11 → bytesAt bs' o n = bytesAt bs o n := fun inside => by
    rw [hbs, List.append_assoc]
    exact bytesAt_prefix (by omega) inside
  have nat : ∀ {o n}, o + n ≤ 11 → natAt bs' o n = natAt bs o n := fun inside => congrArg ofBe (kept inside)
  have offset : intAt bs' 7 4 = intAt bs 7 4 := congrArg ofBeSigned (kept (by omega))
  have first : byteAt bs' 0 = byteAt bs 0 := by
    refine List.singleton_inj.mp ?_
    rw [byteAt_bytesAt (by omega), byteAt_bytesAt (by omega), kept (by omega)]
  have lows : bytesAt bs' 11 5 = low := by rw [hbs, bytesAt_behind front hlow]
  have highs : bytesAt bs' 16 5 = high := by
    have behind := bytesAt_behind (front := bytesAt bs 0 11 ++ low) (field := high) (rest := [])
      (by rw [List.length_append, front, hlow]) hhigh
    rwa [List.append_nil, ← hbs] at behind
  have sign9 := byteAt_of_bytesAt (by omega) (by omega) lows
  have sign10 := byteAt_of_bytesAt (by omega) (by omega) highs
  simp only [readSignalEntry, nat, offset, first, sign9, sign10, lows, highs, h9, h9', h10, h10', hmin, hmax,
    Nat.reduceAdd, Nat.reduceLeDiff]

theorem encodeSignalEntry_read {bs : List Byte} {e : SignalEntry} (hl : bs.length = 21)
    (h : readSignalEntry bs = .ok (some e)) :
    (encodeSignalEntry (some e)).length = 21 ∧ readSignalEntry (encodeSignalEntry (some e)) = .ok (some e) := by
  have given := h
  unfold readSignalEntry at h
  rw [require_bind] at h
  obtain ⟨flags, h⟩ := h
  split at h
  · exact absurd h nofun
  · rename_i present
    have first : (byteAt bs 0).getLsbD 0 = true := by simpa using present
    simp only [require_bind, pure, Except.pure] at h
    obtain ⟨-, -, -, -, -, low, high, h⟩ := h
    have built := Option.some.inj (Except.ok.inj h)
    have bytes : encodeSignalEntry (some e) =
        bytesAt bs 0 11 ++ encodeSigned5 (readSigned5 (bytesAt bs 11 5)) ++
          encodeSigned5 (readSigned5 (bytesAt bs 16 5)) := by
      rw [← built, encodeSignalEntry, signal_front hl first flags]
    have front : (bytesAt bs 0 11).length = 11 := bytesAt_length (by omega)
    refine ⟨by simp [bytes, front, encodeSigned5_length], ?_⟩
    rw [readSignalEntry_congr hl (encodeSigned5_length _) (encodeSigned5_length _) bytes low (flagsOk_encodeSigned5 _) high
      (flagsOk_encodeSigned5 _) (readSigned5_encodeSigned5 (natAbs_readSigned5 _))
      (readSigned5_encodeSigned5 (natAbs_readSigned5 _)), given]

/-! ## Items in the set (R30) -/

section
variable {α : Type} {read : List Byte → Except Nat α} {encode : α → List Byte} {put : TableSet → α → TableSet}
  {get : TableSet → List Byte} {t u : TableSet} {bytes : List Byte} {n : Nat}
  (hget : ∀ e, get (put t e) = encode e) (hput : ∀ e, put (put t e) e = put t e)
  (h : (read bytes).map (put t) = .ok u)
include hget hput h

/-- An item whose encoding reads as the item is written back without a change. -/
theorem item_readsBack (hread : ∀ e, read bytes = .ok e → (encode e).length = n ∧ read (encode e) = .ok e) :
    (get u).length = n ∧ (read (get u)).map (put u) = .ok u := by
  cases item : read bytes with
  | error i => exact absurd (item ▸ h) nofun
  | ok e =>
    obtain ⟨length, back⟩ := hread e item
    rw [item] at h
    obtain rfl : put t e = u := Except.ok.inj h
    rw [hget, back]
    exact ⟨length, congrArg Except.ok (hput e)⟩

/-- An item whose encoding is the bytes it was read from is written back without a change. -/
theorem item_readsBack_exactly (hn : bytes.length = n) (hread : ∀ e, read bytes = .ok e → encode e = bytes) :
    (get u).length = n ∧ (read (get u)).map (put u) = .ok u ∧ get u = bytes := by
  obtain ⟨length, back⟩ := item_readsBack hget hput h (n := n) fun e item =>
    have same := hread e item
    ⟨same ▸ hn, same ▸ item⟩
  refine ⟨length, back, ?_⟩
  cases item : read bytes with
  | error i => exact absurd (item ▸ h) nofun
  | ok e =>
    rw [item] at h
    obtain rfl : put t e = u := Except.ok.inj h
    rw [hget, hread e item]

end

theorem encodeFrameEntry_readsBack {bs : List Byte} (hl : bs.length = 7) (e : Option FrameEntry)
    (h : readFrameEntry bs = .ok e) :
    (encodeFrameEntry e).length = 7 ∧ readFrameEntry (encodeFrameEntry e) = .ok e := by
  cases e with
  | none => exact ⟨rfl, rfl⟩
  | some e => exact encodeFrameEntry_read hl h ▸ ⟨hl, h⟩

theorem encodeSignalEntry_readsBack {bs : List Byte} (hl : bs.length = 21) (e : Option SignalEntry)
    (h : readSignalEntry bs = .ok e) :
    (encodeSignalEntry e).length = 21 ∧ readSignalEntry (encodeSignalEntry e) = .ok e := by
  cases e with
  | none => exact ⟨rfl, rfl⟩
  | some e => exact encodeSignalEntry_read hl h

theorem row_get {α : Type} {k item : Nat} {v : Vector α k} {e : α} (inside : item < k) (shown : Option α → List Byte) :
    shown (v.setIfInBounds item e)[item]? = shown (some e) :=
  congrArg shown (Vector.getElem?_setIfInBounds_self_of_lt inside)

theorem row_put {α : Type} {k item : Nat} {v : Vector α k} {e : α} (store : Vector α k → TableSet) :
    store ((v.setIfInBounds item e).setIfInBounds item e) = store (v.setIfInBounds item e) :=
  congrArg store (Vector.setIfInBounds_setIfInBounds e)

section
variable {t u : TableSet} {item : Nat} {bytes : List Byte}

theorem frame_readsBack (inside : item < 64) (length : bytes.length = 7)
    (written : t.withItem 0 item bytes = .ok u) :
    (u.itemBytes 0 item).length = 7 ∧ u.withItem 0 item (u.itemBytes 0 item) = .ok u :=
  item_readsBack (read := readFrameEntry) (t := t) (get := (·.itemBytes 0 item))
    (put := fun t e => { t with frames := t.frames.setIfInBounds item e })
    (fun _ => row_get inside fun e => encodeFrameEntry e.join)
    (fun _ => row_put fun v => { t with frames := v }) written (encodeFrameEntry_readsBack length)

theorem signal_readsBack (inside : item < 48) (length : bytes.length = 21)
    (written : t.withItem 1 item bytes = .ok u) :
    (u.itemBytes 1 item).length = 21 ∧ u.withItem 1 item (u.itemBytes 1 item) = .ok u :=
  item_readsBack (read := readSignalEntry) (t := t) (get := (·.itemBytes 1 item))
    (put := fun t e => { t with signals := t.signals.setIfInBounds item e })
    (fun _ => row_get inside fun e => encodeSignalEntry e.join)
    (fun _ => row_put fun v => { t with signals := v }) written (encodeSignalEntry_readsBack length)

theorem role_readsBack (inside : item < 10) (length : bytes.length = 2)
    (written : t.withItem 2 item bytes = .ok u) :
    (u.itemBytes 2 item).length = 2 ∧ u.withItem 2 item (u.itemBytes 2 item) = .ok u ∧
      u.itemBytes 2 item = bytes :=
  item_readsBack_exactly (read := readRoleEntry) (t := t) (get := (·.itemBytes 2 item))
    (put := fun t e => { t with roles := t.roles.setIfInBounds item e })
    (fun _ => row_get inside fun e => encodeRoleEntry (e.getD {}))
    (fun _ => row_put fun v => { t with roles := v }) written length fun _ => encodeRoleEntry_read length

theorem bin_readsBack (inside : item < 8) (length : bytes.length = 68)
    (written : t.withItem 3 item bytes = .ok u) :
    (u.itemBytes 3 item).length = 68 ∧ u.withItem 3 item (u.itemBytes 3 item) = .ok u ∧
      u.itemBytes 3 item = bytes :=
  item_readsBack_exactly (read := readBinRow) (t := t) (get := (·.itemBytes 3 item))
    (put := fun t e => { t with bins := t.bins.setIfInBounds item e })
    (fun _ => row_get inside fun e => encodeBinRow (e.getD BinRow.empty))
    (fun _ => row_put fun v => { t with bins := v }) written length fun _ => encodeBinRow_read length

theorem weight_readsBack (inside : item < 8) (length : bytes.length = 132)
    (written : t.withItem 4 item bytes = .ok u) :
    (u.itemBytes 4 item).length = 132 ∧ u.withItem 4 item (u.itemBytes 4 item) = .ok u ∧
      u.itemBytes 4 item = bytes :=
  item_readsBack_exactly (read := readWeightRow) (t := t) (get := (·.itemBytes 4 item))
    (put := fun t e => { t with weights := t.weights.setIfInBounds item e })
    (fun _ => row_get inside fun e =>
      encodeWeightRow (e.getD { cells := Vector.replicate 64 0, factors := Vector.replicate 4 16 }))
    (fun _ => row_put fun v => { t with weights := v }) written length fun _ => encodeWeightRow_read length

theorem ratio_readsBack (inside : item < 19) (length : bytes.length = 2)
    (written : t.withItem 5 item bytes = .ok u) :
    (u.itemBytes 5 item).length = 2 ∧ u.withItem 5 item (u.itemBytes 5 item) = .ok u ∧
      u.itemBytes 5 item = bytes :=
  item_readsBack_exactly (read := readRatio) (t := t) (get := (·.itemBytes 5 item))
    (put := fun t e => { t with ratios := t.ratios.setIfInBounds item e })
    (fun _ => row_get inside fun e => beBytes 2 (e.getD 100))
    (fun _ => row_put fun v => { t with ratios := v }) written length fun _ => beBytes_readRatio length

theorem limits_readsBack (length : bytes.length = 55) (written : t.withItem 6 item bytes = .ok u) :
    (u.itemBytes 6 item).length = 55 ∧ u.withItem 6 item (u.itemBytes 6 item) = .ok u ∧ u.itemBytes 6 item = bytes :=
  item_readsBack_exactly (read := readLimits) (put := fun t l => { t with limits := l }) (t := t)
    (get := (·.itemBytes 6 item)) (fun _ => rfl)
    (fun _ => rfl) written length fun _ => encodeLimits_read length

end

/-- Settles O10: in tables 2 to 6 an item's encoding is the bytes it was read from; in tables 0 and 1, where an absent
entry's bytes and the sign of a limit of 0 are not kept, it reads as the same item. -/
theorem tableItemsReadBack : Obligations.TableItemsReadBack := by
  intro t u table item bytes inTables inside length written
  have low : ∀ {k : Nat} {P : Prop}, k < 2 → 2 ≤ k → P := fun h h' => absurd h' (Nat.not_le.mpr h)
  rcases (by omega : table = 0 ∨ table = 1 ∨ table = 2 ∨ table = 3 ∨ table = 4 ∨ table = 5 ∨ table = 6) with
    rfl | rfl | rfl | rfl | rfl | rfl | rfl
  · obtain ⟨same, back⟩ := frame_readsBack inside length written
    exact ⟨same, back, low (by decide)⟩
  · obtain ⟨same, back⟩ := signal_readsBack inside length written
    exact ⟨same, back, low (by decide)⟩
  · obtain ⟨same, back, kept⟩ := role_readsBack inside length written
    exact ⟨same, back, fun _ => kept⟩
  · obtain ⟨same, back, kept⟩ := bin_readsBack inside length written
    exact ⟨same, back, fun _ => kept⟩
  · obtain ⟨same, back, kept⟩ := weight_readsBack inside length written
    exact ⟨same, back, fun _ => kept⟩
  · obtain ⟨same, back, kept⟩ := ratio_readsBack inside length written
    exact ⟨same, back, fun _ => kept⟩
  · obtain ⟨same, back, kept⟩ := limits_readsBack length written
    exact ⟨same, back, fun _ => kept⟩

end Sys2Proof.Machine
end

section
/-! The restore's reading on from item to item, and its end (R33, R78, R109, R120, R151, R163 to R168). -/

namespace Sys2Proof.Machine

/-! ## A read that the restore goes on from (R153, R163) -/

/-- The part with its page read answered. -/
def Part.read (p : Part) : Part := p.setStorage { p.storage with bus := none }

theorem stored_continueRestore (s : State) (r : Restore) (p : Part) :
    s.stored s.medium (continueRestore r p) = { s with part := continueRestore r p } := by
  rw [State.stored, settle_of_not_live _ (live_of_restoring (r := r) rfl)]

section
variable {s : State} {r r' : Restore} {t : Transaction} (hs : Restoring s r t)
include hs

theorem exec_pageReadComplete_restore :
    exec .pageReadComplete s = .next (s.stored s.medium (restoreTook s.medium s.part.read)) := by
  obtain ⟨-, restore, bus, owner, write, page⟩ := hs
  have took : ∀ st : Storage, readTook s.medium t (s.part.setStorage st) = restoreTook s.medium (s.part.setStorage st) := by
    intro st
    simp only [readTook, owner]
  simp only [exec, execPageReadComplete, bus, write, Option.isSome_none, Bool.false_eq_true, if_false,
    Nat.not_le.mpr page, took]
  rfl

theorem exec_storageAnswerTimeout_restore (h2 : 2 ≤ t.attempt) :
    exec .storageAnswerTimeout s = .next (s.stored s.medium (restoreUnanswered s.medium s.part.failed)) := by
  obtain ⟨-, restore, bus, owner, write, page⟩ := hs
  have silent : ∀ st : Storage,
      readSilent s.medium t.owner (s.part.setStorage st) = restoreUnanswered s.medium (s.part.setStorage st) := by
    intro st
    simp only [readSilent, owner]
  simp only [exec, execStorageAnswerTimeout, failRead, bus, write, Option.isSome_none, Bool.false_eq_true, if_false,
    Nat.not_lt.mpr h2, silent]
  rfl

theorem readsOn_took {p : Part} (h : restoreTook s.medium s.part.read = continueRestore r' p) :
    ReadsOn .pageReadComplete s p r' := by
  have answered := exec_pageReadComplete_restore hs
  rw [h, stored_continueRestore] at answered
  exact answered

theorem readsOn_unanswered (h2 : 2 ≤ t.attempt) {p : Part}
    (h : restoreUnanswered s.medium s.part.failed = continueRestore r' p) :
    ReadsOn .storageAnswerTimeout s p r' := by
  have answered := exec_storageAnswerTimeout_restore hs h2
  rw [h, stored_continueRestore] at answered
  exact answered

theorem read_restore : s.part.read.restore = some r := hs.2.1

theorem failed_restore : s.part.failed.restore = some r := hs.2.1

end

/-! ## The table image (R33) -/

theorem restoreTook_image_last {m : Medium} {p : Part} {r : Restore} (hr : p.restore = some r) (hi : r.item = .image 31) :
    restoreTook m p = endImage m true r p := by
  simp [restoreTook, hr, hi]

theorem endImage_valid {m : Medium} (h : m.validAt 0 32 = true) (r : Restore) (p : Part) :
    endImage m true r p =
      continueRestore { r with item := .ringHeader 0, imageValid := true }
        { p with
          modeCtl := { p.modeCtl with
            active := readImage (m.pages 0 32), pendingSet := readImage (m.pages 0 32), passAll := false }
          link := { p.link with tableInvalid := false } } := by
  simp only [endImage, h, Bool.and_self, if_true, Bool.not_true]

theorem endImage_invalid {m : Medium} {answered : Bool} (h : (answered && m.validAt 0 32) = false) (r : Restore) (p : Part) :
    endImage m answered r p =
      continueRestore { r with item := .ringHeader 0, imageValid := false }
        { p with
          modeCtl := { p.modeCtl with active := TableSet.empty, pendingSet := TableSet.empty, passAll := true }
          link := { p.link with tableInvalid := true } } := by
  simp only [endImage, h, Bool.false_eq_true, if_false, Bool.not_false]

/-! ## The checkpoint scan (R163) -/

/-- The header that stands at a ring position, where its checkpoint fits the ring. -/
def Medium.headerAt (m : Medium) (w : Nat) : Option (Nat × Nat × Nat × Nat) :=
  if m.anySpoiled (ringPage w) 1 then none
  else (headerOf (m.page (ringPage w))).filter fun x => decide (w + x.2.2.1 ≤ ringPages)

section
variable {m : Medium} {p : Part} {r : Restore} (hr : p.restore = some r) {w : Nat} (hi : r.item = .ringHeader w)
include hr hi

theorem restoreTook_header {sequence kind count cause : Nat} (h : m.headerAt w = some (sequence, kind, count, cause)) :
    restoreTook m p = continueRestore { r with item := .ringBody w 1 count } p := by
  unfold Medium.headerAt at h
  split at h
  · exact absurd h nofun
  · rename_i sound
    obtain ⟨stands, fits⟩ := Option.filter_eq_some_iff.mp h
    simp only [restoreTook, hr, hi, if_neg sound, stands]
    exact if_pos (of_decide_eq_true fits)

theorem restoreTook_noHeader (h : m.headerAt w = none) : restoreTook m p = endPosition m w r p := by
  simp only [restoreTook, hr, hi]
  unfold Medium.headerAt at h
  split at h
  · rename_i spoiled
    exact if_pos spoiled
  · rename_i sound
    rw [if_neg sound]
    split
    · rename_i header
      have misfit := Option.filter_eq_none_iff.mp h _ header
      exact if_neg (by simpa using misfit)
    · rfl

end

theorem endPosition_next {m : Medium} {w : Nat} (h : w + 2 < 480) (r : Restore) (p : Part) :
    endPosition m w r p = continueRestore { r with item := .ringHeader (w + 2) } p := if_pos h

theorem endPosition_last {m : Medium} {w : Nat} (h : 480 ≤ w + 2) (r : Restore) (p : Part) :
    endPosition m w r p = continueRestore (endScan m r p).2 (endScan m r p).1 := if_neg (Nat.not_lt.mpr h)

/-- The fold that keeps the pair with the highest sequence ends with the one above all others. -/
theorem highest_fold {top : Nat × Nat} (l : List (Nat × Nat)) (b : Nat × Nat) (hm : top = b ∨ top ∈ l)
    (hb : b = top ∨ b.1 < top.1) (hl : ∀ x ∈ l, x = top ∨ x.1 < top.1) :
    l.foldl (fun best x =>
      match best with
      | some b => if b.1 < x.1 then some x else some b
      | none => some x) (some b) = some top := by
  induction l generalizing b with
  | nil => simp_all
  | cons x l ih =>
    obtain ⟨hx, rest⟩ := List.forall_mem_cons.mp hl
    rw [List.foldl_cons]
    dsimp only
    split
    · rename_i above
      exact ih x (by grind) hx rest
    · rename_i below
      exact ih b (by grind) hb rest

theorem highestOf_eq {found : List (Nat × Nat)} {top : Nat × Nat} (hm : top ∈ found)
    (h : ∀ x ∈ found, x = top ∨ x.1 < top.1) : highestOf found = some top := by
  cases found with
  | nil => exact absurd hm List.not_mem_nil
  | cons x rest =>
    obtain ⟨hx, below⟩ := List.forall_mem_cons.mp h
    exact highest_fold rest x (List.mem_cons.mp hm) hx below

theorem mem_insertBySequence (x y : Nat × Nat) (l : List (Nat × Nat)) : x ∈ insertBySequence y l ↔ x = y ∨ x ∈ l := by
  induction l with
  | nil => simp [insertBySequence]
  | cons z l ih =>
    unfold insertBySequence
    split
    · exact List.mem_cons
    · rw [List.mem_cons, ih, List.mem_cons]
      exact or_left_comm

theorem mem_sortBySequence (x : Nat × Nat) (l : List (Nat × Nat)) : x ∈ sortBySequence l ↔ x ∈ l := by
  induction l with
  | nil => exact Iff.rfl
  | cons y l ih =>
    rw [List.mem_cons, ← ih]
    exact mem_insertBySequence x y _

/-- The order of the scan's shorts. -/
def Ascends (x y : Nat × Nat) : Prop := x.1 < y.1

theorem insertBySequence_ascends {y : Nat × Nat} {l : List (Nat × Nat)} (hy : ∀ x ∈ l, y.1 ≠ x.1)
    (hl : l.Pairwise Ascends) : (insertBySequence y l).Pairwise Ascends := by
  induction l with
  | nil => exact List.pairwise_singleton _ _
  | cons z l ih =>
    obtain ⟨first, rest⟩ := List.pairwise_cons.mp hl
    obtain ⟨differs, others⟩ := List.forall_mem_cons.mp hy
    unfold insertBySequence
    split
    · rename_i below
      refine List.pairwise_cons.mpr ⟨List.forall_mem_cons.mpr ⟨below, fun x hx => ?_⟩, hl⟩
      exact Nat.lt_trans below (first x hx)
    · rename_i above
      refine List.pairwise_cons.mpr ⟨fun x hx => ?_, ih others rest⟩
      rcases (mem_insertBySequence x y l).mp hx with rfl | old
      · exact Nat.lt_of_le_of_ne (Nat.not_lt.mp above) differs.symm
      · exact first x old

theorem sortBySequence_ascends {l : List (Nat × Nat)} (h : l.Pairwise fun x y => x.1 ≠ y.1) :
    (sortBySequence l).Pairwise Ascends := by
  induction l with
  | nil => exact List.Pairwise.nil
  | cons y l ih =>
    obtain ⟨differs, rest⟩ := List.pairwise_cons.mp h
    exact insertBySequence_ascends (fun x hx => differs x ((mem_sortBySequence x l).mp hx)) (ih rest)

/-- Ascending lists with the same members are the same. -/
theorem eq_of_ascends {l l' : List (Nat × Nat)} (hl : l.Pairwise Ascends) (hl' : l'.Pairwise Ascends)
    (h : ∀ x, x ∈ l ↔ x ∈ l') : l = l' := by
  have distinct : ∀ {l : List (Nat × Nat)}, l.Pairwise Ascends → l.Nodup := fun ascends =>
    ascends.imp fun {x y} (below : x.1 < y.1) same => Nat.ne_of_lt below (congrArg Prod.fst same)
  refine List.Perm.eq_of_pairwise (le := Ascends) ?_ hl hl' ((List.perm_ext_iff_of_nodup (distinct hl) (distinct hl')).mpr h)
  intro a b _ _ above below
  exact absurd (Nat.lt_trans above below) (Nat.lt_irrefl _)

/-- The shorts above the full checkpoint, as the scan takes them. -/
theorem shorts_above {shorts above : List (Nat × Nat)} {sequence : Nat}
    (hd : shorts.Pairwise fun x y => x.1 ≠ y.1) (ha : above.Pairwise fun x y => x.1 < y.1)
    (hm : ∀ x, x ∈ above ↔ x ∈ shorts ∧ sequence < x.1) :
    (sortBySequence shorts).filter (fun x => decide (sequence < x.1)) = above :=
  eq_of_ascends ((sortBySequence_ascends hd).filter _) ha fun x => by
    rw [hm, List.mem_filter, mem_sortBySequence, decide_eq_true_iff]

theorem endScan_none {m : Medium} {r : Restore} (h : r.fulls = []) (p : Part) :
    endScan m r p =
      (p.setStorage { p.storage with
          nextSequence := (r.highest.map (·.1)).getD 0 + 1, writePosition := 0, newest := none },
        { r with item := .captureHeader 0 }) := by
  simp only [endScan, h]
  rfl

theorem endScan_some {m : Medium} {r : Restore} {sequence position : Nat} {above : List (Nat × Nat)}
    (hf : highestOf r.fulls = some (sequence, position))
    (ha : (sortBySequence r.shorts).filter (fun x => decide (sequence < x.1)) = above) (p : Part) :
    endScan m r p =
      let full := m.fullAt position
      let taken := takeShorts full.nextHire (above.map fun x => m.shortAt x.2) (takeSnapshot full r.imageValid p)
      (taken.1.setStorage { taken.1.storage with
          nextSequence := (r.highest.map (·.1)).getD 0 + 1
          writePosition := (r.highest.map (·.2)).getD 0
          newest := some (sequence, position)
          last := { taken := some sequence, shorts := above.length, folded := taken.2.2, recovered := 0 } },
        { r with
          item := .component 0, fullFound := true, fullIsRestart := m.causeAt position == 7
          recreate := taken.2.1, captures := full.captures }) := by
  simp only [endScan, hf, ha]
  rfl

section
variable {m : Medium} {p : Part} {r : Restore} (hr : p.restore = some r) {w page count : Nat}
  (hi : r.item = .ringBody w page count)
include hr hi

theorem restoreTook_body_next (h : page + 1 < count) :
    restoreTook m p = continueRestore { r with item := .ringBody w (page + 1) count } p := by
  simp only [restoreTook, hr, hi, h, if_true]

theorem restoreTook_body_last (h : count ≤ page + 1) : restoreTook m p = endCheckpoint m w r p := by
  simp only [restoreTook, hr, hi, Nat.not_lt.mpr h, if_false]

end

theorem endCheckpoint_none {m : Medium} {w : Nat} (h : m.checkpointAt w = none) (r : Restore) (p : Part) :
    endCheckpoint m w r p = endPosition m w r p := by
  simp only [endCheckpoint, h]

theorem endCheckpoint_some {m : Medium} {w sequence kind pages : Nat} (h : m.checkpointAt w = some (sequence, kind, pages))
    (r : Restore) (p : Part) :
    endCheckpoint m w r p =
      endPosition m w
        { r with
          fulls := if kind = 0 then r.fulls ++ [(sequence, w)] else r.fulls
          shorts := if kind = 1 then r.shorts ++ [(sequence, w)] else r.shorts
          highest :=
            match r.highest with
            | none => some (sequence, w + pages)
            | some h => if h.1 < sequence then some (sequence, w + pages) else some h } p := by
  have highest : (if r.highest.all fun h => decide (h.1 < sequence) then some (sequence, w + pages) else r.highest) =
      match r.highest with
      | none => some (sequence, w + pages)
      | some h => if h.1 < sequence then some (sequence, w + pages) else some h := by
    cases r.highest <;> simp
  simp only [endCheckpoint, h, highest]

/-! ## The archive checks (R78, R166) -/

section
variable {m : Medium} {p : Part} {r : Restore} (hr : p.restore = some r) {page : Nat}
include hr

theorem restoreTook_component_next (hi : r.item = .component page) (h : page + 1 < 4) :
    restoreTook m p = continueRestore { r with item := .component (page + 1) } p := by
  simp only [restoreTook, hr, hi, h, if_true]

theorem restoreTook_component_last (hi : r.item = .component page) (h : 4 ≤ page + 1) :
    restoreTook m p = endComponent m r p := by
  simp only [restoreTook, hr, hi, Nat.not_lt.mpr h, if_false]

theorem restoreTook_hire_next (hi : r.item = .hire page) (h : page + 1 < 4) :
    restoreTook m p = continueRestore { r with item := .hire (page + 1) } p := by
  simp only [restoreTook, hr, hi, h, if_true]

theorem restoreTook_hire_last (hi : r.item = .hire page) (h : 4 ≤ page + 1) :
    restoreTook m p = endHire m r p := by
  simp only [restoreTook, hr, hi, Nat.not_lt.mpr h, if_false]

end

section
variable {m : Medium} {p : Part} (r : Restore)

/-- A component page that is no record ends the check (R166). -/
theorem endComponent_invalid (h : m.validAt (componentPage p.register.nextArchive) 4 = false ∨
    readComponentRecord (m.pages (componentPage p.register.nextArchive) 4) = none) :
    endComponent m r p = continueRestore { r with item := .hire 0 } p := by
  unfold endComponent
  rcases h with invalid | unread
  · simp only [invalid, Bool.false_eq_true, if_false]
  · simp only [unread, ite_self]

variable {record : ArchiveRecord} (hv : m.validAt (componentPage p.register.nextArchive) 4 = true)
  (hrec : readComponentRecord (m.pages (componentPage p.register.nextArchive) 4) = some record)
include hv hrec

theorem endComponent_other (h : record.number ≠ p.register.nextArchive) :
    endComponent m r p = continueRestore { r with item := .hire 0 } p := by
  simp only [endComponent, hv, if_true, hrec, h, if_false]

theorem endComponent_expected (h : record.number = p.register.nextArchive) :
    endComponent m r p = continueRestore { r with item := .component 0 } (countRecovered (recoverComponent record p)) := by
  simp only [endComponent, hv, if_true, hrec, h]

end

section
variable {record : ArchiveRecord} {p : Part}

theorem recoverComponent_removed {c : Component} (hc : record.cause = .removed) (hs : p.slot record.slot = some c)
    (hk : c.kind = record.component.kind) (hid : c.identity = record.component.identity) :
    recoverComponent record p = (p.numbered (p.register.nextArchive + 1)).setSlot record.slot none := by
  unfold recoverComponent
  dsimp only
  split
  · rename_i c' removed held
    obtain rfl : c = c' := Option.some.inj (hs.symm.trans held)
    exact if_pos ⟨hk, hid⟩
  · rename_i other
    exact absurd hs (other c hc)

theorem recoverComponent_kept
    (h : record.cause = .changed ∨ p.slot record.slot = none ∨
      ∃ c, p.slot record.slot = some c ∧ (c.kind ≠ record.component.kind ∨ c.identity ≠ record.component.identity)) :
    recoverComponent record p = p.numbered (p.register.nextArchive + 1) := by
  unfold recoverComponent
  dsimp only
  split
  · rename_i c removed held
    have slot : p.slot record.slot = some c := held
    refine if_neg fun ⟨kind, identity⟩ => ?_
    rcases h with changed | empty | ⟨c', held', differs⟩
    · exact absurd (removed.symm.trans changed) (by decide)
    · exact absurd (slot.symm.trans empty) nofun
    · obtain rfl := Option.some.inj (slot.symm.trans held')
      exact differs.elim (· kind) (· identity)
  · rfl

end

section
variable {m : Medium} {p : Part} (r : Restore)

theorem endHire_other (h : m.validAt (hirePage (p.hire.newest + 1)) 4 = false ∨
    natAt (m.pages (hirePage (p.hire.newest + 1)) 4) 0 4 ≠ p.hire.newest + 1) :
    endHire m r p = continueRestore { r with item := .captureHeader 0 } p := by
  refine if_neg ?_
  rcases h with invalid | other
  · simp [invalid]
  · simp [other]

theorem endHire_expected (hv : m.validAt (hirePage (p.hire.newest + 1)) 4 = true)
    (hn : natAt (m.pages (hirePage (p.hire.newest + 1)) 4) 0 4 = p.hire.newest + 1) {done : Part × Restore}
    (hd : recoverHire (p.hire.newest + 1) r (countRecovered p) = done) :
    endHire m r p = continueRestore { done.2 with item := .hire 0 } done.1 :=
  hd ▸ if_pos (by simp [hv, hn])

end

section
variable {number : Nat} {r : Restore} {p : Part}

theorem recoverHire_open {h : HireRecord} (hc : p.hire.current = some h) (hn : h.number = number) :
    recoverHire number r p =
      ({ p with hire := { { p.hire with newest := number }.append number with current := none } }, r) :=
  if_pos (by simp [hc, hn])

theorem number_any {number : Nat} {α : Type} {f : α → Nat} {x : Option α} (h : ∀ y, x = some y → f y ≠ number) :
    (x.any fun y => f y == number) = false := by
  cases x with
  | none => rfl
  | some y => simpa using h y rfl

theorem recoverHire_recreate (hc : ∀ h, p.hire.current = some h → h.number ≠ number) {h : ShortHire}
    (hr : r.recreate = some h) (hn : h.number = number) :
    recoverHire number r p =
      ({ p with hire := { p.hire with newest := number }.append number }, { r with recreate := none }) := by
  have recreated : (r.recreate.any fun h => h.number == number) = true := by simp [hr, hn]
  exact (if_neg (by simp [number_any hc])).trans (if_pos recreated)

theorem recoverHire_other (hc : ∀ h, p.hire.current = some h → h.number ≠ number)
    (hr : ∀ h, r.recreate = some h → h.number ≠ number) :
    recoverHire number r p = ({ p with hire := { p.hire with newest := number } }, r) :=
  (if_neg (by simp [number_any hc])).trans (if_neg (by simp [number_any hr]))

end

/-! ## The capture directory (R151) -/

/-- An entry rebuilt from its header, field by field. -/
theorem rebuildEntry_eq (m : Medium) (e : Nat) (flags : Nat × Bool × Bool) :
    rebuildEntry m e flags =
      (if m.validAt (capturePage e) 1 then readCaptureHeader (m.page (capturePage e)) else none).map fun x =>
        { x with
          locked := if flags.1 = x.number then flags.2.1 else x.locked
          read := if flags.1 = x.number then flags.2.2 else x.read
          state := if x.state = .opened then .failed else x.state
          stored := if x.state = .opened then 0 else x.stored } := by
  unfold rebuildEntry
  split
  · congr 1
    funext x
    by_cases same : flags.1 = x.number <;> by_cases opened : x.state = .opened <;> simp [same, opened]
  · rfl

theorem headerOpen_eq (m : Medium) (e : Nat) :
    headerOpen m e =
      (if m.validAt (capturePage e) 1 then readCaptureHeader (m.page (capturePage e)) else none).any
        fun x => x.state == .opened := by
  unfold headerOpen
  split
  · rename_i valid
    rw [valid, Bool.true_and]
  · rename_i invalid
    rw [Bool.eq_false_of_not_eq_true invalid]
    rfl

theorem rebuildCapture_eq {m : Medium} {e : Nat} {flags : Nat × Bool × Bool} {entry : Option CaptureEntry} {opened : Bool}
    (he : rebuildEntry m e flags = entry) (ho : headerOpen m e = opened) (p : Part) :
    rebuildCapture m e flags p =
      { p with
        capture := { p.capture with
          entries := p.capture.entries.setIfInBounds e entry
          nextNumber := max p.capture.nextNumber ((entry.map (·.number)).getD 0 + 1) }
        link := { p.link with captureReady := p.link.captureReady || opened } } := by
  rw [← he, ← ho]
  rfl

theorem restoreTook_captureHeader {m : Medium} {p : Part} {r : Restore} {e : Nat} (hr : p.restore = some r)
    (hi : r.item = .captureHeader e) :
    restoreTook m p = endHeader e r (rebuildCapture m e (r.captures[e]?.getD (0, false, false)) p) := by
  simp only [restoreTook, hr, hi]

theorem endHeader_next {e : Nat} (h : e + 1 < 8) (r : Restore) (p : Part) :
    endHeader e r p = continueRestore { r with item := .captureHeader (e + 1) } p := if_pos h

theorem endHeader_last {e : Nat} (h : 8 ≤ e + 1) (r : Restore) (p : Part) :
    endHeader e r p = restoreEnd r p := if_neg (Nat.not_lt.mpr h)

/-! ## The end (R165, R167, R168) -/

/-- A grant leaves the cause of a full checkpoint that is under way or waits. -/
theorem grant_cause (m : Medium) (p : Part) : (grant m p).storage.full.cause = p.storage.full.cause := by
  unfold grant
  split_ifs
  · rfl
  · rfl
  · rw [grantReader_full, refreshReaders_full]
  · unfold grantFull
    dsimp only
    split <;> rfl
  · rfl
  · split
    · unfold grantArchive
      dsimp only
      split <;> rfl
    · rfl
    · rw [grantReader_full, refreshReaders_full]

theorem settle_cause (m : Medium) (p : Part) : (settle m p).storage.full.cause = p.storage.full.cause := by
  by_cases live : p.live = true
  · rw [settle_storage m live, grant_cause]
  · rw [settle_of_not_live _ (Bool.eq_false_iff.mpr live)]

/-- The part with its restore's full checkpoint asked for (R168). -/
abbrev Part.asksRestore (u : Part) : Prop := u.checkpointing = true ∧ u.storage.full.cause = .restore

theorem settle_restoreEnd_asks (m : Medium) (r : Restore) {p : Part} (h : p.storage.full.state = .idle) :
    (settle m (restoreEnd r p)).asksRestore := by
  refine ⟨settle_checkpointing m (requestFull_checkpointing _ _ _), ?_⟩
  rw [settle_cause]
  simp [restoreEnd, requestFull, h]

/-- An answered page whose restore ends. -/
theorem stores_restoreEnd {s : State} {r : Restore} {t : Transaction} (hs : Restoring s r t) {p q : Part}
    (h : restoreTook s.medium s.part.read = restoreEnd r q) (hi : q.storage.full.state = .idle)
    (hl : (restoreEnd r q).lasting = p.lasting) :
    Stores .pageReadComplete s s.medium p Part.asksRestore := by
  refine ⟨_, exec_pageReadComplete_restore hs, ?_, ?_, rfl, rfl⟩
  · rw [h]
    exact (lasting_settle _ _).trans hl
  · rw [h]
    exact settle_restoreEnd_asks _ _ hi

/-- An unanswered page whose restore ends. -/
theorem stores_restoreEnd_unanswered {s : State} {r : Restore} {t : Transaction} (hs : Restoring s r t)
    (h2 : 2 ≤ t.attempt) {p q : Part} (h : restoreUnanswered s.medium s.part.failed = restoreEnd r q)
    (hi : q.storage.full.state = .idle) (hl : (restoreEnd r q).lasting = p.lasting) :
    Stores .storageAnswerTimeout s s.medium p Part.asksRestore := by
  refine ⟨_, exec_storageAnswerTimeout_restore hs h2, ?_, ?_, rfl, rfl⟩
  · rw [h]
    exact (lasting_settle _ _).trans hl
  · rw [h]
    exact settle_restoreEnd_asks _ _ hi

/-! ## An item that is not answered (R163) -/

section
variable {m : Medium} {p : Part} {r : Restore} (hr : p.restore = some r)
include hr

theorem restoreUnanswered_image {page : Nat} (hi : r.item = .image page) :
    restoreUnanswered m p = endImage m false r p := by
  simp only [restoreUnanswered, hr, hi]

theorem restoreUnanswered_ring {w : Nat}
    (hi : r.item = .ringHeader w ∨ ∃ page count, r.item = .ringBody w page count) :
    restoreUnanswered m p = endPosition m w r p := by
  rcases hi with header | ⟨page, count, body⟩
  · simp only [restoreUnanswered, hr, header]
  · simp only [restoreUnanswered, hr, body]

theorem restoreUnanswered_component {page : Nat} (hi : r.item = .component page) :
    restoreUnanswered m p = continueRestore { r with item := .hire 0 } p := by
  simp only [restoreUnanswered, hr, hi]

theorem restoreUnanswered_hire {page : Nat} (hi : r.item = .hire page) :
    restoreUnanswered m p = continueRestore { r with item := .captureHeader 0 } p := by
  simp only [restoreUnanswered, hr, hi]

theorem restoreUnanswered_captureHeader {e : Nat} (hi : r.item = .captureHeader e) :
    restoreUnanswered m p = endHeader e r p := by
  simp only [restoreUnanswered, hr, hi]

end

/-! ## The whole -/

/-- Settles O59: each clause names the item whose last page the restore has read, and what it goes on with. -/
theorem restoreReadsOn : Obligations.RestoreReadsOn := by
  intro s r t restoring m p reading noImage header recovered
  have hr := read_restore restoring
  refine ⟨fun isImage => ⟨fun valid => ?_, fun invalid => ?_⟩, fun w isHeader => ⟨?_, ?_, ?_⟩,
    fun w page count isBody => ?_, fun page isComponent => ?_, fun page isHire => ?_, fun e isCapture => ?_, fun h2 => ?_⟩
  · exact readsOn_took restoring ((restoreTook_image_last hr isImage).trans (endImage_valid valid _ _))
  · exact readsOn_took restoring ((restoreTook_image_last hr isImage).trans
      (endImage_invalid (by rw [Bool.true_and]; exact invalid) _ _))
  · intro sequence kind count cause stands
    exact readsOn_took restoring (restoreTook_header hr isHeader stands)
  · intro noHeader more
    exact readsOn_took restoring ((restoreTook_noHeader hr isHeader noHeader).trans (endPosition_next more _ _))
  · intro noHeader last next
    have ends := (restoreTook_noHeader hr isHeader noHeader).trans (endPosition_last last r s.part.read)
    refine ⟨fun noFull => ?_, fun sequence position above found highest distinct ascending members => ?_⟩
    · rw [endScan_none noFull] at ends
      exact readsOn_took restoring ends
    · rw [endScan_some (highestOf_eq found highest) (shorts_above distinct ascending members)] at ends
      exact readsOn_took restoring ends
  · refine ⟨fun more => ?_, fun last onward => ⟨fun invalid => ?_, fun sequence kind pages valid => ?_⟩⟩
    · exact readsOn_took restoring (restoreTook_body_next hr isBody more)
    · exact readsOn_took restoring
        ((restoreTook_body_last hr isBody last).trans ((endCheckpoint_none invalid _ _).trans (endPosition_next onward _ _)))
    · exact readsOn_took restoring
        ((restoreTook_body_last hr isBody last).trans ((endCheckpoint_some valid _ _).trans (endPosition_next onward _ _)))
  · intro n at_ next
    refine ⟨fun more => ?_,
      fun last => ⟨fun invalid => ?_, fun record valid reads => ⟨fun other => ?_, fun expected => ?_⟩⟩⟩
    · exact readsOn_took restoring (restoreTook_component_next hr isComponent more)
    · exact readsOn_took restoring ((restoreTook_component_last hr isComponent last).trans (endComponent_invalid _ invalid))
    · exact readsOn_took restoring
        ((restoreTook_component_last hr isComponent last).trans (endComponent_other _ valid reads other))
    · have counted := (restoreTook_component_last hr isComponent last).trans (endComponent_expected r valid reads expected)
      refine ⟨fun c removed held kind identity => ?_, fun kept => ?_⟩
      · rw [recoverComponent_removed (p := s.part.read) removed held kind identity] at counted
        exact readsOn_took restoring counted
      · rw [recoverComponent_kept (p := s.part.read) kept] at counted
        exact readsOn_took restoring counted
  · intro n at_ full queued
    refine ⟨fun more => ?_, fun last => ⟨fun other => ?_, fun valid number => ?_⟩⟩
    · exact readsOn_took restoring (restoreTook_hire_next hr isHire more)
    · exact readsOn_took restoring ((restoreTook_hire_last hr isHire last).trans (endHire_other _ other))
    · have counted := fun {done} => (restoreTook_hire_last hr isHire last).trans ∘
        endHire_expected (p := s.part.read) r valid number (done := done)
      refine ⟨fun h current same => ?_, fun differs => ⟨fun h recreate same => ?_, fun others => ?_⟩⟩
      · have closed := counted (recoverHire_open current same)
        rw [append_eq] at closed
        exact readsOn_took restoring closed
      · have queued := counted (recoverHire_recreate differs recreate same)
        rw [append_eq] at queued
        exact readsOn_took restoring queued
      · exact readsOn_took restoring (counted (recoverHire_other differs others))
  · intro valid found opened flags entry built ended asks
    have rebuilt : rebuildCapture m e flags s.part.read = built.read :=
      rebuildCapture_eq (rebuildEntry_eq m e flags) (headerOpen_eq m e) s.part.read
    have took := restoreTook_captureHeader (m := m) hr isCapture
    refine ⟨fun more => ⟨?_, fun h2 => ?_⟩, fun last idle => ⟨?_, fun h2 => ?_⟩⟩
    · rw [rebuilt] at took
      exact readsOn_took restoring (took.trans (endHeader_next more _ _))
    · exact readsOn_unanswered restoring h2
        ((restoreUnanswered_captureHeader (failed_restore restoring) isCapture).trans (endHeader_next more _ _))
    · rw [rebuilt] at took
      exact stores_restoreEnd restoring (took.trans (endHeader_last last _ _)) idle (lasting_requestFull _ _ _)
    · exact stores_restoreEnd_unanswered restoring h2
        ((restoreUnanswered_captureHeader (failed_restore restoring) isCapture).trans (endHeader_last last _ _)) idle
        (lasting_requestFull _ _ _)
  · have unanswered := failed_restore restoring
    refine ⟨fun page isImage => ?_, fun w onward isRing => ?_, fun page isComponent => ?_, fun page isHire => ?_⟩
    · exact readsOn_unanswered restoring h2
        ((restoreUnanswered_image unanswered isImage).trans (endImage_invalid (Bool.false_and _) _ _))
    · exact readsOn_unanswered restoring h2
        ((restoreUnanswered_ring unanswered isRing).trans (endPosition_next onward _ _))
    · exact readsOn_unanswered restoring h2 (restoreUnanswered_component unanswered isComponent)
    · exact readsOn_unanswered restoring h2 (restoreUnanswered_hire unanswered isHire)

end Sys2Proof.Machine
end

section
/-! The requests of the Component Register: Install (R62, R63, R86), Remove and Confirm Change (R64, R65, R73), Adopt
Identity and Dismiss Mismatch (R74, R75), Verify Now (R66, R71) and Probe (R67, R72). -/

namespace Sys2Proof.Machine

/-- A request that changes the part, responds, and asks for a full checkpoint (R158). -/
theorem checkpointed_answers {i : Instr} {src : Source} {s : State} {msg : List Byte} {run : Channel → Part → Part}
    (hi : exec i s = runRequest src msg run s) (h : Ready src s) (hl : lengthFits msg = true) {m : List Byte} {q p : Part}
    {cause : CheckpointCause}
    (hq : run (sourceChannel src) (s.part.taken src) = requestFull cause none (respond (sourceChannel src) m q))
    (hf : q.placedFrames = (s.part.taken src).placedFrames := by rfl)
    (hr : q.storage.readers = (s.part.taken src).storage.readers := by rfl)
    (he : q.restore = (s.part.taken src).restore := by rfl) (hlast : q.lasting = p.lasting := by rfl) :
    Answers i src s m p fun t => t.checkpointing = true :=
  acting_answers hi h hl hq ((responding_respond hf hr he).requestFull _ _)
    (by rw [lasting_requestFull, lasting_respond, hlast])
    fun medium => settle_checkpointing medium (requestFull_checkpointing _ _ _)

/-- The arguments' list holds no argument at fault. -/
theorem firstBad_none {checks : List (Nat × Bool)} (h : ∀ x ∈ checks, x.2 = true) : firstBad checks = none := by
  have found : checks.find? (fun c => !c.2) = none := List.find?_eq_none.mpr fun x hx => by simp [h x hx]
  rw [firstBad, found, Option.map_none]

/-- A flag byte below 4 has its two low bits at most. -/
theorem flagsOk_two {b : Byte} (h : b.toNat < 4) : flagsOk b 2 = true := by
  simp [flagsOk, h]

/-- A new component's record, SATURATED when a figure given is at its limit (R63). -/
theorem starting_saturated (kind : Kind) (identity : Option Serial) (query : Option QuerySetup)
    {events time units : Nat} (clock : Nat) (he : events ≤ 4294967295) (ht : time ≤ 4294967295) (hu : units ≤ 99999999) :
    (Component.starting kind identity query events time units clock).saturated = true ↔
      events = 4294967295 ∨ time = 4294967295 ∨ units = 99999999 := by
  have limits : (Component.starting kind identity query events time units clock).saturated =
      (atLimit events || atLimit time || atLimit (kind.share events time) || atLimit 0 || decide (wearLimit ≤ units)) := rfl
  rw [limits]
  cases hk : kind.continuous <;>
    simp only [atLimit, Kind.share, hk, max32, wearLimit, Bool.or_eq_true, decide_eq_true_eq, Bool.false_eq_true, if_false,
      if_true] <;>
    omega

/-- Install after its checks: the slot is filled and a full checkpoint follows (R62, R63). -/
theorem applyInstall_fills {ch : Channel} {a : InstallArgs} {kind : Kind} {p : Part} (hc : p.hire.current = none)
    (hg : p.hire.closing = none) (hs : p.slot a.slot.toNat = none) (hk : p.register.countKind kind < kind.limit) :
    applyInstall ch a kind p =
      requestFull .install none (respond ch [0x13, 0x00] (setRunning a.slot.toNat false (p.setSlot a.slot.toNat (some
        (Component.starting kind (installSerial a) (installSetup a) a.events.toNat a.time.toNat a.wear.toNat
          p.modeCtl.clock))))) := by
  have shut : p.hireOpen = false := by simp [Part.hireOpen, hc, hg]
  simp [applyInstall, shut, hs, Nat.not_le.mpr hk, answer]

/-- Settles O43: `applyInstall_fills` behind the admission, the figures being those of `Component.starting`. -/
theorem installFillsSlot : Obligations.InstallFillsSlot := by
  intro port a kind s src p n ready away stopped inside ofKind flags query wear shut unclosing empty few
  have modes : p.modeCtl.mode ∈ [Mode.setup, .paused] := by
    cases mode : p.modeCtl.mode <;> simp_all
  have arguments : firstBad (installChecks a) = none := by
    refine firstBad_none ?_
    simp [installChecks, slotOk, ofKind, flagsOk_two flags, query, wear, show a.slot.toNat ≤ 11 from inside]
  have admitted : requestInstall (sourceChannel src) a (p.taken src) = applyInstall (sourceChannel src) a kind (p.taken src) := by
    rw [requestInstall, arguments, admitRequest_none (refusal_none rfl rfl modes fun _ => stopped)]
    simp only [ofKind]
  refine ⟨_, checkpointed_answers rfl ready rfl (admitted.trans (applyInstall_fills shut unclosing empty few)),
    rfl, rfl, rfl, ?_, ?_, rfl, rfl, rfl, rfl, rfl, rfl, rfl, rfl, rfl, rfl, rfl, rfl, rfl, rfl, rfl,
    starting_saturated _ _ _ _ (Nat.le_of_lt_succ a.events.isLt) (Nat.le_of_lt_succ a.time.isLt) wear⟩
  · show (installSetup a).isSome = _
    unfold installSetup
    split <;> simp_all
  · show (if (installSetup a).isSome then Verification.pending else .notApplicable) = _
    unfold installSetup
    split <;> simp_all

/-! ## Remove, Confirm Change, Adopt Identity, Dismiss Mismatch (R64, R73 to R75) -/

section
variable {port : PortId} {slot : Byte} {s : State} (he : s.part.detector.engine = .stopped) (hn : slot.toNat ≤ 11)
include he hn

/-- A resolution of the slot's mismatch is taken on the Service channel with the engine STOPPED (R74, R75). -/
theorem resolution_admitted (code : Byte) (f : Component → Hold → Component) :
    admitRequest { fleet := false, stopped := true } .service code (firstBad [(0, slotOk slot)])
        (resolveHold .service code slot.toNat f) (s.part.taken (.service port true)) =
      resolveHold .service code slot.toNat f (s.part.taken (.service port true)) := by
  rw [firstBad_slotOk hn]
  exact admitRequest_none (refusal_none (src := .service port true) rfl rfl (mode_mem_all _) fun _ => he) _ _

theorem resolution_refused (h : Ready (.service port true) s) {i : Instr} {code : Byte} {f : Component → Hold → Component} {c : Component}
    (hi : exec i s = runRequest (.service port true) [code, slot] (fun ch =>
      admitRequest { fleet := false, stopped := true } ch code (firstBad [(0, slotOk slot)])
        (resolveHold ch code slot.toNat f)) s)
    (hl : lengthFits [code, slot] = true) (hs : s.part.slot slot.toNat = some c) (hc : c.hold = none) :
    Answers i (.service port true) s [code, 0x23] s.part := by
  have notHeld : resolveHold .service code slot.toNat f (s.part.taken (.service port true)) =
      respond .service [code, 0x23] (s.part.taken (.service port true)) := by
    simp [resolveHold, taken_slot, hs, hc, refuse]
  exact read_answers hi h hl ((resolution_admitted he hn code f).trans notHeld)

theorem resolution_acts (h : Ready (.service port true) s) {i : Instr} {code : Byte} {f : Component → Hold → Component} {c : Component} {hold : Hold}
    (hi : exec i s = runRequest (.service port true) [code, slot] (fun ch =>
      admitRequest { fleet := false, stopped := true } ch code (firstBad [(0, slotOk slot)])
        (resolveHold ch code slot.toNat f)) s)
    (hl : lengthFits [code, slot] = true) (hs : s.part.slot slot.toNat = some c) (hc : c.hold = some hold) :
    Answers i (.service port true) s [code, 0x00] (s.part.setSlot slot.toNat (some (f c hold)))
      fun t => t.checkpointing = true := by
  have resolved : resolveHold .service code slot.toNat f (s.part.taken (.service port true)) =
      requestFull .resolution none (respond .service [code, 0x00]
        ((s.part.taken (.service port true)).setSlot slot.toNat (some (f c hold)))) := by
    simp [resolveHold, taken_slot, hs, hc, answer]
  exact checkpointed_answers hi h hl ((resolution_admitted he hn code f).trans resolved)

theorem requestConfirm_refused (events time : Word32) {wear : Word32} (hw : wear.toNat ≤ 99999999) {c : Component}
    (hs : s.part.slot slot.toNat = some c) (hc : c.hold = none) :
    requestConfirm .service slot events time wear (s.part.taken (.service port true)) =
      respond .service [0x15, 0x23] (s.part.taken (.service port true)) := by
  have arguments : firstBad [(0, slotOk slot), (3, decide (wear.toNat ≤ wearLimit))] = none :=
    firstBad_none (by simp [slotOk, hn, hw])
  rw [requestConfirm, arguments]
  refine (admitRequest_none (refusal_none (src := .service port true) rfl rfl (mode_mem_all _) fun _ => he) _ _).trans ?_
  simp only [taken_slot, hs, hc, refuse]

theorem requestConfirm_archives (events time : Word32) {wear : Word32} (hw : wear.toNat ≤ 99999999) {c : Component}
    (hs : s.part.slot slot.toNat = some c) {hold : Hold} (hc : c.hold = some hold)
    (hx : s.part.register.nextArchive ≠ exhausted) :
    requestConfirm .service slot events time wear (s.part.taken (.service port true)) =
      archiveComponent .changed hold.reported slot.toNat c events.toNat time.toNat wear.toNat
        (s.part.taken (.service port true)) := by
  have arguments : firstBad [(0, slotOk slot), (3, decide (wear.toNat ≤ wearLimit))] = none :=
    firstBad_none (by simp [slotOk, hn, hw])
  rw [requestConfirm, arguments]
  refine (admitRequest_none (refusal_none (src := .service port true) rfl rfl (mode_mem_all _) fun _ => he) _ _).trans ?_
  simp only [taken_slot, hs, hc, taken_register, hx, if_false]

theorem requestRemove_archives (hm : s.part.modeCtl.mode ≠ .active) (hc : s.part.hire.current = none)
    (hg : s.part.hire.closing = none) (hx : s.part.register.nextArchive ≠ exhausted) {c : Component}
    (hs : s.part.slot slot.toNat = some c) :
    requestRemove .service slot (s.part.taken (.service port true)) =
      archiveComponent .removed 0 slot.toNat c 0 0 0 (s.part.taken (.service port true)) := by
  have modes : s.part.modeCtl.mode ∈ [Mode.setup, .paused] := by
    cases mode : s.part.modeCtl.mode <;> simp_all
  have shut : (s.part.taken (.service port true)).hireOpen = false := by simp [Part.hireOpen, hc, hg]
  rw [requestRemove, firstBad_slotOk hn]
  refine (admitRequest_none (refusal_none (src := .service port true) rfl rfl modes fun _ => he) _ _).trans ?_
  simp only [shut, Bool.false_eq_true, if_false, taken_slot, hs, taken_register, hx]

end

/-- Settles O44: each request as its admission leaves it. -/
theorem slotRequestsAct : Obligations.SlotRequestsAct := by
  intro port slot events time wear s c src p n st job ready stopped inside stands
  refine ⟨fun away shut unclosing numbers => ?_, fun counting => ⟨?_, ?_, fun fits => ?_⟩, fun hold held => ?_⟩
  · exact changing_processes rfl ready rfl (requestRemove_archives stopped inside away shut unclosing numbers stands)
      (fun _ => trivial) (Part.setStorage_chan _ _ _)
  · exact resolution_refused stopped inside ready rfl rfl stands counting
  · exact resolution_refused stopped inside ready rfl rfl stands counting
  · exact read_answers rfl ready rfl (requestConfirm_refused stopped inside events time fits stands counting)
  · refine ⟨fun fits numbers => ?_, ?_, ?_⟩
    · exact changing_processes rfl ready rfl
        (requestConfirm_archives stopped inside events time fits stands held numbers) (fun _ => trivial)
        (Part.setStorage_chan _ _ _)
    · exact resolution_acts (code := 0x16) (f := Component.adopt) stopped inside ready rfl rfl stands held
    · exact resolution_acts (code := 0x17) (f := Component.dismiss) stopped inside ready rfl rfl stands held

/-! ## Verify Now (R66, R71) -/

/-- A slot written with what it holds is as it was. -/
theorem setSlot_self {p : Part} {n : Nat} {c : Component} (h : p.slot n = some c) : p.setSlot n (some c) = p := by
  have stands : p.register.slots[n]? = some (some c) := Option.join_eq_some_iff.mp h
  have slots : p.register.slots.setIfInBounds n (some c) = p.register.slots := by
    ext k hk : 1
    by_cases same : n = k
    · subst same
      rw [Vector.getElem?_eq_getElem hk] at stands
      simp [Option.some.inj stands]
    · simp [same]
  simp only [Part.setSlot, slots]

theorem insertSlot_length {n : Nat} {l : List Nat} (h : n ∉ l) : (insertSlot n l).length = l.length + 1 := by
  induction l with
  | nil => rfl
  | cons k l ih =>
    obtain ⟨other, later⟩ := not_or.mp (mt List.mem_cons.mpr h)
    simp only [insertSlot, other, if_false]
    split
    · rfl
    · rw [List.length_cons, ih later, List.length_cons]

/-- A slot without a query setup, or queued already, is left as it is (R66, R71). -/
theorem queueVerification_left {n : Nat} {p : Part} {c : Component} (hs : p.slot n = some c)
    (h : c.query = none ∨ n ∈ p.register.pollQueue) : queueVerification n p = p := by
  have left : ¬(c.query.isSome = true ∧ n ∉ p.register.pollQueue) := by
    rintro ⟨setup, fresh⟩
    rcases h with none_ | queued
    · exact absurd setup (by simp [none_])
    · exact fresh queued
  simp only [queueVerification, hs, left, if_false]

/-- A slot newly queued is PENDING while it counts (R66). -/
theorem queueVerification_queues {n : Nat} {p : Part} {c : Component} (hs : p.slot n = some c) (hc : c.query ≠ none)
    (hq : n ∉ p.register.pollQueue) :
    queueVerification n p =
      { p.setSlot n (some { c with verification := if c.hold = none then .pending else c.verification }) with
        register :=
          { (p.setSlot n (some { c with verification := if c.hold = none then .pending else c.verification })).register with
            pollQueue := insertSlot n p.register.pollQueue } } := by
  have setup : c.query.isSome = true := Option.isSome_iff_ne_none.mpr hc
  simp only [queueVerification, hs, setup, hq, not_false_eq_true, and_self, if_true]
  cases hold : c.hold with
  | none => simp [Component.held, hold, Part.setSlot]
  | some h =>
    have as_is : ({ c with verification := if some h = none then .pending else c.verification } : Component) = c := by
      simp
    rw [← hold] at as_is
    simp only [Component.held, hold, Option.isSome_some, if_true]
    rw [← hold, as_is, setSlot_self hs]

/-- What lasts of a slot's queueing: it is PENDING when it counts and was not queued (R66). -/
theorem queueVerification_lasting {n : Nat} {p : Part} {c : Component} (hs : p.slot n = some c) (hc : c.query ≠ none) :
    (queueVerification n p).lasting =
      (p.setSlot n (some
        { c with
          verification := if c.hold = none ∧ n ∉ p.register.pollQueue then .pending else c.verification })).lasting := by
  by_cases queued : n ∈ p.register.pollQueue
  · simp only [queueVerification_left hs (.inr queued), queued, not_true, and_false, if_false]
    exact congrArg Part.lasting (setSlot_self hs).symm
  · simp only [queueVerification_queues hs hc queued, queued, not_false_eq_true, and_true]
    rfl

/-- The number of slots that queueing one queues newly (R71). -/
theorem queueVerification_count {n : Nat} {p : Part} {c : Component} (hs : p.slot n = some c) (hc : c.query ≠ none) :
    (queueVerification n p).register.pollQueue.length - p.register.pollQueue.length =
      if p.register.pollQueue.contains n then 0 else 1 := by
  by_cases queued : n ∈ p.register.pollQueue
  · rw [queueVerification_left hs (.inr queued), if_pos (List.contains_iff_mem.mpr queued), Nat.sub_self]
  · rw [queueVerification_queues hs hc queued, if_neg (mt List.contains_iff_mem.mp queued)]
    dsimp only
    rw [insertSlot_length queued, Nat.add_sub_cancel_left]

/-- A slot with a query setup is queued, or in hand, when the part that queued it has settled (R67). -/
theorem settle_queueVerification (m : Medium) {n : Nat} {p : Part} {c : Component} (hs : p.slot n = some c)
    (hc : c.query ≠ none) {q : Part} (hq : q.register = (queueVerification n p).register) :
    n ∈ (settle m q).register.pollQueue ∨ (settle m q).register.inHand = some { slot := n, attempt := 1 } := by
  have asked : ((p.slot n).bind (·.query)).isSome = true := by simpa [hs, Option.isSome_iff_ne_none] using hc
  refine settle_polls m ?_ ?_
  · rw [hq]
    exact (mem_queueVerification n n p).mpr (.inr ⟨rfl, asked⟩)
  · have slot := queueVerification_slot n p
    rw [hs, Part.slot, ← hq] at slot
    simpa [Part.slot, slot, awaiting_query, Option.isSome_iff_ne_none] using hc

section
variable {src : Source} {slot : Byte} {p : Part} (hp : permitted src = true) (hn : slot.toNat ≤ 11)
include hp hn

/-- Verify Now of one slot, at every level and in every mode (R71). -/
theorem requestVerify_admitted :
    requestVerify (sourceChannel src) slot (p.taken src) =
      if p.slot slot.toNat = none then respond (sourceChannel src) [0x18, 0x20] (p.taken src)
      else answerQueued (sourceChannel src) (p.taken src) (queueVerification slot.toNat (p.taken src)) := by
  have one : slot ≠ 0xFF := fun all => by simp [all] at hn
  have arguments : firstBad [(0, slotOk slot || slot == 0xFF)] = none := firstBad_none (by simp [slotOk, hn])
  refine (admitRequest_anywhere hp 0x18 arguments _ p).trans ?_
  simp only [one, if_false, taken_slot, Option.isNone_iff_eq_none, refuse]

end

/-! ## Probe (R67, R72) -/

theorem settle_register_awake (m : Medium) {p : Part} (h : p.awake = true) :
    (settle m p).register = (probeNext (grant m p)).register := by
  obtain ⟨live, awake, -, -⟩ := awake_parts h
  simp only [settle, live, awake, Bool.true_eq_false, Bool.false_eq_true, if_false, settleQuiet_register,
    transmitSettle_register]

/-- A Probe Unit that serves a query goes on with it through the settling (R67). -/
theorem settle_register_serving (m : Medium) {p : Part} (h : p.awake = true) {q : Query}
    (hq : p.register.query = some q) : (settle m p).register = p.register := by
  have serving : (grant m p).register.query = some q := by rw [grant_register, hq]
  rw [settle_register_awake m h, ← grant_register m p]
  simp only [probeNext, serving]

/-- A Probe Unit that is IDLE takes the waiting probe (R67, R72). -/
theorem settle_register_probe (m : Medium) {p : Part} (h : p.awake = true) (hq : p.register.query = none)
    {w : ProbeRequest} (hw : p.register.waitingProbe = some w) :
    (settle m p).register =
      { p.register with
        waitingProbe := none
        query := some
          { forProbe := true, replyFormat := w.replyFormat, replyIdent := w.replyIdent, sent := false
            timer := w.timeout } } := by
  have idle : (grant m p).register.query = none := by rw [grant_register, hq]
  have waits : (grant m p).register.waitingProbe = some w := by rw [grant_register, hw]
  rw [settle_register_awake m h, ← grant_register m p]
  simp only [probeNext, idle, waits, sendQuery]

/-- The part with a probe that waits for the Probe Unit (R72). -/
def Part.probed (p : Part) (w : ProbeRequest) : Part :=
  { p with register := { p.register with waitingProbe := some w } }

/-- What an AWAKE part's Probe Unit makes of a waiting probe (R67, R72). -/
theorem settle_probed (m : Medium) {p : Part} (h : p.awake = true) (w : ProbeRequest) :
    (p.register.query ≠ none →
        (settle m (p.probed w)).register.waitingProbe = some w ∧
          (settle m (p.probed w)).register.query = p.register.query) ∧
      (p.register.query = none →
        (settle m (p.probed w)).register.waitingProbe = none ∧
          (settle m (p.probed w)).register.query =
            some
              { forProbe := true, replyFormat := w.replyFormat, replyIdent := w.replyIdent, sent := false
                timer := w.timeout }) := by
  refine ⟨fun serving => ?_, fun idle => ?_⟩
  · obtain ⟨query, serves⟩ := Option.ne_none_iff_exists'.mp serving
    rw [settle_register_serving m (p := p.probed w) h serves]
    exact ⟨rfl, rfl⟩
  · rw [settle_register_probe m (p := p.probed w) h idle rfl]
    exact ⟨rfl, rfl⟩

theorem requestProbe_admitted {src : Source} {a : ProbeArgs} {p : Part} (hp : permitted src = true)
    (hs : serviceOn src = true) (ha : ∀ x ∈ probeChecks a, x.2 = true) :
    requestProbe (sourceChannel src) a (p.taken src) = (p.taken src).probed (probeRequest a) := by
  rw [requestProbe, firstBad_none ha]
  exact admitRequest_none (refusal_none hp (takes_service hs rfl) (mode_mem_all _) (by nofun)) _ _

theorem taken_awake {src : Source} {p : Part} (h : p.awake = true) : (p.taken src).awake = true := by
  cases src <;> exact h

/-- Settles O45: Verify Now by whether the slot stands, has a query setup and is queued; Probe by whether the Probe Unit
serves a query. -/
theorem verifyAndProbeAreServed : Obligations.VerifyAndProbeAreServed := by
  intro src slot a s ready allowed inside sorted p n
  have admitted := requestVerify_admitted (p := p) allowed inside
  refine ⟨fun empty => ?_, fun c stands unasked => ?_, fun c stands asked => ?_, fun service arguments => ?_⟩
  · exact read_answers rfl ready rfl (admitted.trans (if_pos empty))
  · have left := queueVerification_left ((taken_slot src p n).trans stands) (.inl unasked)
    rw [if_neg (by simp [show p.slot slot.toNat = some c from stands]), left, answerQueued, Nat.sub_self] at admitted
    exact read_answers rfl ready rfl admitted
  · rw [if_neg (by simp [show p.slot slot.toNat = some c from stands])] at admitted
    have stood := (taken_slot src p n).trans stands
    have kept := queueVerification_unqueued (p.taken src) n
    have count : beBytes 1 ((queueVerification n (p.taken src)).register.pollQueue.length -
        (p.taken src).register.pollQueue.length) = [if p.register.pollQueue.contains n then 0x00 else 0x01] := by
      rw [queueVerification_count stood asked, taken_register]
      split <;> rfl
    rw [answerQueued, count] at admitted
    refine acting_answers rfl ready rfl admitted
      (responding_respond (q := queueVerification n (p.taken src)) (congrArg Part.placedFrames kept :)
        (congrArg (·.storage.readers) kept :) (congrArg Part.restore kept :))
      ?_ fun medium => settle_queueVerification medium stood asked (respond_register _ _ _)
    rw [lasting_respond, queueVerification_lasting stood asked, taken_register]
    cases src <;> rfl
  · refine changing_processes rfl ready rfl (requestProbe_admitted allowed service arguments) (fun medium => ?_)
      (by exact chan_of_link rfl _) (hlast := by cases src <;> rfl)
    have served := settle_probed medium (taken_awake (src := src) ready.1) (probeRequest a)
    rwa [taken_register] at served

end Sys2Proof.Machine
end

section
/-! Credits and merges by their figures (R59 to R61, R74, R75, R88, R89, R103, R104). -/

namespace Sys2Proof.Machine

/-! ## The wear arithmetic (R88) -/

theorem addWear_within {units residue counts : Nat} (h : units + (residue + counts) / 16000 ≤ 99999999) :
    addWear units residue counts = (units + (residue + counts) / 16000, (residue + counts) % 16000, false) := by
  simp only [addWear, wearLimit, wearUnit, Nat.not_lt.mpr h, if_false]

theorem addWear_beyond {units residue counts : Nat} (h : 99999999 < units + (residue + counts) / 16000) :
    addWear units residue counts = (99999999, 15999, true) := by
  simp only [addWear, wearLimit, wearUnit, h, if_true]

/-- Units never pass their limit. -/
theorem addWear_units_le (units residue counts : Nat) : (addWear units residue counts).1 ≤ 99999999 := by
  by_cases h : units + (residue + counts) / 16000 ≤ 99999999
  · rw [addWear_within h]; exact h
  · rw [addWear_beyond (Nat.not_le.mp h)]

/-- A figure at its limit is frozen. -/
theorem addWear_frozen (more : Nat) :
    (addWear 99999999 15999 more).1 = 99999999 ∧ (addWear 99999999 15999 more).2.1 = 15999 := by
  by_cases h : 99999999 + (15999 + more) / 16000 ≤ 99999999
  · rw [addWear_within h]
    dsimp only
    omega
  · rw [addWear_beyond (Nat.not_le.mp h)]
    exact ⟨rfl, rfl⟩

/-! ## The spectrum's sum (R59, R89) -/

theorem sum_set {l : List Nat} {i : Nat} (h : i < l.length) (x : Nat) : (l.set i x).sum + l[i] = l.sum + x := by
  induction l generalizing i with
  | nil => exact absurd h (Nat.not_lt_zero i)
  | cons y l ih =>
    cases i with
    | zero => simp only [List.set_cons_zero, List.sum_cons, List.getElem_cons_zero]; omega
    | succ i =>
      have rest := ih (Nat.lt_of_succ_lt_succ h)
      simp only [List.set_cons_succ, List.sum_cons, List.getElem_cons_succ]
      omega

/-- A sum that would not pass its limit is exact. -/
theorem addSat_exact {a b : Nat} (h : passes a b = false) : addSat max32 a b = a + b := by
  simp only [passes, decide_eq_false_iff_not, Nat.not_lt] at h
  exact Nat.min_eq_right h

/-- A credit's place raises the spectrum's sum and unbinned together by its count (R59). -/
theorem place_sum {c : Component} {place : Placement} {cell count : Nat} (hc : cell < 64)
    (hp : place = .cell cell count ∨ place = .unbinned count) (hs : (c.place place).saturated = false) :
    (c.place place).cellSum + (c.place place).unbinned = c.cellSum + c.unbinned + count := by
  rcases hp with rfl | rfl
  · have stands : c.cells[cell]?.getD 0 = c.cells.toList[cell]'(by simpa using hc) := by simp [hc]
    have exact_ : addSat max32 (c.cells[cell]?.getD 0) count = c.cells[cell]?.getD 0 + count :=
      addSat_exact (Bool.or_eq_false_iff.mp hs).2
    have sum := sum_set (l := c.cells.toList) (i := cell) (by simpa using hc) (c.cells[cell]?.getD 0 + count)
    simp only [Component.place, Component.cellSum, exact_, Vector.toList_setIfInBounds]
    omega
  · have exact_ : addSat max32 c.unbinned count = c.unbinned + count := addSat_exact (Bool.or_eq_false_iff.mp hs).2
    simp only [Component.place, exact_]
    exact (Nat.add_assoc _ _ _).symm

/-- What a credit's place leaves of a component. -/
theorem place_eq (c : Component) (place : Placement) :
    c.place place =
      { c with
        cells := (c.place place).cells, unbinned := (c.place place).unbinned, saturated := (c.place place).saturated } := by
  cases place <;> rfl

theorem place_saturated {c : Component} {place : Placement} (h : (c.place place).saturated = false) :
    c.saturated = false := by
  cases place with
  | nowhere => exact h
  | cell i n => exact (Bool.or_eq_false_iff.mp h).1
  | unbinned n => exact (Bool.or_eq_false_iff.mp h).1

/-- A component with a credit's amounts added to its figures, and not yet its place (R59, R88, R89). -/
def Component.counted (c : Component) (a : Credit) : Component :=
  { c with
    events := addSat max32 c.events a.events
    time := addSat max32 c.time a.time
    units := (addWear c.units c.residue a.wear).1
    residue := (addWear c.units c.residue a.wear).2.1
    unobserved := addSat max32 c.unobserved a.unobserved
    saturated := c.saturated || passes c.events a.events || passes c.time a.time ||
      (addWear c.units c.residue a.wear).2.2 || passes c.unobserved a.unobserved }

theorem credit_counting {c : Component} (h : c.hold = none) (a : Credit) : c.credit a = (c.counted a).place a.place := by
  simp only [Component.credit, h]
  rfl

theorem share_add (k : Kind) (e f t u : Nat) : k.share (e + f) (t + u) = k.share e t + k.share f u := by
  unfold Kind.share
  split <;> rfl

/-- A credit whose placed count is what the kind counts keeps the spectrum's sum equal to its figure, unless it
saturates (R59, R89). -/
theorem credit_keeps_sum {c : Component} {a : Credit} {cell count : Nat} (hh : c.hold = none) (hc : cell < 64)
    (hp : a.place = .cell cell count ∨ a.place = .unbinned count) (hn : count = c.kind.share a.events a.time)
    (hb : c.cellSum + c.unbinned = c.kind.share c.events c.time) (hs : (c.credit a).saturated = false) :
    (c.credit a).cellSum + (c.credit a).unbinned = c.kind.share (c.credit a).events (c.credit a).time := by
  rw [credit_counting hh] at hs ⊢
  have unsaturated : ((((c.saturated || passes c.events a.events) || passes c.time a.time) ||
      (addWear c.units c.residue a.wear).2.2) || passes c.unobserved a.unobserved) = false := place_saturated hs
  simp only [Bool.or_eq_false_iff] at unsaturated
  obtain ⟨⟨⟨⟨-, events⟩, time⟩, -⟩, -⟩ := unsaturated
  calc ((c.counted a).place a.place).cellSum + ((c.counted a).place a.place).unbinned
      = c.cellSum + c.unbinned + count := place_sum hc hp hs
    _ = c.kind.share (c.events + a.events) (c.time + a.time) := by rw [hb, hn, share_add]
    _ = c.kind.share (addSat max32 c.events a.events) (addSat max32 c.time a.time) := by
      rw [addSat_exact events, addSat_exact time]
    _ = c.kind.share ((c.counted a).place a.place).events ((c.counted a).place a.place).time := by
      rw [place_eq]
      rfl

/-! ## The merge of a pool (R74, R75) -/

theorem addSat_limit_iff (a b : Nat) : addSat max32 a b = 4294967295 ↔ atLimit (addSat max32 a b) = true := by
  rw [atLimit_addSat, decide_eq_true_eq, addSat, max32]
  omega

/-- A pool's wear adds to a component's with its residue carried, none of it lost (R74, R88). -/
theorem addWear_pool (c : Component) (q : Pool) :
    (c.units + q.units + (c.residue + q.residue) / 16000 ≤ 99999999 →
        (c.mergePool q).units * 16000 + (c.mergePool q).residue =
            c.units * 16000 + c.residue + (q.units * 16000 + q.residue) ∧ (c.mergePool q).residue < 16000) ∧
      (99999999 < c.units + q.units + (c.residue + q.residue) / 16000 →
        (c.mergePool q).units = 99999999 ∧ (c.mergePool q).residue = 15999) := by
  have units : (c.mergePool q).units = (addWear c.units (c.residue + q.residue) (16000 * q.units)).1 := rfl
  have residue : (c.mergePool q).residue = (addWear c.units (c.residue + q.residue) (16000 * q.units)).2.1 := rfl
  rw [units, residue]
  refine ⟨fun within => ?_, fun beyond => ?_⟩
  · rw [addWear_within (by omega)]
    dsimp only
    omega
  · rw [addWear_beyond (by omega)]
    exact ⟨rfl, rfl⟩

/-- The merge sets SATURATED when a sum reaches its limit (R74). -/
theorem mergePool_saturated (c : Component) (q : Pool) :
    (c.mergePool q).saturated = true ↔
      c.saturated = true ∨ (c.mergePool q).events = 4294967295 ∨ (c.mergePool q).time = 4294967295 ∨
        (c.mergePool q).unobserved = 4294967295 ∨ (c.mergePool q).unbinned = 4294967295 ∨
        (c.mergePool q).units = 99999999 := by
  have full : (c.mergePool q).units = 99999999 ↔ wearLimit ≤ (c.mergePool q).units := by
    have below : (c.mergePool q).units ≤ 99999999 := addWear_units_le _ _ _
    exact ⟨fun h => h.ge, fun h => Nat.le_antisymm below h⟩
  have saturated : (c.mergePool q).saturated = (c.saturated || (c.mergePool q).anyLimit) := rfl
  rw [full, saturated]
  simp only [Component.anyLimit, Bool.or_eq_true, decide_eq_true_eq]
  simp only [Component.mergePool, addSat_limit_iff]
  tauto

/-- Settles O21: `addWear` up to its limit and beyond it, a credit's sum, and the merge of a pool figure by figure. -/
theorem wearSumsAreExact : Obligations.WearSumsAreExact := by
  refine ⟨fun units residue counts _ _ => ⟨fun within => ?_, addWear_beyond, addWear_frozen⟩,
    fun c a cell count counting _ inside place counted sum unsaturated =>
      credit_keeps_sum counting inside place counted sum unsaturated,
    fun c q _ => ?_⟩
  · rw [addWear_within within]
    refine ⟨?_, ?_, rfl⟩ <;> dsimp only <;> omega
  · obtain ⟨within, beyond⟩ := addWear_pool c q
    exact ⟨rfl, rfl, rfl, rfl, within, beyond, rfl, rfl, rfl, rfl, rfl, rfl, rfl, mergePool_saturated c q⟩

/-! ## Usage entries (R103, R104) -/

section
variable {n : Nat} {new : Usage} {f : Usage → Usage} (hn : new.slot = n) (hf : ∀ u, (f u).slot = u.slot)

/-- The entries of other slots stay. -/
theorem mem_updateUsage_of_other {l : List Usage} {x : Usage} (hx : x ∈ l) (h : x.slot ≠ n) :
    x ∈ updateUsage n new f l := by
  induction l with
  | nil => exact absurd hx List.not_mem_nil
  | cons u l ih =>
    unfold updateUsage
    split_ifs with same before
    · have other : x ≠ u := fun e => h (e ▸ same)
      exact List.mem_cons_of_mem _ (List.mem_of_ne_of_mem other hx)
    · exact List.mem_cons_of_mem _ hx
    · rcases List.mem_cons.mp hx with rfl | later
      · exact List.mem_cons_self ..
      · exact List.mem_cons_of_mem _ (ih later)

include hn hf in
/-- What stands in the updated list stood there, or is the slot's entry. -/
theorem of_mem_updateUsage {l : List Usage} {x : Usage} (hx : x ∈ updateUsage n new f l) : x ∈ l ∨ x.slot = n := by
  induction l with
  | nil => exact .inr (by rw [List.mem_singleton.mp hx, hf, hn])
  | cons u l ih =>
    unfold updateUsage at hx
    split_ifs at hx with same before
    · rcases List.mem_cons.mp hx with rfl | later
      · exact .inr (by rw [hf, same])
      · exact .inl (List.mem_cons_of_mem _ later)
    · rcases List.mem_cons.mp hx with rfl | later
      · exact .inr (by rw [hf, hn])
      · exact .inl later
    · rcases List.mem_cons.mp hx with rfl | later
      · exact .inl (List.mem_cons_self ..)
      · exact (ih later).imp_left (List.mem_cons_of_mem _)

include hn hf in
/-- The updated list stays in slot order. -/
theorem updateUsage_pairwise {l : List Usage} (h : l.Pairwise fun x y => x.slot < y.slot) :
    (updateUsage n new f l).Pairwise fun x y => x.slot < y.slot := by
  induction l with
  | nil => exact List.pairwise_singleton _ _
  | cons u l ih =>
    obtain ⟨first, rest⟩ := List.pairwise_cons.mp h
    unfold updateUsage
    split_ifs with same before
    · exact List.pairwise_cons.mpr ⟨fun x hx => by rw [hf]; exact first x hx, rest⟩
    · refine List.pairwise_cons.mpr ⟨fun x hx => ?_, h⟩
      rw [hf, hn]
      rcases List.mem_cons.mp hx with rfl | later
      · exact before
      · exact before.trans (first x later)
    · refine List.pairwise_cons.mpr ⟨fun x hx => ?_, ih rest⟩
      rcases of_mem_updateUsage hn hf hx with stood | entry
      · exact first x stood
      · omega

/-- The slot's entry is changed in its place. -/
theorem updateUsage_present {l : List Usage} (h : l.Pairwise fun x y => x.slot < y.slot) {u : Usage} (hu : u ∈ l)
    (hs : u.slot = n) : (updateUsage n new f l).length = l.length ∧ f u ∈ updateUsage n new f l := by
  induction l with
  | nil => exact absurd hu List.not_mem_nil
  | cons v l ih =>
    obtain ⟨first, rest⟩ := List.pairwise_cons.mp h
    unfold updateUsage
    rcases List.mem_cons.mp hu with rfl | later
    · rw [if_pos hs]
      exact ⟨rfl, List.mem_cons_self ..⟩
    · have behind := first u later
      obtain ⟨length, entry⟩ := ih rest later
      rw [if_neg (by omega), if_neg (by omega)]
      exact ⟨by rw [List.length_cons, length, List.length_cons], List.mem_cons_of_mem _ entry⟩

/-- Where the slot has no entry, one is added. -/
theorem updateUsage_absent {l : List Usage} (h : ∀ u ∈ l, u.slot ≠ n) :
    (updateUsage n new f l).length = l.length + 1 ∧ f new ∈ updateUsage n new f l := by
  induction l with
  | nil => exact ⟨rfl, List.mem_cons_self ..⟩
  | cons v l ih =>
    obtain ⟨length, entry⟩ := ih fun u hu => h u (List.mem_cons_of_mem _ hu)
    unfold updateUsage
    rw [if_neg (h v (List.mem_cons_self ..))]
    split
    · exact ⟨rfl, List.mem_cons_self ..⟩
    · exact ⟨by rw [List.length_cons, length, List.length_cons], List.mem_cons_of_mem _ entry⟩

end

/-! ## A credit (R59 to R61) -/

/-- SATURATED after a credit's place: it was set, or the cell or unbinned would have passed its limit (R89). -/
theorem place_saturated_iff (c : Component) (place : Placement) :
    (c.place place).saturated = true ↔
      c.saturated = true ∨ (∃ count, place = .unbinned count ∧ 4294967295 < c.unbinned + count) ∨
        ∃ cell count, place = .cell cell count ∧ 4294967295 < c.cells[cell]?.getD 0 + count := by
  cases place with
  | nowhere => simp [Component.place]
  | cell i n => simp [Component.place, passes]
  | unbinned n => simp [Component.place, passes]

theorem counted_saturated_iff (c : Component) (a : Credit) :
    (c.counted a).saturated = true ↔
      c.saturated = true ∨ 4294967295 < c.events + a.events ∨ 4294967295 < c.time + a.time ∨
        4294967295 < c.unobserved + a.unobserved ∨ (addWear c.units c.residue a.wear).2.2 = true := by
  simp only [Component.counted, passes, Bool.or_eq_true, decide_eq_true_eq]
  tauto

/-- Settles O22: the slot's record by whether it counts, the hire's entries by `updateUsage`. -/
theorem creditGoesToSlotAndHire : Obligations.CreditGoesToSlotAndHire := by
  intro n a p inside
  refine ⟨fun empty => by simp only [creditSlot, empty], fun c stands => ?_⟩
  intro credited
  rw [creditSlot_of_some a stands]
  have slot : ∀ h : Hire, ({ p.setSlot n (some (c.credit a)) with hire := h } : Part).slot n = some (c.credit a) :=
    fun _ => Part.setSlot_slot p inside _
  refine ⟨fun k other => Part.setSlot_slot_other p other _, rfl, fun shut => ?_, fun counting => ?_, fun h held => ?_,
    fun h opened ordered => ?_⟩
  · simp only [Hire.credit, shut, Option.map_none]
    rw [← shut]
  · refine ⟨c.credit a, slot _, ?_⟩
    rw [credit_counting counting]
    refine ⟨place_eq _ _, fun nowhere => ?_, fun count unbinned => ?_, fun cell count placed => ?_, ?_⟩
    · rw [nowhere]
      exact ⟨rfl, rfl⟩
    · rw [unbinned]
      exact ⟨rfl, rfl⟩
    · rw [placed]
      refine ⟨?_, rfl⟩
      ext k hk : 1
      simp [Component.place, Component.counted, Vector.getElem_set, Vector.getElem_setIfInBounds, addSat]
    · refine (place_saturated_iff _ _).trans ?_
      rw [counted_saturated_iff]
      simp only [or_assoc]
      exact Iff.rfl
  · rw [slot]
    simp only [Component.credit, held]
    rfl
  · have serves : ∀ u : Usage, (u.credit c a).slot = u.slot := fun _ => rfl
    refine ⟨{ h with usage := updateUsage n (Usage.new n c) (fun u => u.credit c a) h.usage }, ?_, rfl,
      fun x stood other => mem_updateUsage_of_other stood other, updateUsage_pairwise (new := Usage.new n c) rfl serves ordered,
      fun u stood same => updateUsage_present ordered stood same, fun absent => updateUsage_absent absent⟩
    simp only [Hire.credit, opened, Option.map_some]

end Sys2Proof.Machine
end

section
/-! The expiries of the post timeout, the age deadline, the reply, gap, response and scan timers (R67, R68, R72, R124, R144,
R174, R178, R189). -/

namespace Sys2Proof.Machine

/-! ## The copier's window (R142, R144) -/

theorem copierTake_window (n : Nat) (r : Ring) (k : Copier) :
    (copierTake n r k).entry = k.entry ∧ (copierTake n r k).windowEnd = k.windowEnd := by
  induction n generalizing k with
  | zero => exact ⟨rfl, rfl⟩
  | succ n ih =>
    unfold copierTake
    split
    · exact ⟨rfl, rfl⟩
    · split
      · exact ⟨rfl, rfl⟩
      · exact ih _

/-- A run of the copier moves its cursor and its requests, not its entry nor its window. -/
theorem copierRun_capture {p : Part} {k : Copier} (h : p.capture.copier = some k) :
    ∃ k', (copierRun p).capture = { p.capture with copier := some k' } ∧ k'.entry = k.entry ∧
      k'.windowEnd = k.windowEnd := by
  obtain ⟨entry, window⟩ := copierTake_window framesPerPage p.ring k
  unfold copierRun
  simp only [h]
  split
  · exact ⟨_, rfl, entry, window⟩
  · split
    · exact ⟨_, rfl, entry, window⟩
    · exact ⟨_, rfl, entry, window⟩

theorem cutWindow_eq (r : Ring) (k : Copier) :
    (cutWindow r k).entry = k.entry ∧
      (cutWindow r k).windowEnd = if r.distance (r.next - 1) < r.distance k.windowEnd then r.next - 1 else k.windowEnd := by
  unfold cutWindow
  split <;> exact ⟨rfl, rfl⟩

/-- The post timeout's expiry cuts the window and lets the copier go on to it (R144). -/
theorem expirePost_capture {p : Part} {k : Copier} (h : p.capture.copier = some k) :
    ∃ k', (expirePost p).capture = { p.capture with postTimeout := none, copier := some k' } ∧ k'.entry = k.entry ∧
      k'.windowEnd =
        if p.ring.distance (p.ring.next - 1) < p.ring.distance k.windowEnd then p.ring.next - 1 else k.windowEnd := by
  obtain ⟨k', capture, entry, window⟩ := copierRun_capture
    (p := { p with capture := { p.capture with postTimeout := none, copier := p.capture.copier.map (cutWindow p.ring) } })
    (k := cutWindow p.ring k) (by simp [h])
  obtain ⟨cutEntry, cutEnd⟩ := cutWindow_eq p.ring k
  exact ⟨k', capture, entry.trans cutEntry, window.trans cutEnd⟩

/-- The copier touches the Capture Unit and the storage controller alone. -/
theorem expirePost_uncaptured (p : Part) : (expirePost p).uncaptured = p.uncaptured :=
  (copierRun_uncaptured _).trans rfl

/-! ## The Forwarder with nothing to send (R124) -/

theorem pointerRecord_congr {r q : Ring} (h : q.place = r.place) : q.pointerRecord = r.pointerRecord := by
  simp only [Ring.place, Prod.mk.injEq] at h
  obtain ⟨records, pointer, -, -⟩ := h
  rw [Ring.pointerRecord, Ring.pointerRecord, Ring.find, Ring.find, records, pointer]

theorem fillB_place_of_none {p : Part} (h : p.ring.pointerRecord = none) : (fillB p).ring.place = p.ring.place := by
  unfold fillB
  rw [h]
  split
  · split
    · rfl
    · rfl
    · rfl
    · rename_i waiting
      exact absurd waiting nofun
    · rfl
  · rfl

/-- The Forwarder stays where it is while no record waits at its pointer. -/
theorem settle_place_of_none (m : Medium) {p : Part} (h : p.ring.pointerRecord = none) :
    (settle m p).ring.place = p.ring.place := by
  have granted : (grant m p).ring = p.ring := grant_keeps Part.ring (fun _ _ => rfl) (fun _ _ _ => by simp) m p
  have before : (fillA (linkOffers (probeNext (grant m p)))).ring.place = p.ring.place := by
    rw [fillA_place, linkOffers_place, probeNext_place, granted]
  have quiet : ∀ q : Part, (settleQuiet q).ring = q.ring := fun _ => rfl
  unfold settle
  split
  · rfl
  · split
    · rw [granted]
    · rw [quiet, transmitSettle, linkOffers_place, fillB_place_of_none ((pointerRecord_congr before).trans h), before]

/-- After a sequence that lies behind the next one, its successor is further on. -/
theorem distance_lt_succ {r : Ring} {q : Word32} (h : r.distance q < 0) : r.distance q < r.distance (q + 1) := by
  have successor : q + 1 - r.next = q - r.next + 1 := by bv_omega
  simp only [Ring.distance] at h ⊢
  rw [successor]
  generalize q - r.next = d at h ⊢
  rw [BitVec.toInt_eq_toNat_cond] at h
  rw [BitVec.toInt_eq_toNat_cond, BitVec.toInt_eq_toNat_cond, BitVec.toNat_add]
  have one : (1 : Word32).toNat = 1 := rfl
  have bound := d.isLt
  split at h <;> split <;> split <;> omega

/-- With every waiting record before its start, the search ends at the next sequence. -/
theorem seekPointer_passed {ring : Ring} {start : Word32} {age now : Nat} {records : List RingRecord}
    (h : ∀ y ∈ records, y.waiting = true → ring.distance y.sequence < ring.distance start) (expired : Nat) :
    seekPointer ring start age now records expired = (ring.next, none, expired) := by
  induction records with
  | nil => rfl
  | cons y ys ih =>
    have passed : (decide (ring.distance y.sequence < ring.distance start) || !y.waiting) = true := by
      cases waits : y.waiting with
      | false => simp
      | true => simpa using h y (List.mem_cons_self ..) waits
    rw [seekPointer, if_pos passed, ih fun z hz => h z (List.mem_cons_of_mem y hz)]

section
variable {p : Part} (hd : p.ring.distance p.ring.pointer < 0)
  (hr : ∀ r ∈ p.ring.records, r.waiting = true → r.sequence = p.ring.pointer)
include hd hr

/-- The expiry of the only waiting record leaves none: the pointer stands at the next sequence (R124). -/
theorem expireAge_eq :
    expireAge p =
      { p with
        ring := { p.ring with
          pointer := p.ring.next, age := none, expired := addSat max32 (addSat max32 p.ring.expired 1) 0 } } := by
  have found := seekPointer_passed (ring := { p.ring with expired := addSat max32 p.ring.expired 1, age := none })
    (start := p.ring.pointer + 1) (age := p.modeCtl.active.limits.maximumAge) (now := p.now) (records := p.ring.records)
    (fun y stood waits => by
      rw [hr y stood waits]
      exact distance_lt_succ hd) 0
  simp only [expireAge, movePointer, found]

/-- No record waits where the pointer then stands. -/
theorem expireAge_pointerRecord : (expireAge p).ring.pointerRecord = none := by
  rw [expireAge_eq hd hr]
  refine Option.filter_eq_none_iff.mpr fun x found waits => ?_
  have at_next : x.sequence = p.ring.next := by simpa using List.find?_some found
  have at_pointer := hr x (List.mem_of_find?_eq_some found) waits
  have same : p.ring.pointer = p.ring.next := at_pointer.symm.trans at_next
  simp [Ring.distance, same] at hd

end

theorem expireAge_lasting (p : Part) : (expireAge p).lasting = p.lasting := rfl

/-! ## The reply timeout (R67, R68, R72) -/

/-- The part with an unsent query's frame withdrawn (R67, R130). -/
def Part.withdrawn (p : Part) : Part :=
  { p with
    ring := { p.ring with queueA := p.ring.queueA.filter fun f => !(f.source == .probe) }
    portA := { p.portA with tx := if p.portA.tx.any (fun f => f.source == .probe) then none else p.portA.tx } }

theorem expireReply_eq {p : Part} {q : Query} (h : p.register.query = some q) : expireReply p = endQuery none p.withdrawn := by
  simp only [expireReply, h]
  rfl

theorem withdrawn_lasting (p : Part) : p.withdrawn.lasting = p.lasting := rfl

/-- No response frame is withdrawn with the query's. -/
theorem withdrawn_placedFor (p : Part) (ch : Channel) : p.withdrawn.placedFor ch = p.placedFor ch := by
  have transmitter : (p.withdrawn.portA.tx.toList).filter (TxFrame.respondsFor ch) =
      p.portA.tx.toList.filter (TxFrame.respondsFor ch) := by
    cases stands : p.portA.tx with
    | none => simp [Part.withdrawn, stands]
    | some f => cases source : f.source <;> simp [Part.withdrawn, stands, TxFrame.respondsFor, source]
  have queue : p.withdrawn.ring.queueA.filter (TxFrame.respondsFor ch) =
      p.ring.queueA.filter (TxFrame.respondsFor ch) := by
    rw [Part.withdrawn, List.filter_filter]
    refine List.filter_congr fun f _ => ?_
    cases source : f.source <;> simp [TxFrame.respondsFor, source]
  simp only [Part.placedFor, Part.placedFrames, List.filter_append] at transmitter queue ⊢
  rw [transmitter, queue]
  rfl

theorem withdrawn_clearFor {p : Part} {ch : Channel} (h : p.clearFor ch) : p.withdrawn.clearFor ch := by
  refine ⟨?_, h.2⟩
  have outgoing := h.1
  rw [outgoing_eq, ← withdrawn_placedFor] at outgoing
  rw [outgoing_eq]
  exact outgoing

/-- An attempt without a reply: the third ends the verification (R68). -/
theorem endAttempt_unanswered {p : Part} {h : InHand} {c : Component} (hs : p.slot h.slot = some c) :
    endAttemptInHand h none (p.unqueried (some h)) =
      if 3 ≤ h.attempt then (p.unqueried none).setSlot h.slot (some c.silence)
      else p.unqueried (some { h with attempt := h.attempt + 1 }) := by
  have slot : (p.unqueried (some h)).slot h.slot = some c := hs
  simp only [endAttemptInHand, slot, replySerial]
  rfl

/-- An IDLE Probe Unit goes on with the verification in hand (R67). -/
theorem settle_register_attempt (m : Medium) {p : Part} (h : p.awake = true) (hq : p.register.query = none)
    (hw : p.register.waitingProbe = none) {x : InHand} (hx : p.register.inHand = some x) {c : Component}
    (hs : p.slot x.slot = some c) (hc : c.query.isSome = true) :
    (settle m p).register.inHand = some x ∧ (settle m p).register.query.isSome = true := by
  have granted := grant_register m p
  obtain ⟨setup, asks⟩ := Option.isSome_iff_exists.mp hc
  have slot : ((grant m p).slot x.slot).bind (·.query) = some setup := by
    rw [Part.slot, granted]
    show (p.slot x.slot).bind (·.query) = some setup
    rw [hs, Option.bind_some, asks]
  rw [← granted] at hq hw hx
  have attempts : probeNext (grant m p) = startAttempt x.slot (grant m p) := by
    unfold probeNext
    dsimp only
    split <;> simp_all
  rw [settle_register_awake m h, attempts]
  simp only [startAttempt, slot, sendQuery]
  exact ⟨hx, rfl⟩

/-! ## The channels through the settling -/

/-- What offers leave of a channel: its message, its state, no more than what it had to send, and its BUSY answers unless
they are offered (R175, R178). -/
structure Chan.Offers (c d : Chan) : Prop where
  state : d.state = c.state
  buffer : d.buffer = c.buffer
  gap : d.gap = c.gap
  outbox : d.outbox <:+ c.outbox
  busy : ∀ port, d.busyAt port = c.busyAt port ∨ d.busyAt port = none

theorem Chan.Offers.refl (c : Chan) : c.Offers c := ⟨rfl, rfl, rfl, List.suffix_refl _, fun _ => .inl rfl⟩

theorem Chan.Offers.trans {c d e : Chan} (h : c.Offers d) (k : d.Offers e) : c.Offers e :=
  ⟨k.state.trans h.state, k.buffer.trans h.buffer, k.gap.trans h.gap, k.outbox.trans h.outbox, fun port =>
    (k.busy port).elim (fun same => (h.busy port).imp same.trans same.trans) .inr⟩

theorem setBusy_offers (c : Chan) (port : PortId) : c.Offers (c.setBusy port none) := by
  cases port with
  | a => exact ⟨rfl, rfl, rfl, List.suffix_refl _, fun | .a => .inr rfl | .b => .inl rfl⟩
  | b => exact ⟨rfl, rfl, rfl, List.suffix_refl _, fun | .a => .inl rfl | .b => .inr rfl⟩

theorem offerNext_offers (ch d : Channel) (port : PortId) (p : Part) :
    (p.chan ch).Offers ((offerNext d port p).chan ch) := by
  have written : ∀ c : Chan, (p.chan d).Offers c → (p.chan ch).Offers ((p.setChan d c).chan ch) := by
    intro c hc
    by_cases same : ch = d
    · subst same
      rwa [Part.setChan_chan]
    · rw [Part.setChan_other _ _ same]
      exact .refl _
  unfold offerNext
  split
  · exact .refl _
  · dsimp only
    split
    · rw [offerFrame_chan]
      exact written _ (setBusy_offers _ port)
    · split
      · split
        · exact .refl _
        · rename_i data rest outbox
          rw [offerFrame_chan]
          exact written _ ⟨rfl, rfl, rfl, outbox ▸ List.suffix_cons data rest, fun other => by cases other <;> exact .inl rfl⟩
      · exact .refl _

theorem linkOffers_offers (ch : Channel) (p : Part) : (p.chan ch).Offers ((linkOffers p).chan ch) :=
  ((offerNext_offers ch .fleet .b p).trans (offerNext_offers ch .service .b _)).trans (offerNext_offers ch .service .a _)

/-- A channel that no reader works for makes its offers in the settling, and nothing else happens to it. -/
theorem settle_offers (m : Medium) {p : Part} {ch : Channel} (h : ∀ r ∈ p.storage.readers, r.ch ≠ ch) :
    (p.chan ch).Offers ((settle m p).chan ch) := by
  have granted : (grant m p).chan ch = p.chan ch := (grant_same m p h).1
  have transmits : ∀ q : Part, (q.chan ch).Offers ((transmitSettle q).chan ch) := by
    intro q
    have first := linkOffers_offers ch q
    have second := linkOffers_offers ch (fillB (fillA (linkOffers q)))
    rw [fillB_chan, fillA_chan] at second
    exact first.trans second
  have quiet : ∀ q : Part, (settleQuiet q).chan ch = q.chan ch := by
    intro q
    cases ch <;> rfl
  unfold settle
  split
  · exact .refl _
  · split
    · rw [granted]
      exact .refl _
    · have offered := transmits (probeNext (grant m p))
      rw [(probeNext_same _).1, granted] at offered
      rwa [quiet]

/-! ## Response timeouts (R178) -/

section
variable {ch : Channel} {f : TxFrame} {p : Part}

/-- A response frame's withdrawal abandons and counts the response; its channel is IDLE (R178). -/
theorem frameWithdrawn_response (hf : f.source = .response ch) (hr : (p.chan ch).restartAfter = false) :
    frameWithdrawn f p =
      p.setChan ch { (p.chan ch).toIdle with abandonedResponses := min 65535 ((p.chan ch).abandonedResponses + 1) } := by
  simp only [frameWithdrawn, hf, endResponse, Part.setChan_chan, hr, Bool.false_eq_true, if_false]
  cases ch <;> rfl

/-- A BUSY answer's frame is only withdrawn. -/
theorem frameWithdrawn_busy (hf : f.source = .busy ch) : frameWithdrawn f p = p := by
  simp only [frameWithdrawn, hf]

end

theorem removeWaiting_lasting (ch : Channel) (port : PortId) (p : Part) : (removeWaiting ch port p).lasting = p.lasting := by
  cases port <;> cases ch <;> rfl

theorem removeWaiting_chan (ch : Channel) (port : PortId) (p : Part) (d : Channel) :
    (removeWaiting ch port p).chan d = p.chan d := by
  cases port <;> cases ch <;> cases d <;> rfl

theorem removeWaiting_storage (ch : Channel) (port : PortId) (p : Part) : (removeWaiting ch port p).storage = p.storage := by
  cases port <;> cases ch <;> rfl

theorem removeWaiting_restore (ch : Channel) (port : PortId) (p : Part) : (removeWaiting ch port p).restore = p.restore := by
  cases port <;> cases ch <;> rfl

/-- A channel written alike on parts of which the same lasts. -/
theorem lasting_setChan_congr {p q : Part} (h : q.lasting = p.lasting) (ch : Channel) {c d : Chan}
    (hc : c.lasting = d.lasting) : (q.setChan ch c).lasting = (p.setChan ch d).lasting := by
  have written : ∀ (r : Part) (e : Chan), (r.setChan ch e).lasting = r.lasting.setChan ch e.lasting := by
    intro r e
    cases ch <;> rfl
  rw [written, written, h, hc]

section
variable {s : State} {ch : Channel} (ha : s.part.awake = true) (hr : ∀ r ∈ s.part.storage.readers, r.ch ≠ ch)
  {place : FramePlace} {f : TxFrame} {p : Part} (hp : expireResponse place s.part = frameWithdrawn f p)
  (hl : p.lasting = s.part.lasting) (hc : p.chan ch = s.part.chan ch) (hs : p.storage = s.part.storage)
  (he : p.restore = s.part.restore)
include ha hr hp hl hc hs he

/-- The timeout of a response frame, wherever it stands (R178). -/
theorem responseTimeout_response (hf : f.source = .response ch) (hn : (s.part.chan ch).restartAfter = false) :
    Leaves (.responseTimeout place) s
      (s.part.setChan ch
        { s.part.chan ch with abandonedResponses := min 65535 ((s.part.chan ch).abandonedResponses + 1) })
      fun t => (t.chan ch).state = .idle ∧ (t.chan ch).outbox = [] := by
  have abandoned := hp.trans (frameWithdrawn_response hf (by rw [hc]; exact hn))
  have offers := settle_offers s.medium (p := expireResponse place s.part) (ch := ch)
    (by rw [abandoned, Part.setChan_storage, hs]; exact hr)
  rw [abandoned, Part.setChan_chan] at offers
  refine leaves_of_runAwake (f := expireResponse place) rfl ha ?_ ?_ ?_
  · rw [abandoned, Part.setChan_restore, he]
    exact (awake_parts ha).2.2.2
  · rw [abandoned, hc]
    exact lasting_setChan_congr hl ch rfl
  · rw [abandoned]
    exact ⟨offers.state, List.suffix_nil.mp offers.outbox⟩

/-- The timeout of a BUSY answer's frame, wherever it stands (R178). -/
theorem responseTimeout_busy (hf : f.source = .busy ch) :
    Leaves (.responseTimeout place) s s.part fun t => (t.chan ch).state = (s.part.chan ch).state := by
  have withdrawn := hp.trans (frameWithdrawn_busy hf)
  have offers := settle_offers s.medium (p := expireResponse place s.part) (ch := ch) (by rw [withdrawn, hs]; exact hr)
  refine leaves_of_runAwake (f := expireResponse place) rfl ha ?_ ?_ ?_
  · rw [withdrawn, he]
    exact (awake_parts ha).2.2.2
  · rw [withdrawn, hl]
  · rw [offers.state, withdrawn, hc]

end

theorem expireResponse_waiting {ch : Channel} {port : PortId} {f : TxFrame} {p : Part}
    (h : p.ring.waitingOf ch port = some f) :
    expireResponse (.waiting ch port) p = frameWithdrawn f (removeWaiting ch port p) := by
  simp only [expireResponse, h]

theorem expireResponse_transmitter {port : PortId} {f : TxFrame} {p : Part} (h : (p.port port).tx = some f)
    (ht : f.timeout.isSome = true) :
    expireResponse (.transmitter port) p = frameWithdrawn f (p.setPort port { p.port port with tx := none }) := by
  simp only [expireResponse, h, ht, if_true]

/-! ## The scan timer (R189) -/

/-- Readers of a channel are not added by the refreshing of those that wait. -/
theorem refreshReaders_readers {ch : Channel} (p : Part) (h : ∀ r ∈ p.storage.readers, r.ch ≠ ch) :
    ∀ r ∈ (refreshReaders p).storage.readers, r.ch ≠ ch := by
  have one : ∀ (q : Part) (x : Reader), (∀ r ∈ q.storage.readers, r.ch ≠ ch) →
      ∀ r ∈ (refreshReader q x).storage.readers, r.ch ≠ ch := by
    intro q x hq
    unfold refreshReader Part.setReaders
    split
    · exact hq
    · split
      · intro r hr
        obtain ⟨y, stood, rfl⟩ := List.mem_map.mp hr
        split <;> exact hq y stood
      · intro r hr
        rw [respond_storage] at hr
        exact hq r (List.mem_of_mem_filter hr)
  unfold refreshReaders
  generalize p.storage.readers = rs
  induction rs generalizing p with
  | nil => exact h
  | cons r rs ih => exact ih _ (one p r h)

/-- A channel that no reader works for gets none in the settling. -/
theorem settle_readers (m : Medium) {p : Part} {ch : Channel} (h : ∀ r ∈ p.storage.readers, r.ch ≠ ch) :
    ∀ r ∈ (settle m p).storage.readers, r.ch ≠ ch := by
  have reader : ∀ q : Part, (grantReader q).storage.readers = q.storage.readers := by
    intro q
    unfold grantReader
    split <;> rfl
  have granted : ∀ r ∈ (grant m p).storage.readers, r.ch ≠ ch := by
    unfold grant
    split_ifs
    · exact h
    · exact h
    · rw [reader]
      exact refreshReaders_readers p h
    · unfold grantFull
      dsimp only
      split <;> exact h
    · exact h
    · split
      · unfold grantArchive
        dsimp only
        split <;> exact h
      · exact h
      · rw [reader]
        exact refreshReaders_readers p h
  by_cases live : p.live = true
  · rw [settle_storage m live]
    exact granted
  · rw [settle_of_not_live _ (Bool.eq_false_iff.mpr live)]
    exact h

theorem expireScan_eq {ch : Channel} {p : Part} {r : Reader} {next remaining field sense value skipped timer : Nat}
    (hf : p.storage.readers.find? (·.ch == ch) = some r)
    (ht : r.task = .scan next remaining field sense value skipped timer) :
    expireScan ch p =
      respond ch ([0x41, 0x00, 0x02] ++ beBytes 4 next ++ beBytes 2 remaining ++ beBytes 2 skipped)
        (p.setStorage { p.storage with
          bus := if p.storage.bus.any (·.owner == .reader ch) then none else p.storage.bus
          readers := p.storage.readers.filter (·.ch ≠ ch) }) := by
  simp only [expireScan, hf, ht, scanCounts, List.append_assoc]

/-- A scan's suspension leaves no reader on its channel and its response under way (R189). -/
theorem scanTimer_suspends {ch : Channel} {s : State} {r : Reader}
    {next remaining field sense value skipped timer : Nat} (ha : s.part.awake = true) (ho : s.part.outgoing ch = [])
    (hf : s.part.storage.readers.find? (·.ch == ch) = some r)
    (ht : r.task = .scan next remaining field sense value skipped timer) :
    Leaves (.scanTimerExpiry ch) s s.part fun t =>
      t.responds ch ([0x41, 0x00, 0x02] ++ beBytes 4 next ++ beBytes 2 remaining ++ beBytes 2 skipped) ∧
        ∀ x ∈ t.storage.readers, x.ch ≠ ch := by
  have suspended := expireScan_eq hf ht
  generalize hq : s.part.setStorage { s.part.storage with
    bus := if s.part.storage.bus.any (·.owner == .reader ch) then none else s.part.storage.bus
    readers := s.part.storage.readers.filter (·.ch ≠ ch) } = q at suspended
  have clear : q.clearFor ch := by
    rw [← hq]
    refine ⟨?_, fun x stood => of_decide_eq_true (List.mem_filter.mp stood).2⟩
    rw [outgoing_eq, Part.setStorage_chan]
    exact ho
  refine leaves_of_runAwake (f := expireScan ch) rfl ha ?_ ?_ ⟨?_, ?_⟩
  · rw [suspended, respond_restore, ← hq]
    exact (awake_parts ha).2.2.2
  · rw [suspended, lasting_respond, ← hq]
    exact lasting_setStorage _ _ rfl
  · rw [suspended]
    exact settle_respond _ clear rfl rfl
  · rw [suspended]
    exact settle_readers _ (by rw [respond_storage]; exact clear.2)

/-! ## Each timer -/

/-- The post timeout's clause (R144). -/
theorem postTimeout_cuts {s : State} {k : Copier} (ha : s.part.awake = true)
    (ht : s.part.capture.postTimeout.isSome = true) (hk : s.part.capture.copier = some k) :
    ∃ k', exec .postTimeoutExpiry s = .next { s with part := settle s.medium (expirePost s.part) } ∧
      (settle s.medium (expirePost s.part)).capture =
        { s.part.capture with postTimeout := none, copier := some k' } ∧
      k'.entry = k.entry ∧
      k'.windowEnd =
        if s.part.ring.distance (s.part.ring.next - 1) < s.part.ring.distance k.windowEnd then s.part.ring.next - 1
        else k.windowEnd := by
  obtain ⟨k', capture, entry, window⟩ := expirePost_capture hk
  have acts : (if s.part.capture.postTimeout.isSome then expirePost s.part else s.part) = expirePost s.part := if_pos ht
  have restore : (expirePost s.part).restore = none :=
    (congrArg Part.restore (expirePost_uncaptured s.part) :).trans (awake_parts ha).2.2.2
  refine ⟨k', ?_, ?_, entry, window⟩
  · refine (runAwake_eq (fun p => if p.capture.postTimeout.isSome then expirePost p else p) ha ?_).trans ?_
    · rw [acts]; exact restore
    · rw [acts]
  · rw [settle_keeps Part.capture (fun _ => rfl), capture]

section
variable {s : State} {q : Query} (ha : s.part.awake = true) (hq : s.part.register.query = some q)
include ha hq

/-- A probe without a reply is answered NO_REPLY (R72, R190). -/
theorem replyTimeout_probe (hp : q.forProbe = true) (hc : s.part.clearFor .service) :
    Leaves .replyTimeout s s.part fun t => t.responds .service ([0x19, 0x00, 0x00] ++ List.replicate 14 0) := by
  have ended : expireReply s.part = respond .service ([0x19, 0x00, 0x00] ++ List.replicate 14 0)
      (s.part.withdrawn.unqueried s.part.register.inHand) :=
    (expireReply_eq hq).trans (endQuery_probe none (p := s.part.withdrawn) hq hp)
  refine leaves_of_runAwake (f := expireReply) rfl ha ?_ ?_ ?_
  · rw [ended, respond_restore]
    exact (awake_parts ha).2.2.2
  · rw [ended, lasting_respond]
    rfl
  · rw [ended]
    exact settle_respond _ (withdrawn_clearFor hc) rfl rfl

section
variable {h : InHand} {c : Component} (hp : q.forProbe = false) (hh : s.part.register.inHand = some h)
  (hs : s.part.slot h.slot = some c)
include hp hh hs

omit ha in
theorem expireReply_attempt :
    expireReply s.part =
      if 3 ≤ h.attempt then (s.part.withdrawn.unqueried none).setSlot h.slot (some c.silence)
      else s.part.withdrawn.unqueried (some { h with attempt := h.attempt + 1 }) := by
  rw [expireReply_eq hq, endQuery_attempt none (p := s.part.withdrawn) hq hp hh]
  exact endAttempt_unanswered (p := s.part.withdrawn) hs

/-- The third attempt without a reply ends the verification (R68). -/
theorem replyTimeout_last (h3 : 3 ≤ h.attempt) :
    Leaves .replyTimeout s
      (s.part.setSlot h.slot (some
        { c with
          verification := if c.hold = none then .unverified else c.verification
          silent := min 255 (c.silent + 1) }))
      fun _ => True := by
  have ended := expireReply_attempt hq hp hh hs
  rw [if_pos h3, silence_eq] at ended
  refine leaves_of_runAwake (f := expireReply) rfl ha ?_ ?_ trivial
  · rw [ended]
    exact (awake_parts ha).2.2.2
  · rw [ended]
    rfl

/-- An earlier attempt without a reply is followed by the next (R67, R68). -/
theorem replyTimeout_earlier (h3 : h.attempt < 3) :
    Leaves .replyTimeout s s.part fun t =>
      c.query.isSome = true → s.part.register.waitingProbe = none →
        t.register.inHand = some { h with attempt := h.attempt + 1 } ∧ t.register.query.isSome = true := by
  have ended := expireReply_attempt hq hp hh hs
  rw [if_neg (Nat.not_le.mpr h3)] at ended
  refine leaves_of_runAwake (f := expireReply) rfl ha ?_ ?_ fun asks unwaited => ?_
  · rw [ended]
    exact (awake_parts ha).2.2.2
  · rw [ended]
    rfl
  · rw [ended]
    exact settle_register_attempt _ (p := s.part.withdrawn.unqueried (some { h with attempt := h.attempt + 1 })) ha rfl
      unwaited rfl hs asks

end

end

/-- The gap timer abandons the message being received (R174). -/
theorem gapTimer_abandons {ch : Channel} {s : State} (ha : s.part.awake = true)
    (hr : ∀ r ∈ s.part.storage.readers, r.ch ≠ ch) (hs : (s.part.chan ch).state = .receiving)
    (hg : (s.part.chan ch).gap.isSome = true) :
    Leaves (.gapTimerExpiry ch) s
      (s.part.setChan ch { s.part.chan ch with abandoned := min 65535 ((s.part.chan ch).abandoned + 1) })
      fun t => (t.chan ch).state = .idle ∧ (t.chan ch).buffer = [] ∧ (t.chan ch).gap = none := by
  have abandons : expireGap ch s.part = s.part.setChan ch (s.part.chan ch).abandon := if_pos ⟨hs, hg⟩
  have offers := settle_offers s.medium (p := expireGap ch s.part) (ch := ch) (by rw [abandons, Part.setChan_storage]; exact hr)
  rw [abandons, Part.setChan_chan] at offers
  refine leaves_of_runAwake (f := expireGap ch) rfl ha ?_ ?_ ?_
  · rw [abandons, Part.setChan_restore]
    exact (awake_parts ha).2.2.2
  · rw [abandons]
    exact lasting_setChan_congr rfl ch rfl
  · rw [abandons]
    exact ⟨offers.state, offers.buffer, offers.gap⟩

/-- The time of a held BUSY answer runs out (R178, log 45). -/
theorem responseTimeout_held {ch : Channel} {s : State} (port : PortId) (ha : s.part.awake = true)
    (hr : ∀ r ∈ s.part.storage.readers, r.ch ≠ ch) :
    Leaves (.responseTimeout (.held ch port)) s s.part fun t =>
      (t.chan ch).busyAt port = none ∧ (t.chan ch).state = (s.part.chan ch).state := by
  have dropped : expireResponse (.held ch port) s.part = s.part.setChan ch ((s.part.chan ch).setBusy port none) := rfl
  have offers := settle_offers s.medium (p := expireResponse (.held ch port) s.part) (ch := ch)
    (by rw [dropped, Part.setChan_storage]; exact hr)
  rw [dropped, Part.setChan_chan] at offers
  have gone : ((s.part.chan ch).setBusy port none).busyAt port = none := by cases port <;> rfl
  refine leaves_of_runAwake (f := expireResponse (.held ch port)) rfl ha ?_ ?_ ?_
  · rw [dropped, Part.setChan_restore]
    exact (awake_parts ha).2.2.2
  · rw [dropped]
    exact lasting_setChan _ _ _ (by cases port <;> rfl)
  · rw [dropped]
    exact ⟨(offers.busy port).elim (·.trans gone) id, offers.state.trans (setBusy_same _ port none).1⟩

/-- Settles O31: a lemma to each timer. -/
theorem timerExpiriesAct : Obligations.TimerExpiriesAct := by
  refine ⟨fun s k awake runs copies => ?_, fun s awake runs behind only => ?_, fun s q awake query => ⟨?_, ?_⟩,
    fun ch port s awake readers => ?_, fun ch s r next remaining field sense value skipped timer awake free found scans =>
      scanTimer_suspends awake free found scans⟩
  · obtain ⟨k', step, capture, entry, window⟩ := postTimeout_cuts awake runs copies
    have kept := fun {β : Type} (g : Part → β) (lasts : ∀ q : Part, g q.lasting = g q)
        (spared : ∀ q : Part, g q.uncaptured = g q) =>
      (settle_keeps g lasts s.medium (expirePost s.part)).trans
        (by rw [← spared, expirePost_uncaptured, spared] : g (expirePost s.part) = g s.part)
    refine ⟨_, k', step, by rw [capture], by rw [capture], entry, window, by rw [capture], by rw [capture],
      kept (·.ring.next) (fun _ => rfl) fun _ => rfl, kept Part.hire (fun _ => rfl) fun _ => rfl,
      kept (·.register.slots) (fun _ => rfl) fun _ => rfl, rfl, rfl⟩
  · have acts : (if s.part.ring.age.isSome then expireAge s.part else s.part) = expireAge s.part := if_pos runs
    have place := settle_place_of_none s.medium (expireAge_pointerRecord behind only)
    rw [expireAge_eq behind only] at place
    refine leaves_of_runAwake (f := fun p => if p.ring.age.isSome then expireAge p else p) rfl awake ?_ ?_ ?_
    · rw [acts]
      exact (awake_parts awake).2.2.2
    · rw [acts, expireAge_lasting]
    · rw [acts, expireAge_eq behind only]
      simp only [Ring.place, Prod.mk.injEq] at place
      obtain ⟨-, pointer, age, expired⟩ := place
      refine ⟨expired.trans ?_, pointer, age⟩
      simp [addSat]
  · exact fun probe free readers => replyTimeout_probe awake query probe ⟨free, readers⟩
  · exact fun h c verifies inHand stands => ⟨fun third => replyTimeout_last awake query verifies inHand stands third,
      fun earlier => replyTimeout_earlier awake query verifies inHand stands earlier⟩
  · refine ⟨fun receiving gap => gapTimer_abandons awake readers receiving gap, fun f waits => ⟨fun response ends => ?_,
      fun busy => ?_⟩, fun f stands timed => ⟨fun response ends => ?_, fun busy => ?_⟩,
      responseTimeout_held port awake readers⟩
    · exact responseTimeout_response awake readers (expireResponse_waiting waits) (removeWaiting_lasting _ _ _)
        (removeWaiting_chan _ _ _ _) (removeWaiting_storage _ _ _) (removeWaiting_restore _ _ _) response ends
    · exact responseTimeout_busy awake readers (expireResponse_waiting waits) (removeWaiting_lasting _ _ _)
        (removeWaiting_chan _ _ _ _) (removeWaiting_storage _ _ _) (removeWaiting_restore _ _ _) busy
    · exact responseTimeout_response awake readers (expireResponse_transmitter stands timed) (by cases port <;> rfl)
        (Part.setPort_chan _ _ _ _) (Part.setPort_storage _ _ _) (Part.setPort_restore _ _ _) response ends
    · exact responseTimeout_busy awake readers (expireResponse_transmitter stands timed) (by cases port <;> rfl)
        (Part.setPort_chan _ _ _ _) (Part.setPort_storage _ _ _) (Part.setPort_restore _ _ _) busy

end Sys2Proof.Machine
end

section
/-! Marks of the abuse monitor (R73, R102, R117, R118, R141): the slot's count, the hire's count and list, the archive write in
progress, and the capture that a mark starts. -/

namespace Sys2Proof.Machine

/-! ## What the start of a capture changes (R140, R141) -/

/-- The part without what a trigger changes: the Capture Unit, its operations at the arbiter, and the open hire's list. -/
def Part.untriggered (p : Part) : Part :=
  { p with capture := {}, hire := { p.hire with current := none }, storage := { p.storage with captureJobs := [] } }

theorem copierRun_untriggered (p : Part) : (copierRun p).untriggered = p.untriggered := by
  unfold copierRun
  split
  · rfl
  · dsimp only
    split <;> rfl

theorem nameCapture_others (h : Hire) (mark : Option (Nat × Nat)) (number : Nat) :
    ({ h.nameCapture mark number with current := none } : Hire) = { h with current := none } := by
  unfold Hire.nameCapture
  split <;> rfl

theorem startIn_untriggered (e : Nat) (t : Trigger) (p : Part) : (startIn e t p).untriggered = p.untriggered := by
  have hire := nameCapture_others p.hire t.mark p.capture.nextNumber
  refine (copierRun_untriggered _).trans ?_
  simp only [Part.untriggered, askCapture, Part.setStorage, hire]

theorem takeTrigger_untriggered (t : Trigger) (p : Part) : (takeTrigger t p).1.untriggered = p.untriggered := by
  unfold takeTrigger
  split
  · unfold startCapture
    split
    · rfl
    · split
      · rfl
      · exact startIn_untriggered _ t p
  · split <;> rfl

/-- The run of the copier moves the copier alone in the Capture Unit. -/
theorem copierRun_entries (p : Part) :
    (copierRun p).capture = { p.capture with copier := (copierRun p).capture.copier } := by
  unfold copierRun
  split
  · rfl
  · dsimp only
    split <;> rfl

/-- A fold that keeps what it has or takes what it meets ends with its start or with something it met. -/
theorem foldl_chosen {g : Option Nat → Nat → Option Nat} (hg : ∀ best e, g best e = best ∨ g best e = some e)
    {l : List Nat} {start : Option Nat} {e : Nat} (h : l.foldl g start = some e) : start = some e ∨ e ∈ l := by
  induction l generalizing start with
  | nil => exact .inl h
  | cons x l ih =>
    rcases ih h with first | later
    · rcases hg start x with kept | taken
      · exact .inl (kept ▸ first)
      · exact .inr (Option.some.inj (taken.symm.trans first) ▸ List.mem_cons_self ..)
    · exact .inr (List.mem_cons_of_mem _ later)

/-- The step of the choice keeps the best entry or takes the one it meets. -/
theorem keeps_or_takes (best : Option Nat) (e : Nat) (before : Nat → Prop) [DecidablePred before] :
    (match best with
      | none => some e
      | some b => if before b then some e else some b) = best ∨
      (match best with
      | none => some e
      | some b => if before b then some e else some b) = some e := by
  cases best with
  | none => exact .inr rfl
  | some b =>
    dsimp only
    split
    · exact .inr rfl
    · exact .inl rfl

/-- The entry that a capture chooses is one of the directory's eight (R141). -/
theorem choose_lt {c : Capture} {e : Nat} (h : c.choose = some e) : e < 8 := by
  unfold Capture.choose at h
  split at h
  · rename_i found
    obtain rfl := Option.some.inj h
    exact List.mem_range.mp (List.mem_of_find?_eq_some found)
  · rcases foldl_chosen (fun best e => keeps_or_takes best e _) h with start | usable
    · exact absurd start nofun
    · exact List.mem_range.mp (List.mem_of_mem_filter usable)

theorem copierRun_entry (p : Part) (e : Nat) : (copierRun p).capture.entry e = p.capture.entry e := by
  rw [copierRun_entries]
  rfl

theorem copierRun_nextNumber (p : Part) : (copierRun p).capture.nextNumber = p.capture.nextNumber := by
  rw [copierRun_entries]

theorem copierRun_driveTimer (p : Part) : (copierRun p).capture.driveTimer = p.capture.driveTimer := by
  rw [copierRun_entries]

theorem driveCapt_entry (drive : Bool) (c : Capture) (e : Nat) : (driveCapt drive c).entry e = c.entry e := by
  cases drive <;> rfl

theorem driveCapt_nextNumber (drive : Bool) (c : Capture) : (driveCapt drive c).nextNumber = c.nextNumber := by
  cases drive <;> rfl

theorem driveCapt_driveTimer (drive : Bool) (c : Capture) :
    (driveCapt drive c).driveTimer = if drive then some 50 else c.driveTimer := by
  cases drive <;> rfl

theorem Capture.entry_of_getElem {c : Capture} {e : Nat} {x : CaptureEntry}
    (h : c.entries[e]? = some (some x)) : c.entry e = some x := by
  rw [Capture.entry, h]
  rfl

/-- A capture that starts in an entry: the entry filled as OPEN, the next number, and the drive timer by its flag (R141). -/
theorem startIn_capture {e : Nat} (he : e < 8) (t : Trigger) (p : Part) :
    (∃ lost, (startIn e t p).capture.entry e = some (t.entry p.capture.nextNumber lost)) ∧
      (startIn e t p).capture.nextNumber = p.capture.nextNumber + 1 ∧
      (startIn e t p).capture.driveTimer = if t.drive then some 50 else p.capture.driveTimer := by
  refine ⟨⟨_, (copierRun_entry ..).trans ((driveCapt_entry ..).trans
      (Capture.entry_of_getElem (Vector.getElem?_setIfInBounds_self_of_lt he)))⟩,
    (copierRun_nextNumber _).trans (driveCapt_nextNumber ..), (copierRun_driveTimer _).trans (driveCapt_driveTimer ..)⟩

/-- It names its number in the entry of the mark that asked for it (R118). -/
theorem startIn_hire (e : Nat) (t : Trigger) (p : Part) :
    (startIn e t p).hire = p.hire.nameCapture t.mark p.capture.nextNumber :=
  (congrArg Part.hire (copierRun_uncaptured _) :)

/-- A trigger that finds no capture OPEN, numbers left and an entry to fill starts there (R140, R141). -/
theorem takeTrigger_starts {t : Trigger} {p : Part} {e : Nat} (ho : p.capture.anyOpen = false)
    (hn : p.capture.nextNumber ≠ exhausted) (hc : p.capture.choose = some e) :
    (takeTrigger t p).1 = startIn e t p := by
  simp only [takeTrigger, ho, Bool.not_false, if_true, startCapture, hn, if_false, hc]

/-- A trigger leaves the hire as it is, or names a capture in it. -/
theorem takeTrigger_hire (t : Trigger) (p : Part) :
    (takeTrigger t p).1.hire = p.hire ∨ ∃ number, (takeTrigger t p).1.hire = p.hire.nameCapture t.mark number := by
  unfold takeTrigger
  split
  · unfold startCapture
    split
    · exact .inl rfl
    · split
      · exact .inl rfl
      · exact .inr ⟨_, startIn_hire _ t p⟩
  · split <;> exact .inl rfl

/-! ## Marks (R73, R117, R118) -/

/-- The part with a mark counted in the slot and in the open hire, before the capture it may ask for (R117). -/
def Part.noted (kind : Cause) (magnitude : Int) (p : Part) : Part :=
  { markSlot kind p with
    hire := { (markSlot kind p).hire with
      current := (markSlot kind p).hire.current.map (·.mark
        { kind, clock := p.modeCtl.clock, slot := p.slotOfKind kind.slotKind, magnitude, capture := none }) } }

/-- The capture settings of an abuse kind (R114). -/
def Part.abuseCapture (p : Part) (kind : Cause) : AbuseCapture := p.modeCtl.active.limits.abuse[kind.num]?.getD {}

/-- The trigger that a mark makes (R118, R137). -/
def Part.markTrigger (kind : Cause) (magnitude : Int) (p : Part) : Trigger :=
  triggerRecord kind (p.abuseCapture kind).pre (p.abuseCapture kind).post (p.abuseCapture kind).drive p.hire.markReference
    (p.noted kind magnitude)

theorem makeMark_captured {kind : Cause} {p : Part} (h : (p.abuseCapture kind).capture = true) (magnitude : Int) :
    makeMark kind magnitude p = (takeTrigger (p.markTrigger kind magnitude) (p.noted kind magnitude)).1 :=
  if_pos h

theorem makeMark_uncaptured {kind : Cause} {p : Part} (h : (p.abuseCapture kind).capture = false) (magnitude : Int) :
    makeMark kind magnitude p = p.noted kind magnitude :=
  if_neg (Bool.eq_false_iff.mp h)

/-- What no trigger changes is after a mark as the mark's counting left it. -/
theorem makeMark_untriggered (kind : Cause) (magnitude : Int) (p : Part) :
    (makeMark kind magnitude p).untriggered = (p.noted kind magnitude).untriggered := by
  cases h : (p.abuseCapture kind).capture with
  | true => rw [makeMark_captured h, takeTrigger_untriggered]
  | false => rw [makeMark_uncaptured h]

section
variable {kind : Cause} {p : Part} {n : Nat}

theorem markSlot_of_some (hk : p.slotOfKind kind.slotKind = some n) {c : Component} (hs : p.slot n = some c) :
    markSlot kind p =
      (p.setSlot n (some { c with abuse := raiseAbuse c.abuse kind })).setStorage
        { p.storage with archive := p.storage.archive.map (·.countMark n kind) } := by
  simp only [markSlot, hk, hs]

theorem markSlot_of_none (hk : p.slotOfKind kind.slotKind = none) : markSlot kind p = p := by
  simp only [markSlot, hk]

/-- The slot of a mark, with its count raised (R117). -/
theorem makeMark_slot (hk : p.slotOfKind kind.slotKind = some n) {c : Component} (hs : p.slot n = some c)
    (magnitude : Int) :
    (makeMark kind magnitude p).slot n = some { c with abuse := raiseAbuse c.abuse kind } := by
  have register := congrArg Part.register (makeMark_untriggered kind magnitude p)
  have counted : (makeMark kind magnitude p).register = (markSlot kind p).register := register
  rw [Part.slot, counted, markSlot_of_some hk hs]
  exact Part.setSlot_slot p (slot_lt hs) _

/-- A mark leaves the other slots. -/
theorem makeMark_slot_other (hk : p.slotOfKind kind.slotKind ≠ some n) (magnitude : Int) :
    (makeMark kind magnitude p).slot n = p.slot n := by
  have register := congrArg Part.register (makeMark_untriggered kind magnitude p)
  have counted : (makeMark kind magnitude p).register = (markSlot kind p).register := register
  rw [Part.slot, counted]
  cases owner : p.slotOfKind kind.slotKind with
  | none =>
    rw [markSlot_of_none owner]
    rfl
  | some k =>
    obtain ⟨c, hs⟩ := slotOfKind_slot owner
    rw [markSlot_of_some owner hs]
    exact Part.setSlot_slot_other p (fun same => hk (by rw [owner, same])) _

/-- A mark during the archive write of its slot is counted to the new component (R73, R117). -/
theorem makeMark_archive (hk : p.slotOfKind kind.slotKind = some n) (magnitude : Int) :
    (makeMark kind magnitude p).storage.archive = p.storage.archive.map (·.countMark n kind) := by
  have archive := congrArg (·.storage.archive) (makeMark_untriggered kind magnitude p)
  obtain ⟨c, hs⟩ := slotOfKind_slot hk
  have counted : (makeMark kind magnitude p).storage.archive = (markSlot kind p).storage.archive := archive
  rw [counted, markSlot_of_some hk hs]
  rfl

end

/-- The part without what a mark changes. -/
def Part.unmarked (p : Part) : Part :=
  { p with
    register := { p.register with slots := Vector.replicate 12 none }, capture := {}
    hire := { p.hire with current := none }, storage := { p.storage with archive := [], captureJobs := [] } }

theorem noted_unmarked (kind : Cause) (magnitude : Int) (p : Part) : (p.noted kind magnitude).unmarked = p.unmarked := by
  unfold Part.noted markSlot
  split
  · rfl
  · split <;> rfl

theorem makeMark_unmarked (kind : Cause) (magnitude : Int) (p : Part) : (makeMark kind magnitude p).unmarked = p.unmarked := by
  have noted := congrArg Part.unmarked (makeMark_untriggered kind magnitude p)
  exact noted.trans (noted_unmarked kind magnitude p)

/-- The open hire with a mark in it (R117). -/
theorem noted_hire (kind : Cause) (magnitude : Int) (p : Part) :
    (p.noted kind magnitude).hire =
      { p.hire with
        current := p.hire.current.map (·.mark
          { kind, clock := p.modeCtl.clock, slot := p.slotOfKind kind.slotKind, magnitude, capture := none }) } := by
  have hire : (markSlot kind p).hire = p.hire := by
    unfold markSlot
    split
    · rfl
    · split <;> rfl
  simp only [Part.noted, hire]

theorem noted_capture (kind : Cause) (magnitude : Int) (p : Part) : (p.noted kind magnitude).capture = p.capture := by
  unfold Part.noted markSlot
  split
  · rfl
  · split <;> rfl

end Sys2Proof.Machine
end

section
/-! The judgement of the interval kinds (R113 to R117). -/

namespace Sys2Proof.Machine

/-! ## Conditions (R115) -/

theorem overspeed_condition (p : Part) (v : Int) :
    abuseCondition .overspeed p = some v ↔
      p.usableValue roleEngineSpeed = some v ∧ (p.modeCtl.active.limits.overspeedSpeed : Int) < v := by
  simp only [abuseCondition]
  cases p.usableValue roleEngineSpeed <;> grind

theorem coldLoad_condition (p : Part) (v : Int) :
    abuseCondition .coldLoad p = some v ↔
      p.usableValue roleCoolant = some v ∧ v < p.modeCtl.active.limits.coldCoolant ∧
        ∃ torque, p.usableValue roleTorque = some torque ∧ (p.modeCtl.active.limits.coldTorque : Int) ≤ torque := by
  simp only [abuseCondition]
  cases p.usableValue roleCoolant <;> cases p.usableValue roleTorque <;> grind

theorem lugging_condition (p : Part) (v : Int) :
    abuseCondition .lugging p = some v ↔
      p.detector.engine = .running ∧ p.usableValue roleEngineSpeed = some v ∧
        v < p.modeCtl.active.limits.luggingSpeed ∧
        ∃ torque, p.usableValue roleTorque = some torque ∧ (p.modeCtl.active.limits.luggingTorque : Int) ≤ torque := by
  simp only [abuseCondition]
  cases p.usableValue roleEngineSpeed <;> cases p.usableValue roleTorque <;> grind

/-! ## What one kind's judgement reads and writes -/

/-- The kinds judged at an interval expiry (R113). -/
abbrev intervalKinds : List Cause := [.overspeed, .coldLoad, .lugging]

/-- What the judgement of an interval kind reads and writes: its condition and duration, its episode, the ENGINE slot and
its count in each slot. -/
structure AbuseView where
  condition : Option Int
  duration : Nat
  episode : Episode
  owner : Option Nat
  count : Nat → Option (Option Nat)

/-- The view with an episode record given. -/
def Part.viewWith (p : Part) (kind : Cause) (e : Episode) : AbuseView where
  condition := abuseCondition kind p
  duration := abuseDuration kind p.modeCtl.active.limits
  episode := e
  owner := p.slotOfKind .engine
  count := fun n => (p.slot n).map (·.abuse[kind.num]?)

def Part.abuseView (p : Part) (kind : Cause) : AbuseView := p.viewWith kind (p.hire.episode kind)

/-- The run count of an episode that goes on (R115). -/
def AbuseView.nextRun (v : AbuseView) : Nat := min v.duration (v.episode.run + 1)

/-- The episode is marked at this expiry (R115). -/
def AbuseView.marks (v : AbuseView) : Bool := v.condition.isSome && !v.episode.marked && v.nextRun == v.duration

/-- The episode that goes on with a value (R115). -/
def AbuseView.going (kind : Cause) (x : Int) (v : AbuseView) : Episode :=
  { v.episode with run := v.nextRun, extreme := some (extremeOf kind v.episode.extreme x) }

/-- The judgement of one interval kind, on what it reads and writes, with the reference a mark made now gets (R115,
R117). -/
def AbuseView.judged (kind : Cause) (reference : Option (Nat × Nat)) (v : AbuseView) : AbuseView :=
  match v.condition with
  | none => { v with episode := {} }
  | some x =>
    { v with
      episode := if v.marks then { v.going kind x with marked := true, mark := reference } else v.going kind x
      count := fun n => if v.marks ∧ v.owner = some n then (v.count n).map (·.map (addSat max16 · 1)) else v.count n }

/-! ## What a mark does to it -/

theorem raiseAbuse_getElem? (counts : Vector Nat 4) (kind : Cause) (k : Nat) :
    (raiseAbuse counts kind)[k]? = if k = kind.num then counts[k]?.map (addSat max16 · 1) else counts[k]? := by
  unfold raiseAbuse
  by_cases same : k = kind.num
  · subst same
    by_cases inside : kind.num < 4
    · simp [inside]
    · simp [inside]
  · simp [same, Ne.symm same]

section
variable {kind : Cause}

/-- A kind judged at an interval expiry marks the ENGINE slot (R117). -/
theorem slotKind_of_interval (h : kind ∈ intervalKinds) : kind.slotKind = .engine := by
  cases kind <;> simp_all [Cause.slotKind]

theorem num_of_interval (h : kind ∈ intervalKinds) : kind.num < 4 := by
  cases kind <;> simp_all [Cause.num]

theorem episode_setEpisode (h : kind ∈ intervalKinds) (hire : Hire) (e : Episode) :
    (hire.setEpisode kind e).episode kind = e := by
  cases kind <;> simp_all [Hire.setEpisode, Hire.episode]

theorem episode_setEpisode_other {other : Cause} (h : other ≠ kind) (hire : Hire) (e : Episode) :
    (hire.setEpisode kind e).episode other = hire.episode other := by
  cases kind <;> cases other <;> simp_all [Hire.setEpisode, Hire.episode]

/-- The episodes do not stand in the open hire's record. -/
theorem episode_of_others {g h : Hire} (same : ({ g with current := none } : Hire) = { h with current := none })
    (kind : Cause) : g.episode kind = h.episode kind := by
  have records := congrArg (·.episode kind) same
  cases kind <;> exact records

theorem makeMark_episode (made kind : Cause) (magnitude : Int) (p : Part) :
    (makeMark made magnitude p).hire.episode kind = p.hire.episode kind :=
  episode_of_others (congrArg Part.hire (makeMark_unmarked made magnitude p)) kind

theorem makeMark_condition (made kind : Cause) (magnitude : Int) (p : Part) :
    abuseCondition kind (makeMark made magnitude p) = abuseCondition kind p :=
  (congrArg (abuseCondition kind) (makeMark_unmarked made magnitude p) :)

theorem makeMark_active (made : Cause) (magnitude : Int) (p : Part) :
    (makeMark made magnitude p).modeCtl.active = p.modeCtl.active :=
  (congrArg (·.modeCtl.active) (makeMark_unmarked made magnitude p) :)

/-- A mark's count in a slot: one more, in the ENGINE slot and for its kind (R117). -/
theorem makeMark_count {made : Cause} (h : made ∈ intervalKinds) (kind : Cause) (magnitude : Int) (p : Part) (n : Nat) :
    ((makeMark made magnitude p).slot n).map (·.abuse[kind.num]?) =
      if kind.num = made.num ∧ p.slotOfKind .engine = some n then
        ((p.slot n).map (·.abuse[kind.num]?)).map (·.map (addSat max16 · 1))
      else (p.slot n).map (·.abuse[kind.num]?) := by
  by_cases owner : p.slotOfKind .engine = some n
  · obtain ⟨c, hs⟩ := slotOfKind_slot owner
    rw [← slotKind_of_interval h] at owner
    simp only [makeMark_slot owner hs, hs, Option.map_some, raiseAbuse_getElem?, and_true,
      slotKind_of_interval h ▸ owner]
    split <;> rfl
  · rw [makeMark_slot_other (by rwa [slotKind_of_interval h])]
    simp only [owner, and_false, if_false]

end

/-! ## One kind judged (R115) -/

section
variable {kind : Cause}

/-- A mark, seen for any kind: its own kind's count in the ENGINE slot. -/
theorem makeMark_viewWith {made : Cause} (h : made ∈ intervalKinds) (kind : Cause) (magnitude : Int) (p : Part)
    (e : Episode) :
    (makeMark made magnitude p).viewWith kind e =
      { p.viewWith kind e with
        count := fun n =>
          if kind.num = made.num ∧ p.slotOfKind .engine = some n then
            ((p.viewWith kind e).count n).map (·.map (addSat max16 · 1))
          else (p.viewWith kind e).count n } := by
  have count := funext (makeMark_count h kind magnitude p)
  simp only [Part.viewWith, makeMark_condition, makeMark_active, count,
    slotOfKind_of_still (makeMark_still made magnitude p)]

/-- The view of a part whose hire alone is another. -/
theorem abuseView_hire (p : Part) (hire : Hire) (kind : Cause) :
    ({ p with hire } : Part).abuseView kind = p.viewWith kind (hire.episode kind) := rfl

theorem judgeKind_of_none {p : Part} (hc : abuseCondition kind p = none) :
    judgeKind kind p = { p with hire := p.hire.setEpisode kind {} } := by
  simp only [judgeKind, hc]

/-- A kind whose condition holds: its episode is marked and goes on, or is marked now, or goes on unmarked (R115). -/
theorem judgeKind_of_some {p : Part} {v : Int} (hc : abuseCondition kind p = some v) :
    judgeKind kind p =
      let extreme := extremeOf kind (p.hire.episode kind).extreme v
      let marked := makeMark kind extreme p
      if (p.hire.episode kind).marked then
        { p with
          hire :=
            Hire.setEpisode
              (if (p.hire.episode kind).extreme = some extreme then p.hire
              else p.hire.moveMagnitude (p.hire.episode kind).mark extreme)
              kind ((p.abuseView kind).going kind v) }
      else if (p.abuseView kind).nextRun = (p.abuseView kind).duration then
        { marked with
          hire := marked.hire.setEpisode kind
            { (p.abuseView kind).going kind v with marked := true, mark := p.hire.markReference } }
      else { p with hire := p.hire.setEpisode kind ((p.abuseView kind).going kind v) } := by
  unfold judgeKind
  rw [hc]
  rfl

section
variable {reference : Option (Nat × Nat)} {v : AbuseView} {x : Int}

theorem judged_of_none (h : v.condition = none) : v.judged kind reference = { v with episode := {} } := by
  simp only [AbuseView.judged, h]

theorem judged_of_unmarked (h : v.condition = some x) (hm : v.marks = false) :
    v.judged kind reference = { v with episode := v.going kind x } := by
  unfold AbuseView.judged
  rw [h]
  simp [hm]

theorem judged_of_marks (h : v.condition = some x) (hm : v.marks = true) :
    v.judged kind reference =
      { v with
        episode := { v.going kind x with marked := true, mark := reference }
        count := fun n => if v.owner = some n then (v.count n).map (·.map (addSat max16 · 1)) else v.count n } := by
  unfold AbuseView.judged
  rw [h]
  simp [hm]

theorem judged_count (n : Nat) :
    (v.judged kind reference).count n =
      if v.marks ∧ v.owner = some n then (v.count n).map (·.map (addSat max16 · 1)) else v.count n := by
  unfold AbuseView.judged
  split
  · rename_i h
    simp [AbuseView.marks, h]
  · rfl

theorem marks_iff (h : v.condition = some x) : v.marks = true ↔ v.episode.marked = false ∧ v.nextRun = v.duration := by
  simp [AbuseView.marks, h]

end

theorem judgeKind_view (h : kind ∈ intervalKinds) (p : Part) :
    (judgeKind kind p).abuseView kind = (p.abuseView kind).judged kind p.hire.markReference := by
  cases hc : abuseCondition kind p with
  | none =>
    rw [judgeKind_of_none hc, judged_of_none (v := p.abuseView kind) hc, abuseView_hire, episode_setEpisode h]
    rfl
  | some x =>
    have marks := marks_iff (v := p.abuseView kind) hc
    rw [judgeKind_of_some hc]
    dsimp only
    split
    · rename_i marked
      have unmarked : (p.abuseView kind).marks = false :=
        Bool.eq_false_iff.mpr fun now => absurd ((marks.mp now).1.symm.trans marked) Bool.false_ne_true
      rw [abuseView_hire, episode_setEpisode h, judged_of_unmarked hc unmarked]
      rfl
    · rename_i fresh
      split
      · rename_i reached
        rw [abuseView_hire, episode_setEpisode h, judged_of_marks hc (marks.mpr ⟨Bool.eq_false_iff.mpr fresh, reached⟩),
          makeMark_viewWith h]
        simp only [true_and]
        rfl
      · rename_i short
        rw [abuseView_hire, episode_setEpisode h,
          judged_of_unmarked hc (Bool.eq_false_iff.mpr fun now => short (marks.mp now).2)]
        rfl

theorem moveMagnitude_episode (hire : Hire) (mark : Option (Nat × Nat)) (extreme : Int) (kind : Cause) :
    (hire.moveMagnitude mark extreme).episode kind = hire.episode kind := by
  refine episode_of_others ?_ kind
  cases mark <;> rfl

/-- The judgement of a kind leaves what another kind's reads and writes. -/
theorem judgeKind_view_other {other : Cause} (h : kind ∈ intervalKinds) (different : other.num ≠ kind.num) (p : Part) :
    (judgeKind kind p).abuseView other = p.abuseView other := by
  have others : other ≠ kind := fun same => different (congrArg Cause.num same)
  cases hc : abuseCondition kind p with
  | none => rw [judgeKind_of_none hc, abuseView_hire, episode_setEpisode_other others, Part.abuseView]
  | some x =>
    rw [judgeKind_of_some hc]
    dsimp only
    split
    · rw [abuseView_hire, episode_setEpisode_other others]
      split
      · rfl
      · rw [moveMagnitude_episode, Part.abuseView]
    · split
      · rw [abuseView_hire, episode_setEpisode_other others, makeMark_viewWith h, makeMark_episode]
        simp only [different, false_and, if_false]
        rfl
      · rw [abuseView_hire, episode_setEpisode_other others, Part.abuseView]

end

/-! ## The interval expiry (R85, R115) -/

/-- A credit counts no mark. -/
theorem credit_abuse (c : Component) (a : Credit) : (c.credit a).abuse = c.abuse := by
  unfold Component.credit
  split
  · cases h : a.place <;> simp only [Component.creditFigures, h] <;> rfl
  · rfl

/-- The slot's counts of marks, through a credit. -/
theorem creditSlot_abuse (n m : Nat) (a : Credit) (p : Part) :
    ((creditSlot n a p).slot m).map (·.abuse) = (p.slot m).map (·.abuse) := by
  cases hs : p.slot n with
  | none => simp only [creditSlot, hs]
  | some c =>
    rw [creditSlot_of_some a hs]
    by_cases same : m = n
    · subst same
      have written := Part.setSlot_slot p (slot_lt hs) (some (c.credit a))
      exact (congrArg _ written).trans (by rw [hs, Option.map_some, Option.map_some, credit_abuse])
    · exact congrArg _ (Part.setSlot_slot_other p same (some (c.credit a)))

/-- A credit leaves a part's episodes: they do not stand in the open hire's record. -/
theorem creditSlot_episode (n : Nat) (a : Credit) (p : Part) (kind : Cause) :
    (creditSlot n a p).hire.episode kind = p.hire.episode kind := by
  unfold creditSlot
  split
  · rfl
  · exact episode_of_others rfl kind

theorem creditSlot_condition (n : Nat) (a : Credit) (p : Part) (kind : Cause) :
    abuseCondition kind (creditSlot n a p) = abuseCondition kind p := by
  unfold creditSlot
  split <;> rfl

theorem creditSlot_active (n : Nat) (a : Credit) (p : Part) : (creditSlot n a p).modeCtl.active = p.modeCtl.active := by
  unfold creditSlot
  split <;> rfl

theorem creditSlot_view (n : Nat) (a : Credit) (p : Part) (kind : Cause) :
    (creditSlot n a p).abuseView kind = p.abuseView kind := by
  have count : ∀ m, ((creditSlot n a p).slot m).map (·.abuse[kind.num]?) = (p.slot m).map (·.abuse[kind.num]?) := by
    intro m
    have counts := congrArg (Option.map (·[kind.num]?)) (creditSlot_abuse n m a p)
    rw [Option.map_map, Option.map_map] at counts
    exact counts
  simp only [Part.abuseView, Part.viewWith, creditSlot_episode, creditSlot_condition, creditSlot_active,
    slotOfKind_of_still (creditSlot_still n a p), funext count]

theorem setRunning_view (n : Nat) (b : Bool) (p : Part) (kind : Cause) :
    (setRunning n b p).abuseView kind = p.abuseView kind := rfl

theorem countPeriod_view (p : Part) (kind : Cause) : (countPeriod p).abuseView kind = p.abuseView kind := by
  unfold countPeriod
  split <;> rfl

theorem creditInterval_view (kind : Cause) (p : Part) (n : Nat) :
    (creditInterval n p).abuseView kind = p.abuseView kind := by
  unfold creditInterval
  split
  · rfl
  · split
    · rfl
    · split
      · dsimp only
        split
        · rw [countPeriod_view, setRunning_view, creditSlot_view]
        · rw [setRunning_view, creditSlot_view]
      · rw [setRunning_view]

theorem creditAll_view (p : Part) (kind : Cause) : (creditAll p).abuseView kind = p.abuseView kind :=
  foldl_keeps (·.abuseView kind) (creditInterval_view kind) _ p

/-- An interval kind is judged between two parts. -/
def Part.JudgedAs (kind : Cause) (p q : Part) : Prop :=
  ∃ reference, q.abuseView kind = (p.abuseView kind).judged kind reference

theorem judgeInterval_judges {kind : Cause} (h : kind ∈ intervalKinds) (p : Part) : p.JudgedAs kind (judgeInterval p) := by
  cases kind with
  | overspeed =>
    refine ⟨p.hire.markReference, ?_⟩
    rw [judgeInterval, judgeKind_view_other (by decide) (by decide), judgeKind_view_other (by decide) (by decide),
      judgeKind_view h]
  | coldLoad =>
    refine ⟨(judgeKind .overspeed p).hire.markReference, ?_⟩
    rw [judgeInterval, judgeKind_view_other (by decide) (by decide), judgeKind_view h,
      judgeKind_view_other (by decide) (by decide)]
  | lugging =>
    refine ⟨(judgeKind .coldLoad (judgeKind .overspeed p)).hire.markReference, ?_⟩
    rw [judgeInterval, judgeKind_view h, judgeKind_view_other (by decide) (by decide),
      judgeKind_view_other (by decide) (by decide)]
  | _ => simp at h

theorem settle_view (m : Medium) (p : Part) (kind : Cause) : (settle m p).abuseView kind = p.abuseView kind :=
  settle_keeps (·.abuseView kind) (fun _ => rfl) m p

theorem wear_view (p : Part) (wear : Wear) (kind : Cause) :
    ({ p with wear } : Part).abuseView kind = p.abuseView kind := rfl

theorem expireInterval_judges {kind : Cause} (h : kind ∈ intervalKinds) {p : Part} (hm : p.modeCtl.mode = .active) :
    p.JudgedAs kind (expireInterval p) := by
  have active : expireInterval p = judgeInterval (creditAll { p with wear := { p.wear with timer := some 1000 } }) := if_pos hm
  obtain ⟨reference, judged⟩ := judgeInterval_judges h (creditAll { p with wear := { p.wear with timer := some 1000 } })
  exact ⟨reference, by rw [active, judged, creditAll_view, wear_view]⟩

/-- An interval expiry in ACTIVE judges each interval kind as it stands before it (R85, R115). -/
theorem intervalExpiry_judges {s : State} (ha : s.part.awake = true) (ht : s.part.wear.timer.isSome = true)
    (hm : s.part.modeCtl.mode = .active) :
    ∃ t, exec .intervalExpiry s = .next t ∧ ∀ kind ∈ intervalKinds, s.part.JudgedAs kind t.part := by
  obtain ⟨-, -, -, restored⟩ := awake_parts ha
  have expired : (if s.part.wear.timer.isSome then expireInterval s.part else s.part) = expireInterval s.part := if_pos ht
  have restore : (expireInterval s.part).restore = none :=
    (keeps_of_still Part.restore (fun _ => rfl) (expireInterval_still s.part)).trans restored
  refine ⟨_, runAwake_eq _ ha (by rw [expired, restore]), fun kind h => ?_⟩
  obtain ⟨reference, judged⟩ := expireInterval_judges h hm
  exact ⟨reference, by rw [settle_view, expired, judged]⟩

section
variable {kind : Cause} {p q : Part}

/-- An interval kind's condition fails: its episode ends (R115). -/
theorem Part.JudgedAs.ends (h : p.JudgedAs kind q) (hc : abuseCondition kind p = none) : q.hire.episode kind = {} := by
  obtain ⟨reference, judged⟩ := h
  rw [judged_of_none hc] at judged
  exact congrArg AbuseView.episode judged

/-- An interval kind's condition holds: its episode goes on, and is marked as its run asks (R115). -/
theorem Part.JudgedAs.goes {v : Int} (h : p.JudgedAs kind q) (hc : abuseCondition kind p = some v) :
    (q.hire.episode kind).run = (p.abuseView kind).nextRun ∧
      (q.hire.episode kind).marked = ((p.hire.episode kind).marked || (p.abuseView kind).marks) ∧
      (q.hire.episode kind).extreme = some (extremeOf kind (p.hire.episode kind).extreme v) := by
  obtain ⟨reference, judged⟩ := h
  cases marks : (p.abuseView kind).marks with
  | true =>
    rw [judged_of_marks hc marks] at judged
    have episode : q.hire.episode kind = _ := congrArg AbuseView.episode judged
    rw [episode]
    exact ⟨rfl, (Bool.or_true _).symm, rfl⟩
  | false =>
    rw [judged_of_unmarked hc marks] at judged
    have episode : q.hire.episode kind = _ := congrArg AbuseView.episode judged
    rw [episode]
    exact ⟨rfl, (Bool.or_false _).symm, rfl⟩

/-- The ENGINE slot's count rises by 1 with a mark and stands without one (R117). -/
theorem Part.JudgedAs.count {n : Nat} {c : Component} (h : p.JudgedAs kind q) (hk : p.slotOfKind .engine = some n)
    (hs : p.slot n = some c) :
    ∃ c', q.slot n = some c' ∧
      c'.abuse[kind.num]? = c.abuse[kind.num]?.map fun x => if (p.abuseView kind).marks then min 65535 (x + 1) else x := by
  obtain ⟨reference, judged⟩ := h
  have count : (q.slot n).map (·.abuse[kind.num]?) = ((p.abuseView kind).judged kind reference).count n :=
    congrArg (AbuseView.count · n) judged
  have owner : (p.abuseView kind).owner = some n := hk
  have stood : (p.abuseView kind).count n = some c.abuse[kind.num]? := congrArg (Option.map _) hs
  rw [judged_count, owner, stood] at count
  cases marks : (p.abuseView kind).marks with
  | true =>
    obtain ⟨c', slot, raised⟩ := Option.map_eq_some_iff.mp (count.trans (if_pos ⟨marks, rfl⟩))
    exact ⟨c', slot, raised⟩
  | false =>
    obtain ⟨c', slot, kept⟩ := Option.map_eq_some_iff.mp (count.trans (if_neg fun now => absurd now.1 (by simp [marks])))
    exact ⟨c', slot, by simpa using kept⟩

end

end Sys2Proof.Machine
end

section
/-! What a mark leaves in the slot, the open hire and the Capture Unit, and a moved extreme (R73, R115, R117, R118, R141). -/

namespace Sys2Proof.Machine

theorem slotKind_eq (kind : Cause) : kind.slotKind = if kind = .hotEngagement then .clutch else .engine := by
  cases kind <;> rfl

/-! ## Marks in the open hire (R117) -/

/-- The entry of a mark in the open hire's list (R102). -/
def Part.markEntry (kind : Cause) (magnitude : Int) (p : Part) : AbuseEntry :=
  { kind, clock := p.modeCtl.clock, slot := p.slotOfKind kind.slotKind, magnitude, capture := none }

section
variable {r : HireRecord} {e : AbuseEntry}

theorem mark_of_room (h : r.abuseList.length < 16) :
    r.mark e = { r with abuse := raiseAbuse r.abuse e.kind, abuseList := r.abuseList ++ [e] } := if_pos h

theorem mark_eq (r : HireRecord) (e : AbuseEntry) :
    r.mark e =
      if r.abuseList.length < 16 then { r with abuse := raiseAbuse r.abuse e.kind, abuseList := r.abuseList ++ [e] }
      else { r with abuse := raiseAbuse r.abuse e.kind, overflow := true } := rfl

theorem markReference_of_room {h : Hire} (hc : h.current = some r) (room : r.abuseList.length < 16) :
    h.markReference = some (r.number, r.abuseList.length) := by
  simp only [Hire.markReference, hc]
  exact if_pos room

/-- A capture named by the reference of the last entry stands in that entry (R118). -/
theorem nameCapture_last {h : Hire} (number : Nat) (entries : List AbuseEntry)
    (hc : h.current = some { r with abuseList := entries ++ [e] }) :
    (h.nameCapture (some (r.number, entries.length)) number).current =
      some { r with abuseList := entries ++ [{ e with capture := some number }] } := by
  have last : (entries ++ [e]).modify entries.length (fun x => { x with capture := some number }) =
      entries ++ [{ e with capture := some number }] := by
    simp [List.modify_eq_set_getElem?]
  simp only [Hire.nameCapture, hc, Option.map_some, if_true, last]

end

section
variable {kind : Cause} {magnitude : Int} {p : Part}

theorem noted_hire_of_none (h : p.hire.current = none) : (p.noted kind magnitude).hire = p.hire := by
  rw [noted_hire, h, Option.map_none, ← h]

theorem noted_hire_of_some {r : HireRecord} (h : p.hire.current = some r) :
    (p.noted kind magnitude).hire = { p.hire with current := some (r.mark (p.markEntry kind magnitude)) } := by
  rw [noted_hire, h, Option.map_some]
  rfl

theorem noted_clock : (p.noted kind magnitude).modeCtl = p.modeCtl :=
  (congrArg Part.modeCtl (noted_unmarked kind magnitude p) :)

theorem noted_ring : (p.noted kind magnitude).ring = p.ring :=
  (congrArg Part.ring (noted_unmarked kind magnitude p) :)

/-- The archive write at the head, its slot marked (R73). -/
theorem makeMark_archive_head {n : Nat} (hk : p.slotOfKind kind.slotKind = some n) {record : ArchiveRecord}
    {events time units : Nat} {marks : Vector Nat 4} {rest : List ArchiveJob}
    (ha : p.storage.archive = .component record events time units marks :: rest) (hr : record.slot = n) :
    (makeMark kind magnitude p).storage.archive.head? =
      some (.component record events time units (raiseAbuse marks kind)) := by
  rw [makeMark_archive hk, ha]
  simp only [List.map_cons, List.head?_cons, ArchiveJob.countMark, hr, if_true]

end

/-! ## A mark that starts a capture (R118, R141) -/

section
variable {kind : Cause} {magnitude : Int} {p : Part} {e : Nat}

/-- A mark whose trigger finds no capture OPEN, numbers left and an entry to fill starts its capture there. -/
theorem makeMark_starts (hf : (p.abuseCapture kind).capture = true) (ho : p.capture.anyOpen = false)
    (hn : p.capture.nextNumber ≠ exhausted) (hc : p.capture.choose = some e) :
    makeMark kind magnitude p = startIn e (p.markTrigger kind magnitude) (p.noted kind magnitude) := by
  have capture : (p.noted kind magnitude).capture = p.capture := noted_capture kind magnitude p
  rw [makeMark_captured hf, takeTrigger_starts (e := e)] <;> rwa [capture]

theorem makeMark_capture (hf : (p.abuseCapture kind).capture = true) (ho : p.capture.anyOpen = false)
    (hn : p.capture.nextNumber ≠ exhausted) (hc : p.capture.choose = some e) :
    (∃ lost, (makeMark kind magnitude p).capture.entry e =
        some ((p.markTrigger kind magnitude).entry p.capture.nextNumber lost)) ∧
      (makeMark kind magnitude p).capture.nextNumber = p.capture.nextNumber + 1 ∧
      (makeMark kind magnitude p).capture.driveTimer =
        if (p.abuseCapture kind).drive then some 50 else p.capture.driveTimer := by
  have started := startIn_capture (choose_lt hc) (p.markTrigger kind magnitude) (p.noted kind magnitude)
  rw [← makeMark_starts hf ho hn hc, noted_capture] at started
  exact started

theorem makeMark_named (hf : (p.abuseCapture kind).capture = true) (ho : p.capture.anyOpen = false)
    (hn : p.capture.nextNumber ≠ exhausted) (hc : p.capture.choose = some e) {r : HireRecord}
    (hr : p.hire.current = some r) (room : r.abuseList.length < 16) :
    (makeMark kind magnitude p).hire.current = some
      { r with
        abuse := raiseAbuse r.abuse kind
        abuseList := r.abuseList ++ [{ p.markEntry kind magnitude with capture := some p.capture.nextNumber }] } := by
  have reference : (p.markTrigger kind magnitude).mark = some (r.number, r.abuseList.length) :=
    markReference_of_room hr room
  rw [makeMark_starts hf ho hn hc, startIn_hire, reference, noted_capture, noted_hire_of_some hr, mark_of_room room]
  exact nameCapture_last (r := { r with abuse := raiseAbuse r.abuse kind }) p.capture.nextNumber r.abuseList rfl

end

/-! ## The entries of a list, but for their captures -/

/-- What an abuse entry says of its mark. -/
def AbuseEntry.facts (x : AbuseEntry) : Cause × Option Nat × Int := (x.kind, x.slot, x.magnitude)

/-- Naming a capture changes no other fact of the list. -/
theorem nameCapture_facts (h : Hire) (mark : Option (Nat × Nat)) (number : Nat) {r : HireRecord} (hr : h.current = some r) :
    ∃ r', (h.nameCapture mark number).current = some r' ∧ r'.abuseList.map AbuseEntry.facts = r.abuseList.map AbuseEntry.facts := by
  cases mark with
  | none => exact ⟨r, hr, rfl⟩
  | some reference =>
    simp only [Hire.nameCapture, hr, Option.map_some]
    split
    · refine ⟨_, rfl, List.ext_getElem? fun i => ?_⟩
      rw [List.getElem?_map, List.getElem?_modify, List.getElem?_map]
      split <;> cases r.abuseList[i]? <;> rfl
    · exact ⟨r, rfl, rfl⟩

/-- A mark adds its entry to the open hire's list while the list has room (R117). -/
theorem makeMark_facts {kind : Cause} {p : Part} {r : HireRecord} (hr : p.hire.current = some r)
    (room : r.abuseList.length < 16) (magnitude : Int) :
    ∃ r', (makeMark kind magnitude p).hire.current = some r' ∧
      r'.abuseList.map AbuseEntry.facts =
        r.abuseList.map AbuseEntry.facts ++ [(kind, p.slotOfKind kind.slotKind, magnitude)] := by
  have noted : (p.noted kind magnitude).hire.current = some (r.mark (p.markEntry kind magnitude)) := by
    rw [noted_hire_of_some hr]
  have facts : (r.mark (p.markEntry kind magnitude)).abuseList.map AbuseEntry.facts =
      r.abuseList.map AbuseEntry.facts ++ [(kind, p.slotOfKind kind.slotKind, magnitude)] := by
    rw [mark_of_room room, List.map_append]
    rfl
  cases h : (p.abuseCapture kind).capture with
  | false => exact ⟨_, (congrArg (·.hire.current) (makeMark_uncaptured h magnitude)).trans noted, facts⟩
  | true =>
    rw [makeMark_captured h]
    rcases takeTrigger_hire (p.markTrigger kind magnitude) (p.noted kind magnitude) with same | ⟨number, named⟩
    · exact ⟨_, (congrArg Hire.current same).trans noted, facts⟩
    · obtain ⟨r', current, kept⟩ := nameCapture_facts _ (p.markTrigger kind magnitude).mark number noted
      exact ⟨r', (congrArg Hire.current named).trans current, kept.trans facts⟩

/-! ## A moved extreme (R115) -/

theorem setEpisode_current (h : Hire) (kind : Cause) (e : Episode) : (h.setEpisode kind e).current = h.current := by
  cases kind <;> rfl

/-- The magnitude of an entry moves in the open hire it was made in. -/
theorem moveMagnitude_current {h : Hire} {r : HireRecord} (hr : h.current = some r) {position : Nat} {old : AbuseEntry}
    (ho : r.abuseList[position]? = some old) (extreme : Int) :
    (h.moveMagnitude (some (r.number, position)) extreme).current =
      some { r with abuseList := r.abuseList.set position { old with magnitude := extreme } } := by
  have moved : r.abuseList.modify position (fun e => { e with magnitude := extreme }) =
      r.abuseList.set position { old with magnitude := extreme } := by
    simp [List.modify_eq_set_getElem?, ho]
  simp only [Hire.moveMagnitude, hr, Option.map_some, if_true, moved]

/-- In a marked episode a moved extreme becomes the magnitude of its entry, and nothing else moves with it. -/
theorem judgeKind_moves {p : Part} {kind : Cause} {v x : Int} {r : HireRecord} {old : AbuseEntry} {position : Nat}
    (hm : (p.hire.episode kind).marked = true) (hx : (p.hire.episode kind).extreme = some x)
    (hp : (p.hire.episode kind).mark = some (r.number, position)) (hr : p.hire.current = some r)
    (ho : r.abuseList[position]? = some old) (hc : abuseCondition kind p = some v)
    (moved : extremeOf kind (some x) v ≠ x) :
    (judgeKind kind p).hire.current =
        some { r with abuseList := r.abuseList.set position { old with magnitude := extremeOf kind (some x) v } } ∧
      (judgeKind kind p).register = p.register ∧ (judgeKind kind p).capture = p.capture := by
  have other : some x ≠ some (extremeOf kind (some x) v) := fun same => moved (Option.some.inj same).symm
  rw [judgeKind_of_some hc]
  simp only [hm, if_true, hx, hp, other, if_false, setEpisode_current, moveMagnitude_current hr ho, and_self]

/-! ## The close of an engagement (R95, R96, R116) -/

/-- The credit of a closed engagement (R96). -/
def Part.engagementPlaced (e : Engagement) (p : Part) : Credit :=
  p.placed .clutch (e.startSpeed.map fun _ => (e.energy : Int)) e.startSpeed (p.usableValue roleCoolant) 1 e.slipTime 1

theorem engagementCredit_of_some {e : Engagement} {p : Part} {n : Nat} {c : Component} (hk : p.slotOfKind .clutch = some n)
    (hs : p.slot n = some c) :
    engagementCredit e p =
      { p.setSlot n (some (c.credit (p.engagementPlaced e))) with hire := p.hire.credit n c (p.engagementPlaced e) } := by
  simp only [engagementCredit, hk, creditSlot_of_some _ hs]
  rfl

theorem engagementCredit_of_none {e : Engagement} {p : Part} (hk : p.slotOfKind .clutch = none) :
    engagementCredit e p = p := by
  simp only [engagementCredit, hk]

theorem binOf_eq (edges : List Int) (v : Int) : binOf edges v = (edges.filter (· ≤ v)).length :=
  List.countP_eq_length_filter

theorem engagementPlaced_of_none {e : Engagement} (p : Part) (h : e.startSpeed = none) :
    p.engagementPlaced e = { events := 1, time := e.slipTime, place := .unbinned 1 } := by
  simp only [Part.engagementPlaced, h]
  rfl

theorem engagementPlaced_of_some {e : Engagement} {v : Int} (p : Part) (h : e.startSpeed = some v) :
    p.engagementPlaced e =
      { events := 1, time := e.slipTime, place := .cell ((p.bins .clutch).cell e.energy v) 1
        wear := ((p.weights .clutch).cells[(p.bins .clutch).cell e.energy v]?).getD 0 *
          factorOf (p.bins .clutch) (p.weights .clutch) (p.usableValue roleCoolant) } := by
  simp only [Part.engagementPlaced, h]
  rfl

theorem engagementCredit_clutch (e : Engagement) (p : Part) : (engagementCredit e p).clutch = p.clutch := by
  cases hk : p.slotOfKind .clutch with
  | none => rw [engagementCredit_of_none hk]
  | some n =>
    obtain ⟨c, hs⟩ := slotOfKind_slot hk
    rw [engagementCredit_of_some hk hs]
    rfl

theorem judgeEngagement_clutch (energy : Nat) (p : Part) : (judgeEngagement energy p).clutch = p.clutch := by
  unfold judgeEngagement
  split
  · exact (congrArg Part.clutch (makeMark_unmarked .hotEngagement energy p) :)
  · rfl

section
variable {p : Part} {e : Engagement}

theorem closeEngagement_of_some (h : p.clutch.engagement = some e) :
    closeEngagement p =
      { judgeEngagement e.energy (engagementCredit e p) with clutch := { p.clutch with engagement := none, carry := 0 } } := by
  simp only [closeEngagement, h, judgeEngagement_clutch, engagementCredit_clutch]

theorem engagementCredit_active (e : Engagement) (p : Part) :
    (engagementCredit e p).modeCtl.active = p.modeCtl.active :=
  keeps_of_still (·.modeCtl.active) (fun _ => rfl) (engagementCredit_still e p)

/-- A role of the clutch is not usable: the engagement closes (R95). -/
theorem evaluateClutch_of_unusable (h : p.clutchRoles = none) : evaluateClutch p = closeEngagement p := by
  simp only [evaluateClutch, h]

/-- In gear 0 the engagement closes (R95). -/
theorem evaluateClutch_of_neutral {engine input torque : Int} (h : p.clutchRoles = some (engine, input, 0, torque)) :
    evaluateClutch p = closeEngagement p := by
  simp only [evaluateClutch, h, if_true]

/-- The engine leaves RUNNING: the engagement closes (R95). -/
theorem changeEngine_closes {engine : EngineState} (h : p.detector.engine = .running) (hr : engine ≠ .running) :
    changeEngine engine p = { closeEngagement p with detector := { p.detector with engine } } := by
  rw [changeEngine_of_running h hr, closeEngagement_detector]

theorem raiseAbuse_hotEngagement (counts : Vector Nat 4) :
    raiseAbuse counts .hotEngagement = counts.set 3 (min 65535 (counts[3] + 1)) := by
  ext i hi
  simp [raiseAbuse, Cause.num, addSat, Vector.getElem_setIfInBounds, Vector.getElem_set]

/-- The CLUTCH slot's counts after the close: one more where the engagement marks (R116, R117). -/
theorem closeEngagement_slot {n : Nat} {c : Component} (he : p.clutch.engagement = some e)
    (hk : p.slotOfKind .clutch = some n) (hs : p.slot n = some c) :
    ∃ c', (closeEngagement p).slot n = some c' ∧
      c'.abuse =
        if p.modeCtl.active.limits.hotEnergy < e.energy then raiseAbuse c.abuse .hotEngagement else c.abuse := by
  have credited : (engagementCredit e p).slot n = some (c.credit (p.engagementPlaced e)) := by
    rw [engagementCredit_of_some hk hs]
    exact Part.setSlot_slot p (slot_lt hs) _
  have owner : (engagementCredit e p).slotOfKind Cause.hotEngagement.slotKind = some n :=
    (slotOfKind_of_still (engagementCredit_still e p) _).trans hk
  have judged : (closeEngagement p).slot n = (judgeEngagement e.energy (engagementCredit e p)).slot n := by
    rw [closeEngagement_of_some he]
    rfl
  rw [judged, judgeEngagement, engagementCredit_active]
  split
  · exact ⟨_, makeMark_slot owner credited _, congrArg (raiseAbuse · _) (credit_abuse c _)⟩
  · exact ⟨_, credited, credit_abuse c _⟩

/-- The open hire's list after the close: one entry more where the engagement marks (R116, R117). -/
theorem closeEngagement_facts {r : HireRecord} (he : p.clutch.engagement = some e) (hr : p.hire.current = some r)
    (room : r.abuseList.length < 16) :
    ∃ r', (closeEngagement p).hire.current = some r' ∧
      r'.abuseList.map AbuseEntry.facts =
        r.abuseList.map AbuseEntry.facts ++
          if p.modeCtl.active.limits.hotEnergy < e.energy then
            [(.hotEngagement, p.slotOfKind .clutch, (e.energy : Int))]
          else [] := by
  have credited : ∃ r', (engagementCredit e p).hire.current = some r' ∧ r'.abuseList = r.abuseList := by
    cases hk : p.slotOfKind .clutch with
    | none => exact ⟨r, by rw [engagementCredit_of_none hk, hr], rfl⟩
    | some n =>
      obtain ⟨c, hs⟩ := slotOfKind_slot hk
      rw [engagementCredit_of_some hk hs]
      exact ⟨_, congrArg (Option.map _) hr, rfl⟩
  have judged : (closeEngagement p).hire = (judgeEngagement e.energy (engagementCredit e p)).hire := by
    rw [closeEngagement_of_some he]
  obtain ⟨r', current, list⟩ := credited
  rw [judged, judgeEngagement, engagementCredit_active]
  split
  · have marked := makeMark_facts (kind := .hotEngagement) current (list ▸ room) e.energy
    rwa [list, slotOfKind_of_still (engagementCredit_still e p)] at marked
  · exact ⟨r', current, by rw [list, List.append_nil]⟩

end

/-- Settles O27: the conditions, the judgement of each interval kind between two parts, the effects of a mark, the move of
a marked extreme, and the close of an engagement. -/
theorem abuseEpisodesAndMarks : Obligations.AbuseEpisodesAndMarks := by
  refine ⟨fun p v => ⟨overspeed_condition p v, coldLoad_condition p v, lugging_condition p v⟩, ?expiry, ?mark, ?extreme, ?close⟩
  case expiry =>
    intro s ha ht hm p run marks
    obtain ⟨t, step, judges⟩ := intervalExpiry_judges ha ht hm
    exact ⟨t, step, fun kind h =>
      ⟨(judges kind h).ends, fun v hc => (judges kind h).goes hc, fun n c hk hs => (judges kind h).count hk hs⟩⟩
  case mark =>
    intro p kind magnitude _ l raised owner entry u
    have owner_eq : owner = p.slotOfKind kind.slotKind := by rw [slotKind_eq]
    have entry_eq : entry = p.markEntry kind magnitude := by simp only [entry, owner_eq, Part.markEntry]
    refine ⟨fun n c hk hs => ⟨makeMark_slot (owner_eq ▸ hk) hs magnitude, fun record events time units marks rest ha hr =>
      makeMark_archive_head (owner_eq ▸ hk) ha hr⟩, fun n hk => makeMark_slot_other (owner_eq ▸ hk) magnitude, ?_, ?_⟩
    · intro hf
      have noted : u = p.noted kind magnitude := makeMark_uncaptured hf magnitude
      rw [noted]
      refine ⟨noted_capture kind magnitude p, noted_hire_of_none, fun r hr => ?_⟩
      rw [noted_hire_of_some hr, mark_eq, entry_eq]
      rfl
    · intro e hf ho hn hc
      obtain ⟨⟨lost, filled⟩, number, drive⟩ := makeMark_capture (magnitude := magnitude) hf ho hn hc
      refine ⟨⟨_, filled, rfl, rfl, rfl, rfl, rfl, congrArg Ring.next noted_ring, congrArg ModeCtl.clock noted_clock⟩,
        number, drive, fun r hr room => ?_⟩
      rw [entry_eq]
      exact makeMark_named hf ho hn hc hr room
  case extreme =>
    intro p kind v x r old position _ hm hx hp hr ho hc extreme moved
    exact judgeKind_moves hm hx hp hr ho hc moved
  case close =>
    intro p e he l marks row weights energy factor credit credited judged
    have factors : factorOf row weights (p.usableValue roleCoolant) = factor := by
      cases ht : p.usableValue roleCoolant <;> simp only [factorOf, binOf_eq, factor, ht]
    have placed : p.engagementPlaced e = credit := by
      cases hs : e.startSpeed with
      | none => simp only [engagementPlaced_of_none p hs, credit, hs]
      | some v =>
        simp only [engagementPlaced_of_some p hs, credit, hs, ← factors, BinRow.cell, binOf_eq]
        rfl
    have credits : engagementCredit e p = credited := by
      cases hk : p.slotOfKind .clutch with
      | none => simp only [engagementCredit_of_none hk, credited, hk]
      | some n =>
        obtain ⟨c, hs⟩ := slotOfKind_slot hk
        simp only [engagementCredit_of_some hk hs, credited, hk, hs, placed]
    have judges : judgeEngagement e.energy (engagementCredit e p) = judged := by
      have active : credited.modeCtl.active = p.modeCtl.active := credits ▸ engagementCredit_active e p
      simp only [judgeEngagement, credits, active, judged, marks, decide_eq_true_eq, l]
    refine ⟨judges ▸ closeEngagement_of_some he, evaluateClutch_of_unusable, fun _ _ _ => evaluateClutch_of_neutral,
      fun _ => changeEngine_closes, fun n c hk hs => ?_, fun r hr room => ?_⟩
    · obtain ⟨c', slot, abuse⟩ := closeEngagement_slot he hk hs
      exact ⟨c', slot, by simp only [abuse, marks, decide_eq_true_eq, raiseAbuse_hotEngagement]; rfl⟩
    · obtain ⟨r', current, list⟩ := closeEngagement_facts he hr room
      exact ⟨r', current, list.trans (by simp only [marks, decide_eq_true_eq]; rfl)⟩

end Sys2Proof.Machine
end

section
/-! Sound records: what keeps a slot's figures and spectrum, a pool's figures and a usage entry's figures in their ranges and
in agreement (R59, R60, R63, R73 to R75, R88, R89, R99). -/

namespace Sys2Proof.Machine

/-! ## Figures in their ranges (R88) -/

/-- The five figures that a slot, a pool and a usage entry have in common lie in their ranges (R88). -/
structure FiguresRanged (events time unobserved units residue : Nat) : Prop where
  events : events ≤ max32
  time : time ≤ max32
  unobserved : unobserved ≤ max32
  units : units ≤ wearLimit
  residue : residue < wearUnit

theorem addSat_le (limit a b : Nat) : addSat limit a b ≤ limit := Nat.min_le_left _ _

theorem addWear_residue_lt (units residue counts : Nat) : (addWear units residue counts).2.1 < wearUnit := by
  by_cases h : units + (residue + counts) / 16000 ≤ 99999999
  · rw [addWear_within h]
    exact Nat.mod_lt _ (by decide)
  · rw [addWear_beyond (Nat.not_le.mp h)]
    decide

/-- Sums that saturate lie in their ranges, whatever is added to whatever (R88). -/
theorem figuresRanged_added (e f t u o v units residue counts : Nat) :
    FiguresRanged (addSat max32 e f) (addSat max32 t u) (addSat max32 o v) (addWear units residue counts).1
      (addWear units residue counts).2.1 :=
  ⟨addSat_le .., addSat_le .., addSat_le .., addWear_units_le .., addWear_residue_lt ..⟩

theorem figuresRanged_zero : FiguresRanged 0 0 0 0 0 := by constructor <;> decide

theorem Pool.ranged_iff (q : Pool) :
    q.ranged = true ↔ FiguresRanged q.events q.time q.unobserved q.units q.residue := by
  simp only [Pool.ranged, Bool.and_eq_true, decide_eq_true_eq]
  exact ⟨fun ⟨⟨⟨⟨e, t⟩, o⟩, u⟩, r⟩ => ⟨e, t, o, u, r⟩, fun ⟨e, t, o, u, r⟩ => ⟨⟨⟨⟨e, t⟩, o⟩, u⟩, r⟩⟩

theorem Usage.ranged_iff (q : Usage) :
    q.ranged = true ↔ FiguresRanged q.events q.time q.unobserved q.units q.residue := by
  simp only [Usage.ranged, Bool.and_eq_true, decide_eq_true_eq]
  exact ⟨fun ⟨⟨⟨⟨e, t⟩, o⟩, u⟩, r⟩ => ⟨e, t, o, u, r⟩, fun ⟨e, t, o, u, r⟩ => ⟨⟨⟨⟨e, t⟩, o⟩, u⟩, r⟩⟩

theorem Pool.credit_ranged (q : Pool) (a : Credit) : (q.credit a).ranged = true :=
  (Pool.ranged_iff _).mpr (figuresRanged_added ..)

theorem Usage.credit_ranged (u : Usage) (c : Component) (a : Credit) : (u.credit c a).ranged = true :=
  (Usage.ranged_iff _).mpr (figuresRanged_added ..)

/-! ## Sound components (R88, R89) -/

/-- What `Component.sound` says of a record, clause by clause. -/
structure Component.Sound (c : Component) : Prop where
  figures : FiguresRanged c.events c.time c.unobserved c.units c.residue
  unbinned : c.unbinned ≤ max32
  cells : ∀ x ∈ c.cells.toList, x ≤ max32
  pool : c.hold.all (fun h => h.pool.ranged) = true
  sum : c.saturated = false → c.cellSum + c.unbinned = c.kind.share c.events c.time

theorem Component.sound_iff (c : Component) : c.sound = true ↔ c.Sound := by
  have sum : (c.saturated || c.cellSum + c.unbinned == c.kind.share c.events c.time) = true ↔
      (c.saturated = false → c.cellSum + c.unbinned = c.kind.share c.events c.time) := by
    cases c.saturated <;> simp
  simp only [Component.sound, Component.ranged, Bool.and_eq_true, decide_eq_true_eq, List.all_eq_true, sum]
  exact ⟨fun ⟨⟨⟨⟨⟨⟨⟨⟨e, t⟩, b⟩, o⟩, u⟩, r⟩, cells⟩, pool⟩, sum⟩ => ⟨⟨e, t, o, u, r⟩, b, cells, pool, sum⟩,
    fun ⟨⟨e, t, o, u, r⟩, b, cells, pool, sum⟩ => ⟨⟨⟨⟨⟨⟨⟨⟨e, t⟩, b⟩, o⟩, u⟩, r⟩, cells⟩, pool⟩, sum⟩⟩

/-! ## Credits (R59, R60) -/

/-- A credit places what a kind counts in its spectrum: nothing, or its seconds or events in one of the 64 cells or
unbinned (R59). -/
def Credit.Fits (a : Credit) (k : Kind) : Prop :=
  match a.place with
  | .nowhere => k.share a.events a.time = 0
  | .cell cell count => cell < 64 ∧ count = k.share a.events a.time
  | .unbinned count => count = k.share a.events a.time

theorem BinRow.cell_lt (r : BinRow) (load speed : Int) : r.cell load speed < 64 := by
  have bin : ∀ (edges : Vector Int 7) v, binOf edges.toList v ≤ 7 := fun edges v =>
    List.countP_le_length.trans edges.length_toList.le
  have loads := bin r.load load
  have speeds := bin r.speed speed
  unfold BinRow.cell
  omega

/-- A credit placed by its axis values fits the kind whose seconds or events it counts (R82, R83). -/
theorem placed_fits {k owner : Kind} {load speed temperature : Option Int} {events time count : Nat}
    (h : count = owner.share events time) (p : Part) :
    (p.placed k load speed temperature events time count).Fits owner := by
  unfold Part.placed
  split
  · exact ⟨BinRow.cell_lt .., h⟩
  · exact h

theorem place_cells_le {c : Component} (h : ∀ x ∈ c.cells.toList, x ≤ max32) (place : Placement) :
    ∀ x ∈ (c.place place).cells.toList, x ≤ max32 := by
  cases place with
  | nowhere => exact h
  | unbinned n => exact h
  | cell i n =>
    intro x hx
    simp only [Component.place, Vector.toList_setIfInBounds] at hx
    rcases List.mem_or_eq_of_mem_set hx with old | new
    · exact h x old
    · exact new ▸ addSat_le ..

theorem place_unbinned_le {c : Component} (h : c.unbinned ≤ max32) (place : Placement) :
    (c.place place).unbinned ≤ max32 := by
  cases place with
  | nowhere => exact h
  | cell i n => exact h
  | unbinned n => exact addSat_le ..

/-- A credit that counts nothing in the spectrum leaves the kind's figure, unless it saturates. -/
theorem counted_share {c : Component} {a : Credit} (h : c.kind.share a.events a.time = 0)
    (hs : (c.counted a).saturated = false) :
    c.kind.share (c.counted a).events (c.counted a).time = c.kind.share c.events c.time := by
  simp only [Component.counted, Bool.or_eq_false_iff] at hs
  obtain ⟨⟨⟨⟨-, events⟩, time⟩, -⟩, -⟩ := hs
  simp only [Component.counted, addSat_exact events, addSat_exact time, share_add, h, Nat.add_zero]

theorem credit_sum {c : Component} {a : Credit} (hf : a.Fits c.kind) (hh : c.hold = none)
    (hb : c.cellSum + c.unbinned = c.kind.share c.events c.time) (hs : (c.credit a).saturated = false) :
    (c.credit a).cellSum + (c.credit a).unbinned = c.kind.share (c.credit a).events (c.credit a).time := by
  unfold Credit.Fits at hf
  cases hp : a.place with
  | nowhere =>
    rw [hp] at hf
    rw [credit_counting hh, hp] at hs ⊢
    exact hb.trans (counted_share hf hs).symm
  | cell cell count =>
    rw [hp] at hf
    exact credit_keeps_sum hh hf.1 (.inl hp) hf.2 hb hs
  | unbinned count =>
    rw [hp] at hf
    exact credit_keeps_sum (cell := 0) hh (by decide) (.inr hp) hf hb hs

/-- A credit that fits keeps a slot's record sound, whether it counts or is held (R59, R60, R88, R89). -/
theorem credit_sound {c : Component} {a : Credit} (hc : c.sound = true) (hf : a.Fits c.kind) :
    (c.credit a).sound = true := by
  have sound := (Component.sound_iff c).mp hc
  refine (Component.sound_iff _).mpr ?_
  cases hh : c.hold with
  | some h =>
    have held : c.credit a = { c with hold := some { h with pool := h.pool.credit a } } := by
      simp only [Component.credit, hh]
    rw [held]
    exact ⟨sound.figures, sound.unbinned, sound.cells, Pool.credit_ranged .., sound.sum⟩
  | none =>
    have unsaturated : (c.credit a).saturated = false → c.saturated = false := by
      rw [credit_counting hh]
      intro hs
      have counted := place_saturated hs
      simp only [Component.counted, Bool.or_eq_false_iff] at counted
      obtain ⟨⟨⟨⟨was, -⟩, -⟩, -⟩, -⟩ := counted
      exact was
    have kind : (c.credit a).kind = c.kind := (congrArg Component.kind (credit_face c a) :)
    refine ⟨?_, ?_, ?_, ?_, fun hs => ?_⟩
    · rw [credit_counting hh, place_eq]
      exact figuresRanged_added ..
    · rw [credit_counting hh]
      exact place_unbinned_le (c := c.counted a) sound.unbinned _
    · rw [credit_counting hh]
      exact place_cells_le (c := c.counted a) sound.cells _
    · rw [credit_counting hh, place_eq]
      exact sound.pool
    · rw [kind]
      exact credit_sum hf hh (sound.sum (unsaturated hs)) hs

/-! ## New components, pools and folds (R63, R73 to R75, R99) -/

/-- A sum below its limit is exact. -/
theorem addSat_of_below {a b : Nat} (h : atLimit (addSat max32 a b) = false) : addSat max32 a b = a + b := by
  rw [atLimit_addSat, decide_eq_false_iff_not, Nat.not_le] at h
  exact Nat.min_eq_right h.le

/-- A pool merged into figures that agree gives figures in range that agree (R74, R75, R88, R89). -/
theorem mergePool_sound {c : Component} (q : Pool) (cells : ∀ x ∈ c.cells.toList, x ≤ max32)
    (pool : c.hold.all (fun h => h.pool.ranged) = true)
    (sum : c.saturated = false → c.cellSum + c.unbinned = c.kind.share c.events c.time) : (c.mergePool q).Sound := by
  refine ⟨figuresRanged_added .., addSat_le .., cells, pool, fun hs => ?_⟩
  simp only [Component.mergePool, Component.anyLimit, Bool.or_eq_false_iff] at hs
  obtain ⟨was, ⟨⟨⟨events, time⟩, unbinned⟩, -⟩, -⟩ := hs
  have exact_ : (c.mergePool q).cellSum + (c.mergePool q).unbinned =
      c.cellSum + (c.unbinned + c.kind.share q.events q.time) := congrArg (c.cellSum + ·) (addSat_of_below unbinned)
  have share : (c.mergePool q).kind.share (c.mergePool q).events (c.mergePool q).time =
      c.kind.share (c.events + q.events) (c.time + q.time) := by
    simp only [Component.mergePool, addSat_of_below events, addSat_of_below time]
  rw [exact_, share, share_add, ← sum was, Nat.add_assoc]

theorem cellSum_empty {c : Component} (h : c.cells = Vector.replicate 64 0) : c.cellSum = 0 := by
  rw [Component.cellSum, h]
  decide

/-- A component installed with starting figures in range is sound (R63). -/
theorem starting_sound {kind : Kind} {identity : Option Serial} {query : Option QuerySetup}
    {events time units clock : Nat} (he : events ≤ max32) (ht : time ≤ max32) (hu : units ≤ wearLimit) :
    (Component.starting kind identity query events time units clock).sound = true := by
  refine (Component.sound_iff _).mpr ⟨⟨he, ht, Nat.zero_le _, hu, ?_⟩, ?_, ?_, rfl, fun _ => ?_⟩
  · show (if units = wearLimit then wearUnit - 1 else 0) < wearUnit
    split <;> decide
  · show (if kind.continuous then time else events) ≤ max32
    split <;> assumption
  · show ∀ x ∈ (Vector.replicate 64 0).toList, x ≤ max32
    decide
  · rw [cellSum_empty rfl, Nat.zero_add]
    rfl

/-- The new component of Confirm Change is sound, whatever its starting figures and its pool: their sums saturate (R73). -/
theorem confirmed_sound (old : Component) (successor : Serial) (events time units clock : Nat) (marks : Vector Nat 4) :
    (old.confirmed successor events time units clock marks).sound = true := by
  have empty : ∀ x ∈ (Vector.replicate 64 0).toList, x ≤ max32 := by decide
  have merged := mergePool_sound
    (c := { Component.starting old.kind (some successor) old.query events time units clock with residue := 0 })
    ((old.hold.map (·.pool)).getD {}) empty rfl fun _ => (congrArg (· + _) (cellSum_empty rfl)).trans (Nat.zero_add _)
  exact (Component.sound_iff _).mpr ⟨merged.figures, merged.unbinned, merged.cells, rfl, merged.sum⟩

theorem adopt_sound {c : Component} (hc : c.sound = true) (h : Hold) : (c.adopt h).sound = true := by
  have sound := (Component.sound_iff c).mp hc
  have merged := mergePool_sound h.pool sound.cells sound.pool sound.sum
  exact (Component.sound_iff _).mpr ⟨merged.figures, merged.unbinned, merged.cells, rfl, merged.sum⟩

theorem dismiss_sound {c : Component} (hc : c.sound = true) (h : Hold) : (c.dismiss h).sound = true := by
  have sound := (Component.sound_iff c).mp hc
  have merged := mergePool_sound h.pool sound.cells sound.pool sound.sum
  exact (Component.sound_iff _).mpr ⟨merged.figures, merged.unbinned, merged.cells, rfl, merged.sum⟩

/-- A spectrum folded into unbinned keeps its sum: what both come to is the kind's figure, which is in range (R99). -/
theorem fold_sound {c : Component} (hc : c.sound = true) : c.fold.sound = true := by
  have sound := (Component.sound_iff c).mp hc
  have share : c.kind.share c.events c.time ≤ max32 := by
    unfold Kind.share
    split
    · exact sound.figures.time
    · exact sound.figures.events
  refine (Component.sound_iff _).mpr ⟨sound.figures, addSat_le .., ?_, sound.pool, fun hs => ?_⟩
  · show ∀ x ∈ (Vector.replicate 64 0).toList, x ≤ max32
    decide
  · have sum := sound.sum hs
    have exact_ : c.fold.unbinned = c.unbinned + c.cellSum := Nat.min_eq_right (by omega)
    rw [cellSum_empty (c := c.fold) rfl, exact_, Nat.zero_add, Nat.add_comm]
    exact sum

theorem answered_sound {c : Component} (hc : c.sound = true) (serial : Serial) : (c.answered serial).sound = true := by
  have sound := (Component.sound_iff c).mp hc
  refine (Component.sound_iff _).mpr ?_
  have pool := sound.pool
  unfold Component.answered
  split
  · rename_i h hh
    rw [hh] at pool
    exact ⟨sound.figures, sound.unbinned, sound.cells, pool, sound.sum⟩
  · split
    · exact ⟨sound.figures, sound.unbinned, sound.cells, sound.pool, sound.sum⟩
    · exact ⟨sound.figures, sound.unbinned, sound.cells, (Pool.ranged_iff _).mpr figuresRanged_zero, sound.sum⟩

end Sys2Proof.Machine
end

section
/-! The accounting keeps every slot sound and every usage entry in its ranges: credits, marks, captures, hours and the Engine
Start Detector (R51, R52, R59 to R61, R85, R88 to R90, R96, R98, R104, R117). -/

namespace Sys2Proof.Machine

/-! ## What is sound of a part -/

/-- The usage entries of the open hire, then those of the closing one. -/
def Hire.usages (h : Hire) : List Usage := (h.current.toList ++ h.closing.toList).flatMap (·.usage)

/-- What R88 and R89 speak of: the slots, and the usage entries of the open and the closing hire. -/
def Part.counts (p : Part) : Vector (Option Component) 12 × List Usage := (p.register.slots, p.hire.usages)

theorem countsSound_iff (p : Part) :
    p.countsSound = true ↔ (∀ n c, p.slot n = some c → c.sound = true) ∧ ∀ u ∈ p.hire.usages, u.ranged = true := by
  have slots : p.register.slots.toList.all (fun s => s.all Component.sound) = true ↔
      ∀ n c, p.slot n = some c → c.sound = true := by
    simp only [List.all_eq_true, Vector.mem_toList_iff, Option.all_eq_true]
    constructor
    · intro h n c hs
      exact h (some c) (Vector.mem_of_getElem? (Option.join_eq_some_iff.mp hs)) c rfl
    · intro h s hs c hc
      obtain ⟨n, hn, rfl⟩ := Vector.mem_iff_getElem.mp hs
      refine h n c ?_
      simp [Part.slot, hn, hc]
  simp only [Part.countsSound, Bool.and_eq_true, slots, Hire.usages, List.all_eq_true, List.mem_flatMap]
  exact and_congr_right fun _ => ⟨fun h u ⟨r, hr, hu⟩ => h r hr u hu, fun h r hr u hu => h u ⟨r, hr, hu⟩⟩

/-- A part with the slots and the usage entries of a sound one is sound. -/
theorem sound_of_counts {p q : Part} (h : q.counts = p.counts) (hp : p.countsSound = true) : q.countsSound = true := by
  obtain ⟨slots, usages⟩ := Prod.mk.inj h
  have slot : ∀ n, q.slot n = p.slot n := fun n => by rw [Part.slot, slots, Part.slot]
  rw [countsSound_iff] at hp ⊢
  rw [usages]
  exact ⟨fun n c hs => hp.1 n c (slot n ▸ hs), hp.2⟩

theorem slot_sound {p : Part} {n : Nat} {c : Component} (hp : p.countsSound = true) (h : p.slot n = some c) :
    c.sound = true := ((countsSound_iff p).mp hp).1 n c h

/-- A sound record written to a slot, or the slot emptied. -/
theorem setSlot_sound {p : Part} {n : Nat} {x : Option Component} (hp : p.countsSound = true)
    (hx : ∀ c, x = some c → c.sound = true) : (p.setSlot n x).countsSound = true := by
  rw [countsSound_iff] at hp ⊢
  refine ⟨fun k c hs => ?_, hp.2⟩
  by_cases same : k = n
  · subst same
    have inside := slot_lt hs
    rw [Part.setSlot_slot p inside] at hs
    exact hx c hs
  · rw [Part.setSlot_slot_other p same] at hs
    exact hp.1 k c hs

theorem setSlot_some_sound {p : Part} {c : Component} (n : Nat) (hp : p.countsSound = true) (hc : c.sound = true) :
    (p.setSlot n (some c)).countsSound = true :=
  setSlot_sound hp fun _ h => Option.some.inj h ▸ hc

/-- A slot's record rewritten outside what soundness speaks of. -/
theorem rewriteSlot_sound {p : Part} {n : Nat} {c d : Component} (hp : p.countsSound = true) (hs : p.slot n = some c)
    (hd : d.sound = c.sound) : (p.setSlot n (some d)).countsSound = true :=
  setSlot_some_sound n hp (hd.trans (slot_sound hp hs))

/-- Hires whose usage entries lie in their ranges. -/
theorem hire_sound {p : Part} {h : Hire} (hp : p.countsSound = true) (hu : ∀ u ∈ h.usages, u.ranged = true) :
    ({ p with hire := h } : Part).countsSound = true :=
  (countsSound_iff _).mpr ⟨((countsSound_iff p).mp hp).1, hu⟩

theorem hire_sound_of_usages {p : Part} {h : Hire} (hp : p.countsSound = true) (hu : h.usages = p.hire.usages) :
    ({ p with hire := h } : Part).countsSound = true :=
  hire_sound hp (hu ▸ ((countsSound_iff p).mp hp).2)

/-- A fold of steps that each keep the part sound. -/
theorem foldl_sound {α : Type} {f : Part → α → Part}
    (h : ∀ (p : Part) x, p.countsSound = true → (f p x).countsSound = true) (xs : List α) {p : Part}
    (hp : p.countsSound = true) : (xs.foldl f p).countsSound = true := by
  induction xs generalizing p with
  | nil => exact hp
  | cons x xs ih => exact ih (h p x hp)

/-! ## Credits (R59 to R61) -/

/-- What stands in an updated usage list stood there, or is what the update made (R103). -/
theorem mem_updateUsage {n : Nat} {new : Usage} {f : Usage → Usage} {l : List Usage} {x : Usage}
    (h : x ∈ updateUsage n new f l) : x ∈ l ∨ ∃ u, x = f u := by
  induction l with
  | nil => exact .inr ⟨new, List.mem_singleton.mp h⟩
  | cons u l ih =>
    unfold updateUsage at h
    split_ifs at h
    · rcases List.mem_cons.mp h with rfl | later
      · exact .inr ⟨u, rfl⟩
      · exact .inl (List.mem_cons_of_mem _ later)
    · rcases List.mem_cons.mp h with rfl | later
      · exact .inr ⟨new, rfl⟩
      · exact .inl later
    · rcases List.mem_cons.mp h with rfl | later
      · exact .inl (List.mem_cons_self ..)
      · exact (ih later).imp_left (List.mem_cons_of_mem _)

/-- The usage entries after a credit: those before it, and the credited one (R104). -/
theorem Hire.credit_usages_ranged {h : Hire} (hu : ∀ u ∈ h.usages, u.ranged = true) (n : Nat) (c : Component) (a : Credit) :
    ∀ u ∈ (h.credit n c a).usages, u.ranged = true := by
  intro x hx
  obtain ⟨r, hr, hx⟩ := List.mem_flatMap.mp hx
  rcases List.mem_append.mp hr with opened | closing
  · obtain ⟨old, current, rfl⟩ := Option.map_eq_some_iff.mp (Option.mem_toList.mp opened)
    rcases mem_updateUsage hx with stood | ⟨u, rfl⟩
    · exact hu x (List.mem_flatMap.mpr ⟨old, List.mem_append_left _ (Option.mem_toList.mpr current), stood⟩)
    · exact Usage.credit_ranged ..
  · exact hu x (List.mem_flatMap.mpr ⟨r, List.mem_append_right _ closing, hx⟩)

/-- A credit that fits the kind in its slot (R59 to R61, R104). -/
theorem creditSlot_sound {n : Nat} {a : Credit} {p : Part} (hp : p.countsSound = true)
    (hf : ∀ c, p.slot n = some c → a.Fits c.kind) : (creditSlot n a p).countsSound = true := by
  unfold creditSlot
  split
  · exact hp
  · rename_i c hs
    have credited := setSlot_some_sound n hp (credit_sound (slot_sound hp hs) (hf c hs))
    exact hire_sound credited (Hire.credit_usages_ranged ((countsSound_iff p).mp hp).2 n c a)

/-- The slot of a kind holds a component of that kind. -/
theorem slotOfKind_kind {p : Part} {kind : Kind} {n : Nat} {c : Component} (h : p.slotOfKind kind = some n)
    (hs : p.slot n = some c) : c.kind = kind := by
  have found := List.find?_some h
  simpa [hs] using found

/-- A credit that fits the kind of its slot's owner. -/
theorem creditOwner_sound {kind : Kind} {n : Nat} {a : Credit} {p : Part} (hp : p.countsSound = true)
    (hk : p.slotOfKind kind = some n) (hf : a.Fits kind) : (creditSlot n a p).countsSound = true :=
  creditSlot_sound hp fun _ hs => (slotOfKind_kind hk hs).symm ▸ hf

theorem setChan_counts (ch : Channel) (c : Chan) (p : Part) : (p.setChan ch c).counts = p.counts := by
  cases ch <;> rfl

theorem respond_counts (ch : Channel) (msg : List Byte) (p : Part) : (respond ch msg p).counts = p.counts :=
  setChan_counts ch _ p

theorem respond_sound (ch : Channel) (msg : List Byte) {p : Part} (hp : p.countsSound = true) :
    (respond ch msg p).countsSound = true := sound_of_counts (respond_counts ch msg p) hp

theorem requestFull_counts (cause : CheckpointCause) (w : Option Waiter) (p : Part) :
    (requestFull cause w p).counts = p.counts := rfl

theorem requestFull_sound (cause : CheckpointCause) (w : Option Waiter) {p : Part} (hp : p.countsSound = true) :
    (requestFull cause w p).countsSound = true := sound_of_counts (requestFull_counts cause w p) hp

theorem setPort_counts (port : PortId) (q : Port) (p : Part) : (p.setPort port q).counts = p.counts := by
  cases port <;> rfl

/-! ## The Capture Unit -/

theorem copierRun_counts (p : Part) : (copierRun p).counts = p.counts :=
  (congrArg Part.counts (copierRun_uncaptured p) :)

theorem nameCapture_usages (h : Hire) (mark : Option (Nat × Nat)) (number : Nat) :
    (h.nameCapture mark number).usages = h.usages := by
  unfold Hire.nameCapture
  split
  · rfl
  · cases hc : h.current with
    | none => simp only [Hire.usages, hc, Option.map_none]
    | some r =>
      simp only [Hire.usages, hc, Option.map_some]
      split <;> rfl

theorem startIn_counts (e : Nat) (t : Trigger) (p : Part) : (startIn e t p).counts = p.counts := by
  have register : (startIn e t p).register = p.register :=
    (congrArg Part.register (startIn_untriggered e t p) :)
  simp only [Part.counts, register, startIn_hire, nameCapture_usages]

theorem startCapture_counts (t : Trigger) (p : Part) : (startCapture t p).1.counts = p.counts := by
  unfold startCapture
  split
  · rfl
  · split
    · rfl
    · exact startIn_counts _ t p

theorem takeTrigger_counts (t : Trigger) (p : Part) : (takeTrigger t p).1.counts = p.counts := by
  unfold takeTrigger
  split
  · exact startCapture_counts t p
  · split <;> rfl

theorem startPending_counts (ts : List Trigger) (p : Part) : (startPending ts p).counts = p.counts := by
  induction ts generalizing p with
  | nil => rfl
  | cons t ts ih =>
    have started := startCapture_counts t p
    unfold startPending
    split <;> rename_i heq <;> rw [heq] at started
    · exact started
    · exact (ih _).trans started

theorem closeCapture_counts (e : Nat) (state : CaptureState) (p : Part) : (closeCapture e state p).counts = p.counts :=
  startPending_counts _ _

theorem failCapture_counts (e : Nat) (p : Part) : (failCapture e p).counts = p.counts := closeCapture_counts _ _ _

/-! ## Marks (R115 to R117) -/

theorem mark_usage (r : HireRecord) (e : AbuseEntry) : (r.mark e).usage = r.usage := by
  rw [mark_eq]
  split <;> rfl

theorem usages_mapCurrent {f : HireRecord → HireRecord} (hf : ∀ r, (f r).usage = r.usage) (h : Hire) :
    ({ h with current := h.current.map f } : Hire).usages = h.usages := by
  cases hc : h.current with
  | none => simp only [Hire.usages, hc, Option.map_none]
  | some r => simp [Hire.usages, hc, hf]

theorem markSlot_sound (kind : Cause) {p : Part} (hp : p.countsSound = true) : (markSlot kind p).countsSound = true := by
  unfold markSlot
  split
  · exact hp
  · split
    · exact hp
    · rename_i hs
      exact rewriteSlot_sound hp hs rfl

theorem makeMark_sound (kind : Cause) (magnitude : Int) {p : Part} (hp : p.countsSound = true) :
    (makeMark kind magnitude p).countsSound = true := by
  have noted : (p.noted kind magnitude).countsSound = true :=
    hire_sound_of_usages (markSlot_sound kind hp) (usages_mapCurrent (fun r => mark_usage r _) _)
  cases hf : (p.abuseCapture kind).capture with
  | false => exact (makeMark_uncaptured hf magnitude) ▸ noted
  | true => exact (makeMark_captured hf magnitude) ▸ sound_of_counts (takeTrigger_counts _ _) noted

theorem setEpisode_usages (h : Hire) (kind : Cause) (e : Episode) : (h.setEpisode kind e).usages = h.usages := by
  cases kind <;> rfl

theorem moveMagnitude_usages (h : Hire) (mark : Option (Nat × Nat)) (extreme : Int) :
    (h.moveMagnitude mark extreme).usages = h.usages := by
  unfold Hire.moveMagnitude
  split
  · rfl
  · refine usages_mapCurrent (fun r => ?_) h
    split <;> rfl

theorem setEpisode_sound {p : Part} {h : Hire} (kind : Cause) (e : Episode) (hp : p.countsSound = true)
    (hu : h.usages = p.hire.usages) : ({ p with hire := h.setEpisode kind e } : Part).countsSound = true :=
  hire_sound_of_usages hp ((setEpisode_usages h kind e).trans hu)

theorem judgeKind_sound (kind : Cause) {p : Part} (hp : p.countsSound = true) : (judgeKind kind p).countsSound = true := by
  unfold judgeKind
  dsimp only
  split
  · exact setEpisode_sound _ _ hp rfl
  · split
    · refine setEpisode_sound _ _ hp ?_
      split
      · rfl
      · exact moveMagnitude_usages ..
    · split
      · exact setEpisode_sound _ _ (makeMark_sound kind _ hp) rfl
      · exact setEpisode_sound _ _ hp rfl

theorem judgeInterval_sound {p : Part} (hp : p.countsSound = true) : (judgeInterval p).countsSound = true :=
  judgeKind_sound _ (judgeKind_sound _ (judgeKind_sound _ hp))

theorem judgeEngagement_sound (energy : Nat) {p : Part} (hp : p.countsSound = true) :
    (judgeEngagement energy p).countsSound = true := by
  unfold judgeEngagement
  split
  · exact makeMark_sound _ _ hp
  · exact hp

/-! ## The Wear Engine and the Clutch Monitor (R85, R90, R96, R98) -/

theorem countPeriod_counts (p : Part) : (countPeriod p).counts = p.counts := by
  unfold countPeriod
  split <;> rfl

theorem intervalCredit_fits (p : Part) (n : Nat) {k : Kind} (h : k.continuous = true) : (p.intervalCredit n k).Fits k :=
  placed_fits (by simp only [Kind.share, h, if_true]) p

theorem creditInterval_sound {p : Part} (n : Nat) (hp : p.countsSound = true) : (creditInterval n p).countsSound = true := by
  unfold creditInterval
  split
  · exact hp
  · rename_i c hs
    split
    · exact hp
    · rename_i continuous
      split
      · have fits : (p.intervalCredit n c.kind).Fits c.kind := intervalCredit_fits p n (by simpa using continuous)
        have credited : (setRunning n true (creditSlot n (p.intervalCredit n c.kind) p)).countsSound = true :=
          creditSlot_sound hp fun d hd => Option.some.inj (hs.symm.trans hd) ▸ fits
        dsimp only
        split
        · exact sound_of_counts (countPeriod_counts _) credited
        · exact credited
      · exact hp

theorem creditAll_sound {p : Part} (hp : p.countsSound = true) : (creditAll p).countsSound = true :=
  foldl_sound (fun _ n h => creditInterval_sound n h) _ hp

theorem starterEvent_sound (duration : Nat) (coolant : Option Int) (failed : Bool) {p : Part} (hp : p.countsSound = true) :
    (starterEvent duration coolant failed p).countsSound = true := by
  unfold starterEvent
  split
  · exact hp
  · split
    · exact hp
    · rename_i n hk
      have credited := creditOwner_sound hp hk
        (placed_fits (k := .starter) (load := some duration) (speed := coolant) (temperature := coolant) (events := 1)
          (time := duration) (count := 1) rfl p)
      dsimp only
      split
      · split
        · rename_i hs
          exact rewriteSlot_sound credited hs rfl
        · exact credited
      · exact credited

theorem startCredit_sound {p : Part} (hp : p.countsSound = true) : (startCredit p).countsSound = true := by
  unfold startCredit
  split
  · exact hp
  · split
    · exact hp
    · exact creditOwner_sound (kind := .engine) hp ‹_› rfl

theorem engagementCredit_sound (e : Engagement) {p : Part} (hp : p.countsSound = true) :
    (engagementCredit e p).countsSound = true := by
  unfold engagementCredit
  split
  · exact hp
  · exact creditOwner_sound (kind := .clutch) hp ‹_› (placed_fits (by rfl) p)

theorem closeEngagement_sound {p : Part} (hp : p.countsSound = true) : (closeEngagement p).countsSound = true := by
  unfold closeEngagement
  split
  · exact hp
  · exact judgeEngagement_sound _ (engagementCredit_sound _ hp)

theorem evaluateClutch_sound {p : Part} (hp : p.countsSound = true) : (evaluateClutch p).countsSound = true := by
  unfold evaluateClutch
  dsimp only
  split
  · exact closeEngagement_sound hp
  · split
    · exact closeEngagement_sound hp
    · split
      · split <;> exact hp
      · split
        · exact hp
        · split
          · exact closeEngagement_sound hp
          · exact hp

theorem anchor_sound (n v : Nat) (regressed : Bool) {p : Part} (hp : p.countsSound = true) :
    (anchor n v regressed p).countsSound = true := by
  unfold anchor
  split
  · exact hp
  · rename_i hs
    exact rewriteSlot_sound hp hs rfl

theorem reconcileHours_sound (v : Nat) {p : Part} (hp : p.countsSound = true) : (reconcileHours v p).countsSound = true := by
  unfold reconcileHours
  split
  · exact hp
  · rename_i n hk
    split
    · exact hp
    · split
      · exact anchor_sound _ _ _ hp
      · split_ifs
        · exact hp
        · exact anchor_sound _ _ _ hp
        · exact anchor_sound _ _ _ hp
        · dsimp only
          split
          · exact anchor_sound _ _ _ (creditOwner_sound hp hk rfl)
          · exact anchor_sound _ _ _ hp

/-! ## The Engine Start Detector (R43 to R54) -/

theorem queueVerification_sound {p : Part} (n : Nat) (hp : p.countsSound = true) :
    (queueVerification n p).countsSound = true := by
  unfold queueVerification
  split
  · rename_i c hs
    split
    · dsimp only
      split
      · exact hp
      · exact rewriteSlot_sound hp hs rfl
    · exact hp
  · exact hp

theorem queueAll_sound {p : Part} (hp : p.countsSound = true) : (queueAll p).countsSound = true :=
  foldl_sound (fun _ n h => queueVerification_sound n h) _ hp

theorem endSave_counts (p : Part) : (endSave p).counts = p.counts := by
  unfold endSave
  split
  · exact respond_counts _ _ _
  · rfl

theorem endAttempt_sound (failed : Bool) (duration : Nat) {p : Part} (hp : p.countsSound = true) :
    (endAttempt failed duration p).countsSound = true := by
  unfold endAttempt
  dsimp only
  split
  · split
    · exact starterEvent_sound _ _ _ hp
    · exact hp
  · exact hp

theorem seeStarter_counts (p : Part) : (seeStarter p).counts = p.counts := by
  unfold seeStarter
  split <;> rfl

theorem countResume_sound {p : Part} (hp : p.countsSound = true) : (countResume p).countsSound = true := by
  unfold countResume
  split
  · exact hp
  · split
    · rename_i hs
      exact rewriteSlot_sound hp hs rfl
    · exact hp

theorem enterRunning_sound {p : Part} (hp : p.countsSound = true) : (enterRunning p).countsSound = true := by
  rw [enterRunning_eq]
  split
  · exact queueAll_sound hp
  · exact hp

theorem changeEngine_sound (new : EngineState) {p : Part} (hp : p.countsSound = true) :
    (changeEngine new p).countsSound = true := by
  have closed : (if p.detector.engine = .running then closeEngagement p else p).countsSound = true := by
    split
    · exact closeEngagement_sound hp
    · exact hp
  unfold changeEngine
  dsimp only
  generalize (if p.detector.engine = .running then closeEngagement p else p) = q at closed ⊢
  split
  · exact hp
  · have left : (if p.detector.engine = .stopped then
        stopQuiet (endSave { q with detector := { q.detector with engine := new } })
        else { q with detector := { q.detector with engine := new } }).countsSound = true := by
      split
      · exact sound_of_counts (endSave_counts _) closed
      · exact closed
    split
    · exact enterRunning_sound left
    · exact left

theorem beginCranking_sound {p : Part} (hp : p.countsSound = true) : (beginCranking p).countsSound = true :=
  changeEngine_sound _ hp

theorem beginCatching_sound {p : Part} (hp : p.countsSound = true) : (beginCatching p).countsSound = true :=
  changeEngine_sound _ hp

theorem evaluateStopped_sound (speed : Int) {p : Part} (hp : p.countsSound = true) :
    (evaluateStopped speed p).countsSound = true := by
  unfold evaluateStopped
  dsimp only
  split_ifs
  · exact beginCatching_sound hp
  · exact beginCranking_sound hp
  · exact hp

theorem evaluateCranking_sound (speed : Int) {p : Part} (hp : p.countsSound = true) :
    (evaluateCranking speed p).countsSound = true := by
  have seen : (seeStarter p).countsSound = true := sound_of_counts (seeStarter_counts p) hp
  unfold evaluateCranking
  dsimp only
  split_ifs
  · exact beginCatching_sound seen
  · exact changeEngine_sound _ (endAttempt_sound _ _ seen)
  · exact seen

theorem evaluateCatching_sound (speed : Int) {p : Part} (hp : p.countsSound = true) :
    (evaluateCatching speed p).countsSound = true := by
  unfold evaluateCatching
  dsimp only
  split_ifs
  · exact changeEngine_sound _ (endAttempt_sound _ _ hp)
  · exact beginCranking_sound (endAttempt_sound _ _ hp)
  · exact hp

theorem resumeFrom_sound (speed : Int) {p : Part} (hp : p.countsSound = true) :
    (resumeFrom speed p).countsSound = true := by
  unfold resumeFrom
  split
  · exact changeEngine_sound _ (countResume_sound hp)
  · exact evaluateStopped_sound _ (changeEngine_sound _ hp)

theorem loseSpeed_sound {p : Part} (hp : p.countsSound = true) : (loseSpeed p).countsSound = true :=
  changeEngine_sound _ hp

theorem evaluateDetector_sound (onSpeed : Bool) {p : Part} (hp : p.countsSound = true) :
    (evaluateDetector onSpeed p).countsSound = true := by
  unfold evaluateDetector
  split
  · split
    · exact loseSpeed_sound hp
    · exact hp
  · split
    · exact evaluateStopped_sound _ hp
    · exact evaluateCranking_sound _ hp
    · exact evaluateCatching_sound _ hp
    · unfold evaluateRunning
      split
      · exact changeEngine_sound _ hp
      · exact hp
    · split
      · exact resumeFrom_sound _ hp
      · exact hp

theorem expireWindowA_sound {p : Part} (hp : p.countsSound = true) : (expireWindowA p).countsSound = true := by
  unfold expireWindowA
  split
  · exact beginCranking_sound (endAttempt_sound _ _ hp)
  · exact hp

theorem expireWindowB_sound {p : Part} (hp : p.countsSound = true) : (expireWindowB p).countsSound = true := by
  unfold expireWindowB
  split
  · exact changeEngine_sound _ (startCredit_sound (endAttempt_sound _ _ hp))
  · exact hp

theorem handUpdate_sound (r : Nat) (sample : Bool) {p : Part} (hp : p.countsSound = true) :
    (handUpdate r sample p).countsSound = true := by
  unfold handUpdate
  split_ifs
  · exact evaluateDetector_sound true hp
  · exact evaluateDetector_sound false hp
  · split
    · exact reconcileHours_sound _ hp
    · exact hp
  · exact hp

theorem expireInterval_sound {p : Part} (hp : p.countsSound = true) : (expireInterval p).countsSound = true := by
  unfold expireInterval
  dsimp only
  split
  · exact judgeInterval_sound (creditAll_sound hp)
  · exact hp

theorem expireEvaluation_sound {p : Part} (hp : p.countsSound = true) : (expireEvaluation p).countsSound = true := by
  unfold expireEvaluation
  dsimp only
  split
  · exact evaluateClutch_sound hp
  · exact hp

end Sys2Proof.Machine
end

section
/-! The blocks around the accounting keep every slot sound and every usage entry in its ranges: the decoder, the mode
controller, the readers, the storage controller, the Probe Unit and the transmitters (R88, R89). -/

namespace Sys2Proof.Machine

/-! ## The ring, the decoder and the roles -/

theorem movePointer_counts (start : Word32) (p : Part) : (movePointer start p).counts = p.counts := rfl

theorem recordFrame_counts (f : Frame) (forward : Bool) (p : Part) : (recordFrame f forward p).counts = p.counts := by
  have recorded : (recordFrame f forward p).counts = (p.recorded f forward).counts :=
    (congrArg Part.counts (recordFrame_uncaptured f forward p) :)
  refine recorded.trans ?_
  unfold Part.recorded
  dsimp only
  split_ifs <;> rfl

theorem applyRole_sound (i : Nat) (ev : RoleEvent) {p : Part} (r : Nat) (hp : p.countsSound = true) :
    (applyRole i ev p r).countsSound = true := by
  have written : (if (p.role r).usable && !(p.roleStep i ev r).role.usable && p.register.requires r && p.judgesRoles then
      raiseRoleLost { p with roles := p.roles.setIfInBounds r (p.roleStep i ev r).role }
      else { p with roles := p.roles.setIfInBounds r (p.roleStep i ev r).role }).countsSound = true := by
    split <;> exact hp
  unfold applyRole
  dsimp only
  split
  · exact handUpdate_sound _ _ written
  · exact written

theorem applyRoles_sound (i : Nat) (ev : RoleEvent) {p : Part} (hp : p.countsSound = true) :
    (applyRoles i ev p).countsSound = true :=
  foldl_sound (fun _ r h => applyRole_sound i ev r h) _ hp

theorem decodeFrame_sound (entry period : Nat) (data : List Byte) {p : Part} (hp : p.countsSound = true) :
    (decodeFrame entry period data p).countsSound = true := by
  refine foldl_sound (fun q i h => ?_) _ hp
  split
  · split
    · exact applyRoles_sound _ _ h
    · exact h
  · exact h

theorem expireSignal_sound (i : Nat) {p : Part} (hp : p.countsSound = true) : (expireSignal i p).countsSound = true := by
  unfold expireSignal
  dsimp only
  split
  · exact applyRoles_sound _ _ hp
  · exact hp

theorem countUnmatched_counts (port : PortId) (p : Part) : (countUnmatched port p).counts = p.counts := by
  cases port <;> rfl

theorem matchFrame_sound (port : PortId) (f : Frame) {p : Part} (hp : p.countsSound = true) :
    (matchFrame port f p).countsSound = true := by
  unfold matchFrame
  split
  · split
    · exact sound_of_counts (recordFrame_counts ..) hp
    · exact sound_of_counts (countUnmatched_counts ..) hp
  · split
    · exact sound_of_counts (countUnmatched_counts ..) hp
    · split
      · exact sound_of_counts (countUnmatched_counts ..) hp
      · dsimp only
        refine decodeFrame_sound _ _ _ ?_
        split
        · exact sound_of_counts (recordFrame_counts ..) (p := p) hp
        · exact hp

/-! ## The power states and the mode -/

theorem wakeCause_counts (p : Part) : (wakeCause p).counts = p.counts := by
  unfold wakeCause
  split <;> rfl

theorem enterMode_counts (target : Mode) (p : Part) : (enterMode target p).counts = p.counts := by
  cases target <;> rfl

theorem changeMode_sound (target : Mode) {p : Part} (hp : p.countsSound = true) :
    (changeMode target p).countsSound = true := by
  have left : (leaveActive p).countsSound = true := by
    unfold leaveActive
    split
    · exact closeEngagement_sound hp
    · exact hp
  exact sound_of_counts (enterMode_counts target _) left

theorem foldSpectra_sound (old new : TableSet) {p : Part} (hp : p.countsSound = true) :
    (foldSpectra old new p).countsSound = true := by
  rw [countsSound_iff] at hp ⊢
  obtain ⟨slots, usages⟩ := hp
  refine ⟨fun n c hs => ?_, usages⟩
  have mapped : (foldSpectra old new p).slot n =
      (p.slot n).map fun c => if edgesDiffer old new c.kind then c.fold else c := by
    simp only [Part.slot, foldSpectra, Vector.getElem?_map]
    cases p.register.slots[n]? <;> rfl
  obtain ⟨c₀, stood, rfl⟩ := Option.map_eq_some_iff.mp (mapped.symm.trans hs)
  split
  · exact fold_sound (slots n c₀ stood)
  · exact slots n c₀ stood

theorem promote_sound {p : Part} (hp : p.countsSound = true) : (promote p).countsSound = true := by
  have swapped : p.swapped.countsSound = true := foldSpectra_sound _ _ hp
  rw [promote_of_lost]
  split
  · exact loseSpeed_sound swapped
  · exact loseSpeed_sound swapped

theorem settleIgn_sound {p : Part} (hp : p.countsSound = true) : (settleIgn p).countsSound = true := by
  unfold settleIgn
  dsimp only
  split_ifs
  · exact hp
  · exact hp
  · exact sound_of_counts (wakeCause_counts _) hp
  · exact changeEngine_sound _ hp
  · exact hp

/-- A restore begins with the slots EMPTY and no hire open. -/
theorem beginRestore_sound (p : Part) : (beginRestore p).countsSound = true := by
  have empty : (beginRestore p).counts = Part.supplyOn.counts := rfl
  exact sound_of_counts empty (by decide)

/-! ## The readers -/

theorem startReader_counts (ch : Channel) (task : ReaderTask) (p : Part) : (startReader ch task p).counts = p.counts := by
  unfold startReader
  split
  · rfl
  · exact respond_counts _ _ p

theorem collect_usages (h : Hire) (number : Nat) : (h.collect number).usages = h.usages := by
  unfold Hire.collect
  dsimp only
  split <;> rfl

theorem finishFrames_counts (number index remaining : Nat) (out : List Byte) (spoiled : Bool) (page : List Byte)
    (p : Part) : (finishFrames number index remaining out spoiled page p).1.counts = p.counts := by
  unfold finishFrames
  split
  · rfl
  · dsimp only
    split
    · split <;> rfl
    · split <;> rfl

theorem finishRead_counts (r : Reader) (p : Part) : (finishRead r p).1.counts = p.counts := by
  unfold finishRead
  split
  · rename_i number _ _
    exact congrArg (Prod.mk p.register.slots) (collect_usages p.hire number)
  · rfl
  · rfl
  · exact finishFrames_counts _ _ _ _ _ _ p
  · rfl

theorem readerTook_counts (bytes : List Byte) (spoiled : Bool) (p : Part) :
    (readerTook bytes spoiled p).counts = p.counts := by
  unfold readerTook
  split
  · rfl
  · rename_i r rest _
    dsimp only
    have read := finishRead_counts
      { r with page := r.page + 1, buffer := r.buffer ++ bytes, spoiled := r.spoiled || spoiled } p
    split
    · rfl
    · split <;> rename_i heq <;> rw [heq] at read
      · split
        · exact read
        · exact (respond_counts _ _ _).trans read
      · exact (respond_counts _ _ _).trans read

theorem readerFailed_counts (p : Part) : (readerFailed p).counts = p.counts := by
  unfold readerFailed
  split
  · rfl
  · exact respond_counts _ _ _

theorem expireScan_counts (ch : Channel) (p : Part) : (expireScan ch p).counts = p.counts := by
  unfold expireScan
  split
  · split
    · exact respond_counts _ _ _
    · rfl
  · rfl

/-! ## The storage controller -/

theorem answerWaiter_counts (ended : Option (Nat × Nat)) (p : Part) (w : Waiter) :
    (answerWaiter ended w p).counts = p.counts := by
  unfold answerWaiter
  split
  · rfl
  · exact (setChan_counts _ _ _).trans (respond_counts _ _ p)
  all_goals exact respond_counts _ _ p

theorem settleSleep_counts (completed : Bool) (p : Part) : (settleSleep completed p).counts = p.counts := by
  unfold settleSleep
  split <;> rfl

theorem endFull_counts (completed : Bool) (p : Part) : (endFull completed p).counts = p.counts := by
  unfold endFull
  dsimp only
  have answered := fun ended st =>
    foldl_keeps Part.counts (answerWaiter_counts ended) p.storage.full.waiters (p.setStorage st)
  split
  · exact (settleSleep_counts _ _).trans (answered _ _)
  · exact answered _ _

theorem endShort_counts (p : Part) : (endShort p).counts = p.counts := by
  unfold endShort
  split <;> rfl

theorem tableVerified_sound (resave : Bool) {p : Part} (hp : p.countsSound = true) :
    (tableVerified resave p).countsSound = true := by
  unfold tableVerified
  dsimp only
  split
  · split
    · exact hp
    · exact respond_sound _ _ (sound_of_counts (enterMode_counts _ _) (promote_sound hp))
  · split <;> exact hp
  · exact hp

theorem tableFailed_counts (resave : Bool) (p : Part) : (tableFailed resave p).counts = p.counts := by
  unfold tableFailed
  split
  · exact respond_counts _ _ _
  · rfl
  · rfl

theorem numbered_counts (p : Part) (next : Nat) : (p.numbered next).counts = p.counts := rfl

theorem emptySlot_counts (n : Nat) (p : Part) : (emptySlot n p).counts = (p.setSlot n none).counts := rfl

theorem emptySlot_sound (n : Nat) {p : Part} (hp : p.countsSound = true) : (emptySlot n p).countsSound = true :=
  sound_of_counts (emptySlot_counts n p) (setSlot_sound hp fun _ h => nomatch h)

theorem setRunning_counts (n : Nat) (b : Bool) (p : Part) : (setRunning n b p).counts = p.counts := rfl

/-- A component's archive write completes: the slot is emptied, or holds the new component (R64, R73). -/
theorem completeComponent_sound (record : ArchiveRecord) (events time units : Nat) (marks : Vector Nat 4) {p : Part}
    (hp : p.countsSound = true) : (completeComponent record events time units marks p).countsSound = true := by
  have answered : ∀ msg (q : Part), q.countsSound = true →
      (requestFull .archive none (respond .service msg (q.numbered (record.number + 1)))).countsSound = true :=
    fun msg q hq =>
      requestFull_sound _ _ (respond_sound .service msg (sound_of_counts (numbered_counts q (record.number + 1)) hq))
  cases hc : record.cause with
  | removed =>
    rw [completeComponent_removed _ _ _ _ hc]
    exact answered _ _ (emptySlot_sound _ hp)
  | changed =>
    cases hs : p.slot record.slot with
    | none =>
      simp only [completeComponent, hc, hs]
      exact answered _ p hp
    | some c =>
      rw [completeComponent_changed _ _ _ _ hc hs]
      exact answered _ _ (sound_of_counts (setRunning_counts ..) (setSlot_some_sound record.slot hp (confirmed_sound ..)))

theorem completeHire_sound (ch : Channel) {p : Part} (hp : p.countsSound = true) : (completeHire ch p).countsSound = true := by
  have usages := ((countsSound_iff p).mp hp).2
  unfold completeHire
  split
  · exact hp
  · rename_i h _
    refine respond_sound _ _ (hire_sound hp fun u hu => usages u ?_)
    have appended : (p.hire.append h.number).current = p.hire.current := by
      unfold Hire.append
      split <;> rfl
    simp only [Hire.usages, appended, Option.toList_none, List.append_nil] at hu
    simp only [Hire.usages, List.flatMap_append, List.mem_append]
    exact .inl hu

/-- A hire whose archive write fails is open again with the usage entries it had (R108). -/
theorem reopenHire_sound (ch : Channel) {p : Part} (hp : p.countsSound = true) : (reopenHire ch p).countsSound = true := by
  have usages := ((countsSound_iff p).mp hp).2
  unfold reopenHire
  split
  · exact hp
  · rename_i h closing
    refine respond_sound _ _ (hire_sound hp fun u hu => usages u ?_)
    have reopened : u ∈ h.usage := by simpa [Hire.usages] using hu
    exact List.mem_flatMap.mpr ⟨h, List.mem_append_right _ (Option.mem_toList.mpr closing), reopened⟩

theorem archiveVerified_sound {p : Part} (hp : p.countsSound = true) : (archiveVerified p).countsSound = true := by
  unfold archiveVerified completeArchive
  split
  · exact hp
  · split
    · exact hp
    · split
      · exact completeComponent_sound _ _ _ _ _ hp
      · exact completeHire_sound _ hp
      · exact hp

theorem archiveFailed_sound {p : Part} (hp : p.countsSound = true) : (archiveFailed p).countsSound = true := by
  unfold archiveFailed failArchive
  split
  · exact hp
  · split
    · exact respond_sound _ _ hp
    · exact reopenHire_sound _ hp
    · exact respond_sound _ _ hp

theorem captureVerified_counts (p : Part) : (captureVerified p).counts = p.counts := by
  unfold captureVerified
  split
  · rfl
  · dsimp only
    split
    · rfl
    · unfold pageStored
      split
      · rfl
      · exact copierRun_counts _
    · exact closeCapture_counts _ _ _
    · unfold released
      split <;> exact respond_counts _ _ _

theorem captureFailed_counts (p : Part) : (captureFailed p).counts = p.counts := by
  unfold captureFailed
  split
  · rfl
  · dsimp only
    split
    · exact respond_counts _ _ _
    all_goals exact failCapture_counts _ _

theorem writeVerified_sound (o : Owner) {p : Part} (hp : p.countsSound = true) : (writeVerified o p).countsSound = true := by
  unfold writeVerified
  split
  · unfold shortVerified
    dsimp only
    split
    · exact hp
    · exact sound_of_counts (endShort_counts p) hp
  · unfold fullVerified
    dsimp only
    split
    · exact hp
    · exact sound_of_counts (endFull_counts true p) hp
  · exact tableVerified_sound _ hp
  · exact archiveVerified_sound hp
  · exact sound_of_counts (captureVerified_counts p) hp
  · exact hp
  · exact hp

theorem writeFailed_sound (o : Owner) {p : Part} (hp : p.countsSound = true) : (writeFailed o p).countsSound = true := by
  unfold writeFailed
  split
  · exact sound_of_counts (endShort_counts p) hp
  · exact sound_of_counts (endFull_counts false p) hp
  · exact sound_of_counts (tableFailed_counts _ p) hp
  · exact archiveFailed_sound hp
  · exact sound_of_counts (captureFailed_counts p) hp
  · exact hp
  · exact hp

/-- Without a restore in progress an answered read changes no count. -/
theorem readTook_counts (m : Medium) (t : Transaction) {p : Part} (hr : p.restore = none) :
    (readTook m t p).counts = p.counts := by
  unfold readTook
  split
  · simp only [restoreTook, hr]
  · exact readerTook_counts _ _ p
  · rfl

theorem readSilent_counts (m : Medium) (o : Owner) {p : Part} (hr : p.restore = none) :
    (readSilent m o p).counts = p.counts := by
  unfold readSilent
  split
  · simp only [restoreUnanswered, hr]
  · exact readerFailed_counts p
  · rfl

/-! ## The Probe Unit -/

theorem endAttemptInHand_sound (h : InHand) (reply : Option Frame) {p : Part} (hp : p.countsSound = true) :
    (endAttemptInHand h reply p).countsSound = true := by
  unfold endAttemptInHand
  split
  · exact hp
  · rename_i c hs
    split
    · exact setSlot_some_sound h.slot hp (answered_sound (slot_sound hp hs) _)
    · split
      · exact rewriteSlot_sound hp hs (d := c.silence) rfl
      · exact hp

theorem endQuery_sound (reply : Option Frame) {p : Part} (hp : p.countsSound = true) :
    (endQuery reply p).countsSound = true := by
  unfold endQuery
  split
  · exact hp
  · dsimp only
    split
    · exact respond_sound _ _ hp
    · split
      · exact endAttemptInHand_sound _ _ hp
      · exact hp

theorem watchReply_sound (f : Frame) {p : Part} (hp : p.countsSound = true) : (watchReply f p).countsSound = true := by
  unfold watchReply
  split
  · split
    · exact endQuery_sound _ hp
    · exact hp
  · exact hp

theorem expireReply_sound {p : Part} (hp : p.countsSound = true) : (expireReply p).countsSound = true := by
  unfold expireReply
  split
  · exact hp
  · exact endQuery_sound _ hp

/-! ## The transmitters -/

theorem settle_counts (m : Medium) (p : Part) : (settle m p).counts = p.counts :=
  settle_keeps Part.counts (fun _ => rfl) m p

theorem settle_sound (m : Medium) {p : Part} (hp : p.countsSound = true) : (settle m p).countsSound = true :=
  sound_of_counts (settle_counts m p) hp

theorem endResponse_sound (ch : Channel) {p : Part} (hp : p.countsSound = true) : (endResponse ch p).countsSound = true := by
  unfold endResponse
  dsimp only
  split
  · exact beginRestore_sound _
  · exact sound_of_counts (setChan_counts _ _ p) hp

theorem frameLeft_sound (f : TxFrame) {p : Part} (hp : p.countsSound = true) : (frameLeft f p).countsSound = true := by
  unfold frameLeft
  split
  · split
    · exact endResponse_sound _ hp
    · exact sound_of_counts (setChan_counts _ _ p) hp
  all_goals exact hp

theorem frameWithdrawn_sound (f : TxFrame) {p : Part} (hp : p.countsSound = true) :
    (frameWithdrawn f p).countsSound = true := by
  unfold frameWithdrawn
  split
  · exact endResponse_sound _ (sound_of_counts (setChan_counts _ _ p) hp)
  · exact hp

theorem transmitted_sound (port : PortId) {p : Part} (hp : p.countsSound = true) : (transmitted port p).countsSound = true := by
  unfold transmitted
  dsimp only
  split
  · split
    · exact frameLeft_sound _ (sound_of_counts (setPort_counts _ _ p) hp)
    · exact hp
  · exact hp

theorem removeWaiting_counts (ch : Channel) (port : PortId) (p : Part) : (removeWaiting ch port p).counts = p.counts := by
  cases port <;> cases ch <;> rfl

theorem expireResponse_sound (place : FramePlace) {p : Part} (hp : p.countsSound = true) :
    (expireResponse place p).countsSound = true := by
  unfold expireResponse
  split
  · exact sound_of_counts (setChan_counts _ _ p) hp
  · split
    · exact frameWithdrawn_sound _ (sound_of_counts (removeWaiting_counts _ _ p) hp)
    · exact hp
  · split
    · split
      · exact frameWithdrawn_sound _ (sound_of_counts (setPort_counts _ _ p) hp)
      · exact hp
    · exact hp

end Sys2Proof.Machine
end

section
/-! Every step of a part that is not restoring keeps every slot sound and every usage entry in its ranges (R88, R89). -/

namespace Sys2Proof.Machine

/-! ## Requests -/

theorem mapChan_sound (ch : Channel) (f : Chan → Chan) {p : Part} (hp : p.countsSound = true) :
    (p.mapChan ch f).countsSound = true := sound_of_counts (setChan_counts _ _ p) hp

/-- A request that is refused, or whose own doings keep the part sound; they may take it that no argument is at fault. -/
theorem admitRequest_sound {t : Terms} {ch : Channel} {code : Byte} {bad : Option Nat} {go : Part → Part} {p : Part}
    (hp : p.countsSound = true) (h : bad = none → (go p).countsSound = true) :
    (admitRequest t ch code bad go p).countsSound = true := by
  unfold admitRequest
  split
  · exact respond_sound _ _ hp
  · split
    · exact respond_sound _ _ hp
    · exact h rfl

/-- A request whose own doings change no count. -/
theorem admitRequest_sound_of_counts {t : Terms} {ch : Channel} {code : Byte} {bad : Option Nat} {go : Part → Part}
    {p : Part} (hp : p.countsSound = true) (h : (go p).counts = p.counts) :
    (admitRequest t ch code bad go p).countsSound = true :=
  admitRequest_sound hp fun _ => sound_of_counts h hp

theorem requestSetMode_sound (ch : Channel) (target : Byte) {p : Part} (hp : p.countsSound = true) :
    (requestSetMode ch target p).countsSound = true := by
  refine admitRequest_sound hp fun _ => ?_
  split
  · unfold applyMode
    split_ifs
    · exact respond_sound _ _ hp
    · exact respond_sound _ _ hp
    · exact respond_sound _ _ hp
    · exact respond_sound _ _ hp
    · exact respond_sound _ _ (changeMode_sound _ hp)
    · exact respond_sound _ _ hp
    · split
      · exact respond_sound _ _ hp
      · exact hp
    · exact respond_sound _ _ (changeMode_sound _ hp)
  · exact hp

theorem requestWriteTable_sound (ch : Channel) (table item : Byte) (contents : List Byte) {p : Part}
    (hp : p.countsSound = true) : (requestWriteTable ch table item contents p).countsSound = true := by
  refine admitRequest_sound hp fun _ => ?_
  unfold writeItem
  split
  · exact respond_sound _ _ hp
  · split
    · exact respond_sound _ _ hp
    · exact hp

/-- CLEAR ALL leaves the slots EMPTY and no hire (R40). -/
theorem applyClear_sound (p : Part) : (applyClear p).countsSound = true := by
  have cleared : (applyClear p).counts = Part.supplyOn.counts := rfl
  exact sound_of_counts cleared (by decide)

theorem requestClearAll_sound (ch : Channel) {p : Part} (hp : p.countsSound = true) :
    (requestClearAll ch p).countsSound = true := by
  refine admitRequest_sound hp fun _ => ?_
  split
  · exact respond_sound _ _ hp
  · exact applyClear_sound p

/-- A check of a list that no argument fails holds (R176). -/
theorem check_of_firstBad {checks : List (Nat × Bool)} (h : firstBad checks = none) {x : Nat × Bool} (hx : x ∈ checks) :
    x.2 = true := by
  simpa using List.find?_eq_none.mp (Option.map_eq_none_iff.mp h) x hx

/-- What Install Component starts has its figures in range: the arguments' checks bound the wear (R62, R63). -/
theorem requestInstall_sound (ch : Channel) (a : InstallArgs) {p : Part} (hp : p.countsSound = true) :
    (requestInstall ch a p).countsSound = true := by
  refine admitRequest_sound hp fun checked => ?_
  have wear : a.wear.toNat ≤ wearLimit :=
    of_decide_eq_true (check_of_firstBad (x := (7, decide (a.wear.toNat ≤ wearLimit))) checked (by simp [installChecks]))
  have word : ∀ w : Word32, w.toNat ≤ max32 := fun w => Nat.le_of_lt_succ w.isLt
  split
  · unfold applyInstall
    dsimp only
    split_ifs
    · exact respond_sound _ _ hp
    · exact respond_sound _ _ hp
    · exact respond_sound _ _ hp
    · exact requestFull_sound _ _ (respond_sound _ _ (sound_of_counts (setRunning_counts ..)
        (setSlot_some_sound _ hp (starting_sound (word _) (word _) wear))))
  · exact hp

theorem requestRemove_sound (ch : Channel) (slot : Byte) {p : Part} (hp : p.countsSound = true) :
    (requestRemove ch slot p).countsSound = true := by
  refine admitRequest_sound hp fun _ => ?_
  split
  · exact respond_sound _ _ hp
  · split
    · exact respond_sound _ _ hp
    · split
      · exact respond_sound _ _ hp
      · exact hp

theorem requestConfirm_sound (ch : Channel) (slot : Byte) (events time wear : Word32) {p : Part}
    (hp : p.countsSound = true) : (requestConfirm ch slot events time wear p).countsSound = true := by
  refine admitRequest_sound hp fun _ => ?_
  split
  · exact respond_sound _ _ hp
  · split
    · exact respond_sound _ _ hp
    · split
      · exact respond_sound _ _ hp
      · exact hp

/-- Adopt Identity and Dismiss Mismatch: a resolution that keeps a record sound (R74, R75). -/
theorem resolveHold_sound (ch : Channel) (code : Byte) (n : Nat) {f : Component → Hold → Component} {p : Part}
    (hf : ∀ c h, c.sound = true → (f c h).sound = true) (hp : p.countsSound = true) :
    (resolveHold ch code n f p).countsSound = true := by
  unfold resolveHold
  split
  · exact respond_sound _ _ hp
  · rename_i c hs
    split
    · exact respond_sound _ _ hp
    · exact requestFull_sound _ _ (respond_sound _ _ (setSlot_some_sound n hp (hf c _ (slot_sound hp hs))))

theorem requestVerify_sound (ch : Channel) (slot : Byte) {p : Part} (hp : p.countsSound = true) :
    (requestVerify ch slot p).countsSound = true := by
  refine admitRequest_sound hp fun _ => ?_
  split_ifs
  · exact respond_sound _ _ (queueAll_sound hp)
  · exact respond_sound _ _ hp
  · exact respond_sound _ _ (queueVerification_sound _ hp)

/-- A hire opens with usage entries at 0 (R103, R105). -/
theorem newHire_usage (p : Part) (ch : Channel) (contract : Nat) :
    ∀ u ∈ (p.newHire ch contract).usage, u.ranged = true := by
  intro u hu
  obtain ⟨n, -, made⟩ := List.mem_filterMap.mp hu
  obtain ⟨c, -, rfl⟩ := Option.map_eq_some_iff.mp made
  exact (Usage.ranged_iff _).mpr figuresRanged_zero

theorem requestOpenHire_sound (ch : Channel) (contract : Word32) {p : Part} (hp : p.countsSound = true) :
    (requestOpenHire ch contract p).countsSound = true := by
  have usages := ((countsSound_iff p).mp hp).2
  refine admitRequest_sound hp fun _ => ?_
  dsimp only
  split_ifs
  · exact respond_sound _ _ hp
  · exact respond_sound _ _ hp
  · exact respond_sound _ _ hp
  · refine requestFull_sound _ _ (respond_sound _ _ (hire_sound hp fun u hu => ?_))
    obtain ⟨r, hr, hu⟩ := List.mem_flatMap.mp hu
    rcases List.mem_append.mp hr with opened | closing
    · obtain rfl := Option.some.inj (Option.mem_toList.mp opened)
      exact newHire_usage p ch _ u hu
    · exact usages u (List.mem_flatMap.mpr ⟨r, List.mem_append_right _ closing, hu⟩)

theorem requestCloseHire_sound (ch : Channel) {p : Part} (hp : p.countsSound = true) :
    (requestCloseHire ch p).countsSound = true := by
  have usages := ((countsSound_iff p).mp hp).2
  refine admitRequest_sound hp fun _ => ?_
  split
  · exact respond_sound _ _ hp
  · split
    · exact respond_sound _ _ hp
    · rename_i h current
      refine hire_sound (p := p) hp fun u hu => usages u ?_
      have closed : u ∈ h.usage := by simpa [Hire.usages] using hu
      exact List.mem_flatMap.mpr ⟨h, List.mem_append_left _ (Option.mem_toList.mpr current), closed⟩

theorem requestCaptureNow_sound (ch : Channel) (pre post : BitVec 16) {p : Part} (hp : p.countsSound = true) :
    (requestCaptureNow ch pre post p).countsSound = true :=
  admitRequest_sound_of_counts hp ((respond_counts _ _ _).trans (takeTrigger_counts _ p))

theorem requestReadTable_sound (ch : Channel) (table item : Byte) {p : Part} (hp : p.countsSound = true) :
    (requestReadTable ch table item p).countsSound = true := by
  refine admitRequest_sound hp fun _ => ?_
  split <;> exact respond_sound _ _ hp

theorem requestRestart_sound (ch : Channel) {p : Part} (hp : p.countsSound = true) :
    (requestRestart ch p).countsSound = true := by
  refine admitRequest_sound hp fun _ => ?_
  split
  · exact respond_sound _ _ hp
  · exact requestFull_sound _ _ hp

theorem requestSpectrum_sound (ch : Channel) (slot : Byte) {p : Part} (hp : p.countsSound = true) :
    (requestSpectrum ch slot p).countsSound = true := by
  refine admitRequest_sound hp fun _ => ?_
  split <;> exact respond_sound _ _ hp

theorem requestReadHire_sound (ch : Channel) {p : Part} (hp : p.countsSound = true) :
    (requestReadHire ch p).countsSound = true := by
  refine admitRequest_sound hp fun _ => ?_
  split <;> exact respond_sound _ _ hp

theorem requestCollectHire_sound (ch : Channel) {p : Part} (hp : p.countsSound = true) :
    (requestCollectHire ch p).countsSound = true := by
  refine admitRequest_sound hp fun _ => ?_
  split
  · exact respond_sound _ _ hp
  · exact sound_of_counts (startReader_counts _ _ p) hp

theorem requestRelease_sound (ch : Channel) (number : Word32) {p : Part} (hp : p.countsSound = true) :
    (requestRelease ch number p).countsSound = true := by
  refine admitRequest_sound hp fun _ => ?_
  split
  · exact hp
  · split_ifs
    · exact respond_sound _ _ hp
    · exact respond_sound _ _ hp
    · exact hp

/-- A whole message keeps the counts sound, whatever it asks for. -/
theorem dispatch_sound (ch : Channel) (msg : List Byte) {p : Part} (hp : p.countsSound = true) :
    (dispatch ch msg p).countsSound = true := by
  have answered : ∀ {t : Terms} {code : Byte} {bad : Option Nat} {results : Part → List Byte} {change : Part → Part},
      (change p).counts = p.counts →
      (admitRequest t ch code bad (fun q => answer ch code (results q) (change q)) p).countsSound = true :=
    fun h => admitRequest_sound_of_counts hp ((respond_counts _ _ _).trans h)
  have read : ∀ {t : Terms} {code : Byte} {bad : Option Nat} {results : Part → List Byte},
      (admitRequest t ch code bad (fun q => answer ch code (results q) q) p).countsSound = true :=
    answered (change := id) rfl
  unfold dispatch
  dsimp only
  split
  · exact respond_sound _ _ hp
  · split
    · exact read
    · exact read
    · exact requestSetMode_sound ch _ hp
    · exact admitRequest_sound_of_counts hp (respond_counts _ _ _)
    · exact requestRestart_sound ch hp
    · exact requestClearAll_sound ch hp
    · exact admitRequest_sound_of_counts hp (respond_counts _ _ _)
    · exact requestWriteTable_sound ch _ _ _ hp
    · exact requestReadTable_sound ch _ _ hp
    · exact read
    · exact read
    · exact requestSpectrum_sound ch _ hp
    · exact requestInstall_sound ch _ hp
    · exact requestRemove_sound ch _ hp
    · exact requestConfirm_sound ch _ _ _ _ hp
    · exact admitRequest_sound hp fun _ => resolveHold_sound ch _ _ (fun _ h hc => adopt_sound hc h) hp
    · exact admitRequest_sound hp fun _ => resolveHold_sound ch _ _ (fun _ h hc => dismiss_sound hc h) hp
    · exact requestVerify_sound ch _ hp
    · exact admitRequest_sound_of_counts hp rfl
    · exact requestOpenHire_sound ch _ hp
    · exact requestCloseHire_sound ch hp
    · exact requestReadHire_sound ch hp
    · exact requestCollectHire_sound ch hp
    · exact read
    · exact requestCaptureNow_sound ch _ _ hp
    · exact admitRequest_sound_of_counts hp (respond_counts _ _ _)
    · exact admitRequest_sound_of_counts hp (respond_counts _ _ _)
    · exact requestRelease_sound ch _ hp
    · exact read
    · exact admitRequest_sound_of_counts hp rfl
    · exact read
    · exact admitRequest_sound_of_counts hp (startReader_counts ..)
    · exact admitRequest_sound_of_counts hp (startReader_counts ..)
    · exact read
    · exact admitRequest_sound_of_counts hp (respond_counts _ _ _)
    · exact admitRequest_sound_of_counts hp (respond_counts _ _ _)
    · exact respond_sound _ _ hp

/-! ## Messages and frames -/

theorem busyAnswer_sound (ch : Channel) (port : PortId) (code : Byte) {p : Part} (hp : p.countsSound = true) :
    (busyAnswer ch port code p).countsSound = true := by
  unfold busyAnswer
  split
  · exact hp
  · exact mapChan_sound _ _ hp

theorem takeWhole_sound (ch : Channel) (port : PortId) (code : Byte) {run : Part → Part} {p : Part}
    (hp : p.countsSound = true) (hrun : ∀ q : Part, q.countsSound = true → (run q).countsSound = true) :
    (takeWhole ch port code run p).countsSound = true := by
  unfold takeWhole
  split
  · exact hrun _ (mapChan_sound _ _ hp)
  · exact hrun _ (mapChan_sound _ _ hp)
  all_goals exact busyAnswer_sound _ _ _ hp

theorem takeNext_sound (ch : Channel) (bytes : List Byte) {p : Part} (hp : p.countsSound = true) :
    (takeNext ch bytes p).countsSound = true := by
  have changed := fun c => sound_of_counts (setChan_counts ch c p) hp
  unfold takeNext
  dsimp only
  split
  · exact dispatch_sound ch _ (changed _)
  · exact changed _

theorem takeSegment_sound (ch : Channel) (port : PortId) (seg : Segment) {p : Part} (hp : p.countsSound = true) :
    (takeSegment ch port seg p).countsSound = true := by
  unfold takeSegment
  split
  · exact takeWhole_sound ch port _ hp fun q => dispatch_sound ch _
  · exact mapChan_sound _ _ hp
  · exact mapChan_sound _ _ hp
  · exact busyAnswer_sound _ _ _ hp
  · exact busyAnswer_sound _ _ _ hp
  · unfold nextReceived
    dsimp only
    split_ifs
    · exact mapChan_sound _ _ hp
    · exact mapChan_sound _ _ hp
    · exact takeNext_sound ch _ hp
    · exact mapChan_sound _ _ hp
  · exact hp
  · exact mapChan_sound _ _ hp
  · exact mapChan_sound _ _ hp

theorem routeFrame_sound (port : PortId) (f : Frame) {p : Part} (hp : p.countsSound = true) :
    (routeFrame port f p).countsSound = true := by
  unfold routeFrame
  split
  · unfold routeManagement
    split_ifs
    · exact takeSegment_sound _ _ _ hp
    · exact takeSegment_sound _ _ _ hp
    · exact hp
  · exact matchFrame_sound port f hp

theorem receiveFrame_sound (port : PortId) (f : Frame) {p : Part} (hp : p.countsSound = true) :
    (receiveFrame port f p).countsSound = true := by
  have counted : (countReceived port p).countsSound = true := sound_of_counts (setPort_counts _ _ p) hp
  have woken : (wakeCause (countReceived port p)).countsSound = true := sound_of_counts (wakeCause_counts _) counted
  unfold receiveFrame
  split
  · exact hp
  · dsimp only
    split_ifs
    · exact counted
    · exact routeFrame_sound _ f (watchReply_sound f woken)
    · exact routeFrame_sound port f woken
    · exact counted
    · exact routeFrame_sound port f counted

theorem presentMessage_sound (src : Source) (msg : List Byte) {p : Part} (hp : p.countsSound = true) :
    (presentMessage src msg (fun ch => dispatch ch msg) p).countsSound = true := by
  have sampled : (sampleSource src p).countsSound = true := by cases src <;> exact hp
  have woken : (wakeCause (sampleSource src p)).countsSound = true := sound_of_counts (wakeCause_counts _) sampled
  unfold presentMessage
  dsimp only
  split_ifs
  · exact sampled
  · exact sampled
  · exact takeWhole_sound _ _ _ woken fun q => dispatch_sound _ _
  · exact takeWhole_sound _ _ _ woken fun q => respond_sound _ _

/-! ## Commands -/

theorem after_sound (s : State) {p : Part} (hp : p.countsSound = true) : (s.after p).part.countsSound = true :=
  settle_sound _ hp

theorem runAwake_sound {f : Part → Part} {s t : State} (hf : ∀ p : Part, p.countsSound = true → (f p).countsSound = true)
    (hs : s.part.countsSound = true) (h : runAwake f s = .next t) : t.part.countsSound = true := by
  cases h
  refine after_sound s ?_
  unfold whenAwake
  split
  · exact hf _ hs
  · exact hs

/-- A timer's expiry on a running part: its effect while the timer runs. -/
theorem runTimer_sound (running : Part → Bool) {f : Part → Part} {s t : State}
    (hf : ∀ p : Part, p.countsSound = true → (f p).countsSound = true) (hs : s.part.countsSound = true)
    (h : runAwake (fun p => if running p then f p else p) s = .next t) : t.part.countsSound = true := by
  refine runAwake_sound (fun p hp => ?_) hs h
  split
  · exact hf p hp
  · exact hp

theorem failAttempt_sound (x : Transaction) {s : State} (hs : s.part.countsSound = true) :
    (failAttempt x s).part.countsSound = true := by
  unfold failAttempt
  dsimp only
  split
  · exact hs
  · exact settle_sound _ (writeFailed_sound _ hs)

theorem failRead_sound (x : Transaction) {s : State} (hr : s.part.restore = none) (hs : s.part.countsSound = true) :
    (failRead x s).part.countsSound = true := by
  unfold failRead
  dsimp only
  split
  · exact hs
  · exact settle_sound _ (sound_of_counts (readSilent_counts (p := s.part.setStorage _) _ _ hr) hs)

theorem assertPfw_counts (p : Part) : (assertPfw p).counts = p.counts := by
  unfold assertPfw
  split <;> rfl

theorem execPfwAsserted_sound {s t : State} (hs : s.part.countsSound = true) (h : execPfwAsserted s = .next t) :
    t.part.countsSound = true := by
  unfold execPfwAsserted at h
  dsimp only at h
  split_ifs at h <;> cases h
  · exact hs
  · exact settle_sound _ (sound_of_counts (assertPfw_counts _) hs)
  · exact settle_sound _ (sound_of_counts (assertPfw_counts _) hs)

theorem execPageWriteComplete_sound {equal : Bool} {s t : State} (hs : s.part.countsSound = true)
    (h : execPageWriteComplete equal s = .next t) : t.part.countsSound = true := by
  unfold execPageWriteComplete at h
  split at h
  · cases h; exact hs
  · split at h
    · cases h; exact hs
    · split_ifs at h <;> cases h
      · exact settle_sound _ (writeVerified_sound _ hs)
      · exact failAttempt_sound _ hs

theorem execPageReadComplete_sound {s t : State} (hr : s.part.restore = none) (hs : s.part.countsSound = true)
    (h : execPageReadComplete s = .next t) : t.part.countsSound = true := by
  unfold execPageReadComplete at h
  split at h
  · cases h; exact hs
  · split_ifs at h <;> cases h
    · exact hs
    · exact settle_sound _ (sound_of_counts (readTook_counts (p := s.part.setStorage _) _ _ hr) hs)

theorem execStorageAnswerTimeout_sound {s t : State} (hr : s.part.restore = none) (hs : s.part.countsSound = true)
    (h : execStorageAnswerTimeout s = .next t) : t.part.countsSound = true := by
  unfold execStorageAnswerTimeout at h
  split at h
  · cases h; exact hs
  · split at h <;> cases h
    · exact failAttempt_sound _ hs
    · exact failRead_sound _ hr hs

theorem captFall_counts (p : Part) : (captFall p).counts = p.counts := by
  unfold captFall
  dsimp only
  split
  · exact takeTrigger_counts _ p
  · rfl

theorem expireGap_sound (ch : Channel) {p : Part} (hp : p.countsSound = true) : (expireGap ch p).countsSound = true := by
  unfold expireGap
  split
  · exact mapChan_sound _ _ hp
  · exact hp

/-- Every command keeps the counts of a part that is not restoring sound (R88, R89). -/
theorem exec_sound {i : Instr} {s t : State} (hr : s.part.restore = none) (hs : s.part.countsSound = true)
    (h : exec i s = .next t) : t.part.countsSound = true := by
  have request : ∀ {src msg}, requestOf i = some (src, msg) → t.part.countsSound = true := by
    intro src msg hr
    rw [exec_eq_dispatch hr] at h
    cases h
    exact after_sound s (presentMessage_sound src msg hs)
  have kept : ∀ {f : Part → Part}, (∀ p, (f p).counts = p.counts) →
      ∀ p : Part, p.countsSound = true → (f p).countsSound = true := fun hf p => sound_of_counts (hf p)
  have port : ∀ port q, (s.part.setPort port q).countsSound = true := fun port q =>
    sound_of_counts (setPort_counts port q _) hs
  cases i
  case dataFrameReceived port frame svc =>
    simp only [exec, execDataFrameReceived] at h
    split_ifs at h
    cases h
    exact after_sound s (receiveFrame_sound port frame hs)
  case damagedFrameReceived =>
    simp only [exec, execDamagedFrameReceived] at h
    split_ifs at h <;> cases h
    · exact port _ _
    · exact hs
  case remoteRequestFrame =>
    simp only [exec, execRemoteRequestFrame] at h
    split_ifs at h <;> cases h
    · exact port _ _
    · exact hs
  case transmissionFailed =>
    simp only [exec, execTransmissionFailed] at h
    split_ifs at h <;> cases h
    · exact port _ _
    · exact hs
  case transmissionSucceeded port => exact runAwake_sound (fun _ => transmitted_sound port) hs h
  case busOffRecoveryExpiry port =>
    exact runTimer_sound (fun p => (p.port port).recovery.isSome) (kept fun p => setPort_counts port _ p) hs h
  case freshnessDeadlineExpiry signal => exact runAwake_sound (fun _ => expireSignal_sound _) hs h
  case windowAExpiry => exact runTimer_sound (fun p => p.detector.windowA.isSome) (fun _ => expireWindowA_sound) hs h
  case windowBExpiry => exact runTimer_sound (fun p => p.detector.windowB.isSome) (fun _ => expireWindowB_sound) hs h
  case intervalExpiry => exact runTimer_sound (fun p => p.wear.timer.isSome) (fun _ => expireInterval_sound) hs h
  case evaluationExpiry => exact runTimer_sound (fun p => p.clutch.timer.isSome) (fun _ => expireEvaluation_sound) hs h
  case ignLineChange level =>
    cases h
    unfold changeIgn
    dsimp only
    split <;> exact hs
  case ignDebounceExpiry => cases h; exact after_sound s (settleIgn_sound hs)
  case quietPeriodExpiry =>
    exact runTimer_sound (fun p => p.modeCtl.quiet.isSome) (f := expireQuiet) (kept fun _ => rfl) hs h
  case deviceClockTick =>
    simp only [exec, execDeviceClockTick] at h
    split_ifs at h <;> cases h <;> exact hs
  case captLineFall => exact runAwake_sound (kept captFall_counts) hs h
  case captDriveTimerExpiry => cases h; exact hs
  case postTimeoutExpiry =>
    exact runTimer_sound (fun p => p.capture.postTimeout.isSome) (f := expirePost) (kept fun _ => copierRun_counts _) hs h
  case ageDeadlineExpiry =>
    exact runTimer_sound (fun p => p.ring.age.isSome) (f := expireAge) (kept fun _ => rfl) hs h
  case replyTimeout => exact runAwake_sound (fun _ => expireReply_sound) hs h
  case gapTimerExpiry ch => exact runAwake_sound (fun _ => expireGap_sound ch) hs h
  case responseTimeout place => exact runAwake_sound (fun _ => expireResponse_sound place) hs h
  case statusTimerExpiry =>
    exact runTimer_sound (fun p => p.link.statusTimer.isSome) (f := expireStatus) (kept fun _ => rfl) hs h
  case scanTimerExpiry ch => exact runAwake_sound (kept (expireScan_counts ch)) hs h
  case pageWriteComplete equal => exact execPageWriteComplete_sound hs h
  case pageReadComplete => exact execPageReadComplete_sound hr hs h
  case storageAnswerTimeout => exact execStorageAnswerTimeout_sound hr hs h
  case pfwAsserted => exact execPfwAsserted_sound hs h
  case pfwWithdrawn => cases h; exact after_sound s hs
  case supplyLoss =>
    simp only [exec, execSupplyLoss] at h
    split_ifs at h <;> cases h
    · exact sound_of_counts (p := Part.supplyOn) rfl (by decide)
    · exact hs
  case supplyOn =>
    simp only [exec, execSupplyOn] at h
    split_ifs at h <;> cases h
    · exact hs
    · exact beginRestore_sound _
  all_goals exact request rfl

theorem tick_counts (p : Part) : p.tick.counts = p.counts := rfl

/-- Settles O6: whatever a command or a millisecond does, what it credits, merges, folds or starts is sound. -/
theorem stepKeepsCountsSound : Obligations.StepKeepsCountsSound := by
  intro s t hr hs h
  unfold step at h
  split at h
  · rename_i rest _
    exact exec_sound (s := { s with pending := rest }) hr hs h
  · split at h
    · exact exec_sound hr hs h
    · cases h
      unfold State.tick
      split
      · exact sound_of_counts (tick_counts _) hs
      · exact hs

end Sys2Proof.Machine
end

section
/-! The Clutch Monitor's evaluations (R91 to R94) and hours reconciliation (R97, R98). -/

namespace Sys2Proof.Machine

/-! ## Evaluations in gear (R92 to R94) -/

/-- The part after a step of the slip: the engagement and the carry that the step leaves. -/
def Part.slipping (p : Part) (next : Engagement × Nat) : Part :=
  { p with clutch := { p.clutch with engagement := some next.1, carry := next.2 } }

section
variable {p : Part} {e : Engagement} {engine input gear torque : Int}

/-- A slip at the threshold opens the engagement, or goes on with the open one and its carry, by one step of energy
(R92, R93). -/
theorem evaluateClutch_of_slip (hr : p.clutchRoles = some (engine, input, gear, torque)) (hg : gear ≠ 0)
    (hs : p.modeCtl.active.limits.slip ≤ (engine - input).natAbs) :
    evaluateClutch p =
      p.slipping (slipStep (p.clutch.engagement.getD { startSpeed := p.usableValue roleOutputSpeed })
        (if p.clutch.engagement.isSome then p.clutch.carry else 0) (engine - input).natAbs (nonNegative torque).toNat
        p.modeCtl.active.limits.referenceTorque) := by
  cases he : p.clutch.engagement with
  | none =>
    simp only [evaluateClutch, hr, hg, if_false, he, hs, decide_true, if_true]
    rfl
  | some e =>
    simp only [evaluateClutch, hr, hg, if_false, he, hs, decide_true, if_true]
    rfl

/-- A slip below the threshold raises the below count, and the third in a row closes the engagement (R94). -/
theorem evaluateClutch_of_below (he : p.clutch.engagement = some e)
    (hr : p.clutchRoles = some (engine, input, gear, torque)) (hg : gear ≠ 0)
    (hs : (engine - input).natAbs < p.modeCtl.active.limits.slip) :
    evaluateClutch p =
      if e.below + 1 = 3 then closeEngagement p
      else { p with clutch := { p.clutch with engagement := some { e with below := e.below + 1 } } } := by
  simp only [evaluateClutch, hr, hg, if_false, he, Nat.not_le.mpr hs, decide_false, Bool.false_eq_true]

end

/-- Settles O25, by the slip's side of the threshold. -/
theorem thirdBelowCountCloses : Obligations.ThirdBelowCountCloses := by
  intro p e engine input gear torque he hr hg slip
  refine ⟨fun below count => ?_, fun below count => ?_, fun slips => ?_⟩
  · rw [evaluateClutch_of_below he hr hg below, if_neg count]
  · have closes : evaluateClutch p = closeEngagement p := by rw [evaluateClutch_of_below he hr hg below, if_pos count]
    exact ⟨closes, by rw [closes, closeEngagement_of_some he]⟩
  · exact ⟨_, by rw [evaluateClutch_of_slip hr hg slips]; rfl, rfl⟩

/-! ## The evaluation's expiry (R91) -/

/-- The part with the Clutch Monitor's next period begun. -/
def Part.evaluating (p : Part) : Part := { p with clutch := { p.clutch with timer := some 100 } }

theorem expireEvaluation_active {p : Part} (hm : p.modeCtl.mode = .active) (he : p.detector.engine = .running) :
    expireEvaluation p = evaluateClutch p.evaluating := if_pos ⟨hm, he⟩

theorem expireEvaluation_idle {p : Part} (h : p.modeCtl.mode ≠ .active ∨ p.detector.engine ≠ .running) :
    expireEvaluation p = p.evaluating := if_neg (not_and_or.mpr h)

/-- An evaluation expiry leaves what `expireEvaluation` makes of the part. -/
theorem leaves_expireEvaluation {s : State} (ha : s.part.awake = true) (ht : s.part.clutch.timer.isSome = true) :
    Leaves .evaluationExpiry s (expireEvaluation s.part) fun _ => True := by
  obtain ⟨-, -, -, unrestored⟩ := awake_parts ha
  have expires : (if s.part.clutch.timer.isSome then expireEvaluation s.part else s.part) = expireEvaluation s.part :=
    if_pos ht
  have restore : (expireEvaluation s.part).restore = none :=
    (keeps_of_still Part.restore (fun _ => rfl) (expireEvaluation_still s.part)).trans unrestored
  exact leaves_of_runAwake rfl ha (by rw [expires, restore]) (by rw [expires]) trivial

/-- One slipping step of an engagement whose energy has not saturated (R93). -/
theorem slipStep_unsaturated {e : Engagement} (h : e.saturated = false) (carry slip torque reference : Nat) :
    slipStep e carry slip torque reference =
      let numerator := torque * reference / 100 * slip * 10472 + carry
      ({ e with
          slipTime := min 65535 (e.slipTime + 1)
          energy := min 16777215 (e.energy + numerator / 1000000)
          saturated := decide (16777215 < e.energy + numerator / 1000000)
          below := 0 },
        numerator % 1000000) := by
  simp only [slipStep, h, Bool.false_eq_true, if_false, Bool.false_or]
  rfl

/-- Settles O24: the expiry with nothing to evaluate, with the clutch to evaluate, and with a slip. -/
theorem slippingEvaluationAddsEnergy : Obligations.SlippingEvaluationAddsEnergy := by
  intro s ha ht p
  have leaves := leaves_expireEvaluation ha ht
  refine ⟨fun idle => ?_, fun hm he => ?_, ?_⟩
  · rw [expireEvaluation_idle idle] at leaves
    exact leaves
  · rw [expireEvaluation_active hm he] at leaves
    exact leaves
  · intro engine input gear torque hm he hr hg hs e carry newtonMetres numerator unsaturated
    have slips := (evaluateClutch_of_slip (p := p.evaluating) hr hg hs).trans
      (congrArg p.evaluating.slipping (slipStep_unsaturated unsaturated carry _ (nonNegative torque).toNat _))
    rw [expireEvaluation_active hm he, slips] at leaves
    exact leaves

/-! ## Hours reconciliation (R97, R98) -/

section
variable {p : Part} {n : Nat} {c : Component}

theorem anchor_of_some (hs : p.slot n = some c) (v : Nat) (regressed : Bool) :
    anchor n v regressed p =
      p.setSlot n (some { c with reference := some (v, c.ownTime), regressed := c.regressed || regressed }) := by
  simp only [anchor, hs]

theorem anchor_of_risen (hs : p.slot n = some c) (v : Nat) :
    anchor n v false p = p.setSlot n (some { c with reference := some (v, c.ownTime) }) := by
  rw [anchor_of_some hs, Bool.or_false]

/-- A reference anchored after a credit: to the own time that the credit has raised (R98). -/
theorem anchor_creditSlot (hs : p.slot n = some c) (v : Nat) (a : Credit) :
    anchor n v false (creditSlot n a p) =
      { p.setSlot n (some { c.credit a with reference := some (v, (c.credit a).ownTime) }) with
        hire := p.hire.credit n c a } := by
  have credited : (creditSlot n a p).slot n = some (c.credit a) := by
    rw [creditSlot_of_some a hs]
    exact Part.setSlot_slot p (slot_lt hs) _
  rw [anchor_of_risen credited, creditSlot_of_some a hs]
  exact congrArg (fun q : Part => { q with hire := p.hire.credit n c a }) (setSlot_setSlot p n _ _)

/-- Reconciliation by the reference of the ENGINE slot (R97, R98). -/
theorem reconcileHours_of_slot (hk : p.slotOfKind .engine = some n) (hs : p.slot n = some c) (v : Nat) :
    reconcileHours v p =
      match c.reference with
      | none => anchor n v false p
      | some (v0, t0) =>
        if v = v0 then p
        else if v < v0 then anchor n v true p
        else if p.modeCtl.mode ≠ .active then anchor n v false p
        else if c.ownTime - t0 + 360 < (v - v0) * 180 then
          let credit := (v - v0) * 180 - (c.ownTime - t0) - 180
          anchor n v false (creditSlot n { time := credit, place := .unbinned credit, unobserved := credit } p)
        else anchor n v false p := by
  simp only [reconcileHours, hk, hs] <;> rfl

variable {v v0 t0 : Nat} (hk : p.slotOfKind .engine = some n) (hs : p.slot n = some c)
  (href : c.reference = some (v0, t0))
include hk hs href

theorem reconcileHours_lower (h : v < v0) :
    reconcileHours v p = p.setSlot n (some { c with reference := some (v, c.ownTime), regressed := true }) := by
  rw [reconcileHours_of_slot hk hs, href]
  simp only [h.ne, if_false, h, if_true]
  rw [anchor_of_some hs, Bool.or_true]

/-- A higher value outside ACTIVE, or one within the tolerance, re-anchors without credit (R98). -/
theorem reconcileHours_within (h : v0 < v)
    (hw : p.modeCtl.mode ≠ .active ∨ (v - v0) * 180 ≤ c.ownTime - t0 + 360) :
    reconcileHours v p = p.setSlot n (some { c with reference := some (v, c.ownTime) }) := by
  rw [reconcileHours_of_slot hk hs, href, ← anchor_of_risen hs]
  simp only [h.ne', if_false, Nat.not_lt.mpr h.le]
  by_cases active : p.modeCtl.mode = .active
  · have within : ¬c.ownTime - t0 + 360 < (v - v0) * 180 := Nat.not_lt.mpr (hw.resolve_left (not_not.mpr active))
    simp only [active, ne_eq, not_true, if_false, within]
  · simp only [ne_eq, active, not_false_iff, if_true]

/-- A higher value in ACTIVE beyond the tolerance re-anchors after a credit of the unobserved running (R98). -/
theorem reconcileHours_beyond (h : v0 < v) (hm : p.modeCtl.mode = .active)
    (hb : c.ownTime - t0 + 360 < (v - v0) * 180) :
    reconcileHours v p =
      let credit := (v - v0) * 180 - (c.ownTime - t0) - 180
      let a : Credit := { time := credit, place := .unbinned credit, unobserved := credit }
      { p.setSlot n (some { c.credit a with reference := some (v, (c.credit a).ownTime) }) with
        hire := p.hire.credit n c a } := by
  rw [reconcileHours_of_slot hk hs, href]
  simp only [h.ne', if_false, Nat.not_lt.mpr h.le, hm, ne_eq, not_true, hb, if_true]
  exact anchor_creditSlot hs v _

end

theorem handUpdate_hours (p : Part) (sample : Bool) :
    handUpdate roleHours sample p =
      if sample then
        match (p.role roleHours).value with
        | some v => reconcileHours v.toNat p
        | none => p
      else p := by
  cases sample <;> rfl

/-- Settles O26: the update by whether it carries a sample, then the value by the reference it meets. -/
theorem hoursAreReconciled : Obligations.HoursAreReconciled := by
  refine ⟨fun p sample => ⟨fun none => by rw [handUpdate_hours, none]; rfl, fun v value => ?_⟩, fun p v => ⟨fun empty => ?_, ?_⟩⟩
  · rw [handUpdate_hours, if_pos rfl, value]
  · simp only [reconcileHours, empty]
  · intro n c hk hs own
    refine ⟨fun cleared => ?_, fun v0 t0 href => ⟨fun same => ?_, reconcileHours_lower hk hs href,
      reconcileHours_within hk hs href, reconcileHours_beyond hk hs href⟩⟩
    · rw [reconcileHours_of_slot hk hs, cleared]
      exact anchor_of_risen hs v
    · rw [reconcileHours_of_slot hk hs, href]
      exact if_pos same

end Sys2Proof.Machine
end

section
/-! The accumulation interval (R79 to R86): what an interval expiry makes of the slots, and the credit of one interval. -/

namespace Sys2Proof.Machine

/-! ## One slot's credit (R85) -/

/-- The part without what the crediting of a slot changes; the running conditions and the axis values stand in it. -/
def Part.uncredited (p : Part) : Part :=
  { p with
    register := { p.register with slots := Vector.replicate 12 none }, hire := {}, storage := {}
    wear := { p.wear with running := Vector.replicate 12 false, countdown := 0 } }

/-- What the interval's crediting makes of a slot: its component and its running flag. -/
def Part.account (p : Part) (n : Nat) : Option Component × Bool := (p.slot n, p.runningFlag n)

/-- A component after the interval: credited when its kind is continuous and its running condition holds (R85). -/
def Part.intervalComponent (p : Part) (n : Nat) (c : Component) : Component :=
  if c.kind.continuous && p.runningCondition c.kind then c.credit (p.intervalCredit n c.kind) else c

/-- A slot's account after the interval: an empty slot and an event kind keep their running flag (R85, R86). -/
def Part.intervalAccount (p : Part) (n : Nat) : Option Component × Bool :=
  match p.slot n with
  | none => p.account n
  | some c =>
    (some (p.intervalComponent n c), if c.kind.continuous then p.runningCondition c.kind else p.runningFlag n)

section
variable {p q : Part} {n k : Nat} {c : Component}

theorem runningCondition_of_uncredited (h : q.uncredited = p.uncredited) (kind : Kind) :
    q.runningCondition kind = p.runningCondition kind :=
  congrArg (·.runningCondition kind) h

theorem intervalCredit_of_uncredited (h : q.uncredited = p.uncredited) (flag : q.runningFlag n = p.runningFlag n)
    (kind : Kind) : q.intervalCredit n kind = p.intervalCredit n kind := by
  have axes : q.axes kind = p.axes kind := congrArg (·.axes kind) h
  have coolant : q.usableValue roleCoolant = p.usableValue roleCoolant := congrArg (·.usableValue roleCoolant) h
  have placed : q.placed kind = p.placed kind := congrArg (·.placed kind) h
  simp only [Part.intervalCredit, axes, coolant, placed, flag]

/-- The crediting of a slot reads the slot's own account and what no crediting changes. -/
theorem intervalAccount_congr (h : q.uncredited = p.uncredited) (own : q.account n = p.account n) :
    q.intervalAccount n = p.intervalAccount n := by
  obtain ⟨slot, flag⟩ := Prod.mk.inj own
  simp only [Part.intervalAccount, Part.intervalComponent, own, slot, flag, runningCondition_of_uncredited h,
    intervalCredit_of_uncredited h flag]

theorem setRunning_flag (h : n < 12) (b : Bool) (p : Part) : (setRunning n b p).runningFlag n = b := by
  simp [setRunning, Part.runningFlag, h]

theorem setRunning_account_other (h : k ≠ n) (b : Bool) (p : Part) : (setRunning n b p).account k = p.account k := by
  have flag : (setRunning n b p).runningFlag k = p.runningFlag k := by simp [setRunning, Part.runningFlag, Ne.symm h]
  exact Prod.ext rfl flag

theorem setRunning_account (h : n < 12) (b : Bool) (p : Part) : (setRunning n b p).account n = (p.slot n, b) :=
  Prod.ext rfl (setRunning_flag h b p)

theorem creditSlot_account_other (h : k ≠ n) (a : Credit) (p : Part) : (creditSlot n a p).account k = p.account k := by
  cases hs : p.slot n with
  | none => simp only [creditSlot, hs]
  | some c =>
    rw [creditSlot_of_some a hs]
    exact Prod.ext (Part.setSlot_slot_other p h _) rfl

theorem creditSlot_uncredited (n : Nat) (a : Credit) (p : Part) : (creditSlot n a p).uncredited = p.uncredited := by
  unfold creditSlot
  split <;> rfl

theorem countPeriod_account (p : Part) : (countPeriod p).account = p.account := by
  unfold countPeriod
  split <;> rfl

theorem countPeriod_uncredited (p : Part) : (countPeriod p).uncredited = p.uncredited := by
  unfold countPeriod
  split <;> rfl

/-- The checkpoint period's count after a second to a slot of a kind (R87). -/
def countFor (kind : Kind) (p : Part) : Part := if kind = .engine then countPeriod p else p

theorem countFor_account (kind : Kind) (p : Part) : (countFor kind p).account = p.account := by
  unfold countFor
  split
  · exact countPeriod_account p
  · rfl

theorem countFor_uncredited (kind : Kind) (p : Part) : (countFor kind p).uncredited = p.uncredited := by
  unfold countFor
  split
  · exact countPeriod_uncredited p
  · rfl

theorem creditInterval_of_none (hs : p.slot n = none) : creditInterval n p = p := by
  simp only [creditInterval, hs]

theorem creditInterval_of_event (hs : p.slot n = some c) (hc : c.kind.continuous = false) : creditInterval n p = p := by
  simp only [creditInterval, hs, hc, Bool.not_false, if_true]

theorem creditInterval_of_running (hs : p.slot n = some c) (hc : c.kind.continuous = true)
    (hr : p.runningCondition c.kind = true) :
    creditInterval n p = countFor c.kind (setRunning n true (creditSlot n (p.intervalCredit n c.kind) p)) := by
  simp only [creditInterval, hs, hc, hr, Bool.not_true, Bool.false_eq_true, if_false, if_true, countFor]

theorem creditInterval_of_resting (hs : p.slot n = some c) (hc : c.kind.continuous = true)
    (hr : p.runningCondition c.kind = false) : creditInterval n p = setRunning n false p := by
  simp only [creditInterval, hs, hc, hr, Bool.not_true, Bool.false_eq_true, if_false]

/-- The crediting of a slot gives its account after the interval, and leaves the other slots' and the rest (R85). -/
theorem creditInterval_accounts (n : Nat) (p : Part) :
    (creditInterval n p).account n = p.intervalAccount n ∧
      (∀ k, k ≠ n → (creditInterval n p).account k = p.account k) ∧ (creditInterval n p).uncredited = p.uncredited := by
  cases hs : p.slot n with
  | none =>
    rw [creditInterval_of_none hs]
    exact ⟨by simp only [Part.intervalAccount, hs], fun _ _ => rfl, rfl⟩
  | some c =>
    cases hc : c.kind.continuous with
    | false =>
      rw [creditInterval_of_event hs hc]
      refine ⟨?_, fun _ _ => rfl, rfl⟩
      simp [Part.intervalAccount, Part.intervalComponent, Part.account, hs, hc]
    | true =>
      cases hr : p.runningCondition c.kind with
      | false =>
        rw [creditInterval_of_resting hs hc hr]
        refine ⟨?_, fun k other => setRunning_account_other other false p, rfl⟩
        rw [setRunning_account (slot_lt hs)]
        simp [Part.intervalAccount, Part.intervalComponent, hs, hc, hr]
      | true =>
        rw [creditInterval_of_running hs hc hr]
        refine ⟨?_, fun k other => ?_, ?_⟩
        · rw [countFor_account, setRunning_account (slot_lt hs), creditSlot_of_some _ hs]
          have credited := Part.setSlot_slot p (slot_lt hs) (some (c.credit (p.intervalCredit n c.kind)))
          simp only [Part.intervalAccount, Part.intervalComponent, hs, hc, hr, Bool.and_true, if_true]
          exact Prod.ext credited rfl
        · rw [countFor_account, setRunning_account_other other, creditSlot_account_other other]
        · rw [countFor_uncredited]
          exact creditSlot_uncredited n _ p

end

/-! ## Every slot's credit (R85) -/

theorem creditAll_uncredited (p : Part) : (creditAll p).uncredited = p.uncredited :=
  foldl_keeps Part.uncredited (fun p n => (creditInterval_accounts n p).2.2) _ p

/-- The crediting of a list of slots, none of them twice. -/
theorem foldl_creditInterval_account (n : Nat) (ns : List Nat) (once : ns.Nodup) (p : Part) :
    (ns.foldl (fun p n => creditInterval n p) p).account n = if n ∈ ns then p.intervalAccount n else p.account n := by
  induction ns generalizing p with
  | nil => rfl
  | cons m ns ih =>
    obtain ⟨absent, rest⟩ := List.nodup_cons.mp once
    obtain ⟨own, others, same⟩ := creditInterval_accounts m p
    rw [List.foldl_cons, ih rest]
    by_cases first : n = m
    · subst first
      rw [if_neg absent, if_pos List.mem_cons_self, own]
    · have kept := others n first
      simp only [List.mem_cons, first, false_or, kept, intervalAccount_congr same kept]

theorem creditAll_account (p : Part) {n : Nat} (h : n < 12) : (creditAll p).account n = p.intervalAccount n :=
  (foldl_creditInterval_account n slotNumbers List.nodup_range p).trans (if_pos (List.mem_range.mpr h))

/-! ## The judgement leaves all but abuse counts (R115) -/

/-- The part without what the judgement of the interval kinds changes. -/
def Part.unjudged (p : Part) : Part := { p.unmarked with hire := {} }

/-- A component with other abuse counts. -/
def Component.marked (marks : Vector Nat 4) (c : Component) : Component := { c with abuse := marks }

/-- A part's slots are another's but for their abuse counts. -/
def Part.SlotsMarked (p q : Part) : Prop := ∀ n, ∃ marks, q.slot n = (p.slot n).map (·.marked marks)

theorem Part.SlotsMarked.refl (p : Part) : p.SlotsMarked p := by
  intro n
  cases hs : p.slot n with
  | none => exact ⟨Vector.replicate 4 0, rfl⟩
  | some c => exact ⟨c.abuse, rfl⟩

theorem Part.SlotsMarked.trans {p q r : Part} (h : p.SlotsMarked q) (h' : q.SlotsMarked r) : p.SlotsMarked r := by
  intro n
  obtain ⟨_, first⟩ := h n
  obtain ⟨marks, second⟩ := h' n
  exact ⟨marks, by rw [second, first, Option.map_map]; rfl⟩

theorem makeMark_slotsMarked (kind : Cause) (magnitude : Int) (p : Part) : p.SlotsMarked (makeMark kind magnitude p) := by
  intro n
  by_cases owner : p.slotOfKind kind.slotKind = some n
  · obtain ⟨c, hs⟩ := slotOfKind_slot owner
    exact ⟨raiseAbuse c.abuse kind, by rw [makeMark_slot owner hs, hs]; rfl⟩
  · rw [makeMark_slot_other owner]
    exact Part.SlotsMarked.refl p n

/-- A kind's judgement moves an abuse count, or stays within the hire, the captures and the archive (R115). -/
theorem judgeKind_judges (kind : Cause) (p : Part) :
    p.SlotsMarked (judgeKind kind p) ∧ (judgeKind kind p).unjudged = p.unjudged := by
  cases hc : abuseCondition kind p with
  | none =>
    rw [judgeKind_of_none hc]
    exact ⟨Part.SlotsMarked.refl p, rfl⟩
  | some v =>
    rw [judgeKind_of_some hc]
    dsimp only
    split
    · exact ⟨Part.SlotsMarked.refl p, rfl⟩
    · split
      · refine ⟨makeMark_slotsMarked kind _ p, ?_⟩
        have kept := makeMark_unmarked kind (extremeOf kind (p.hire.episode kind).extreme v) p
        exact congrArg (fun q : Part => { q with hire := {} }) kept
      · exact ⟨Part.SlotsMarked.refl p, rfl⟩

theorem judgeInterval_slotsMarked (p : Part) : p.SlotsMarked (judgeInterval p) :=
  ((judgeKind_judges _ p).1.trans (judgeKind_judges _ _).1).trans (judgeKind_judges _ _).1

theorem judgeInterval_unjudged (p : Part) : (judgeInterval p).unjudged = p.unjudged :=
  ((judgeKind_judges _ _).2.trans (judgeKind_judges _ _).2).trans (judgeKind_judges _ p).2

/-- What no judgement changes, the judgement of an interval keeps. -/
theorem judgeInterval_keeps {β : Type} (g : Part → β) (hg : ∀ q : Part, g q.unjudged = g q) (p : Part) :
    g (judgeInterval p) = g p := by
  rw [← hg, judgeInterval_unjudged, hg]

/-! ## The interval's expiry (R84, R85) -/

/-- The part with the next accumulation interval begun. -/
def Part.accumulating (p : Part) : Part := { p with wear := { p.wear with timer := some 1000 } }

section
variable {p : Part} {n : Nat} {c : Component}

theorem accumulating_intervalAccount (p : Part) (n : Nat) : p.accumulating.intervalAccount n = p.intervalAccount n := rfl

theorem expireInterval_active (hm : p.modeCtl.mode = .active) :
    expireInterval p = judgeInterval (creditAll p.accumulating) := if_pos hm

theorem expireInterval_idle (hm : p.modeCtl.mode ≠ .active) : expireInterval p = p.accumulating := if_neg hm

/-- What neither the crediting nor the judgement changes is after the expiry as the begun interval has it. -/
theorem expireInterval_keeps (hm : p.modeCtl.mode = .active) {β : Type} (g : Part → β)
    (judged : ∀ q : Part, g q.unjudged = g q) (credited : ∀ q : Part, g q.uncredited = g q) :
    g (expireInterval p) = g p.accumulating := by
  rw [expireInterval_active hm, judgeInterval_keeps g judged, ← credited, creditAll_uncredited, credited]

/-- The slots and running flags after an expiry in ACTIVE: as the crediting has them, but for the abuse counts. -/
theorem expireInterval_account (hm : p.modeCtl.mode = .active) (hn : n < 12) :
    (∃ marks, (expireInterval p).slot n = (p.intervalAccount n).1.map (·.marked marks)) ∧
      (expireInterval p).runningFlag n = (p.intervalAccount n).2 := by
  have credited := (creditAll_account p.accumulating hn).trans (accumulating_intervalAccount p n)
  obtain ⟨slot, flag⟩ := Prod.ext_iff.mp credited
  obtain ⟨marks, marked⟩ := judgeInterval_slotsMarked (creditAll p.accumulating) n
  rw [expireInterval_active hm]
  exact ⟨⟨marks, marked.trans (congrArg _ slot)⟩, (judgeInterval_keeps (·.runningFlag n) (fun _ => rfl) _).trans flag⟩

theorem expireInterval_slot (hm : p.modeCtl.mode = .active) (hs : p.slot n = some c) :
    ∃ marks, (expireInterval p).slot n = some ((p.intervalComponent n c).marked marks) := by
  obtain ⟨⟨marks, slot⟩, -⟩ := expireInterval_account hm (slot_lt hs)
  exact ⟨marks, by simpa only [Part.intervalAccount, hs, Option.map_some] using slot⟩

theorem expireInterval_empty (hm : p.modeCtl.mode = .active) (hn : n < 12) (hs : p.slot n = none) :
    (expireInterval p).slot n = none := by
  obtain ⟨⟨marks, slot⟩, -⟩ := expireInterval_account hm hn
  simpa only [Part.intervalAccount, Part.account, hs, Option.map_none] using slot

theorem expireInterval_flag (hm : p.modeCtl.mode = .active) (hs : p.slot n = some c) :
    (expireInterval p).runningFlag n =
      if c.kind.continuous then p.runningCondition c.kind else p.runningFlag n := by
  obtain ⟨-, flag⟩ := expireInterval_account hm (slot_lt hs)
  simpa only [Part.intervalAccount, hs] using flag

end

section
variable {s : State} (ha : s.part.awake = true) (ht : s.part.wear.timer.isSome = true)
include ha ht

theorem intervalExpiry_expires :
    (if s.part.wear.timer.isSome then expireInterval s.part else s.part) = expireInterval s.part ∧
      (expireInterval s.part).restore = none := by
  obtain ⟨-, -, -, unrestored⟩ := awake_parts ha
  exact ⟨if_pos ht, (keeps_of_still Part.restore (fun _ => rfl) (expireInterval_still s.part)).trans unrestored⟩

theorem leaves_expireInterval : Leaves .intervalExpiry s (expireInterval s.part) fun _ => True := by
  obtain ⟨expires, restore⟩ := intervalExpiry_expires ha ht
  exact leaves_of_runAwake rfl ha (by rw [expires, restore]) (by rw [expires]) trivial

theorem intervalExpiry_settles :
    ∃ t, exec .intervalExpiry s = .next t ∧ t.part = settle s.medium (expireInterval s.part) ∧ t.medium = s.medium ∧
      t.pending = s.pending := by
  obtain ⟨expires, restore⟩ := intervalExpiry_expires ha ht
  refine ⟨_, runAwake_eq _ ha (by rw [expires, restore]), ?_, rfl, rfl⟩
  rw [expires]

end

/-! ## The credit of one interval (R83, R85) -/

section
variable {k : Kind} {load speed : Option Int}

theorem placed_absent (h : load = none ∨ speed = none) (p : Part) (temperature : Option Int) (events time count : Nat) :
    p.placed k load speed temperature events time count = { events, time, place := .unbinned count } := by
  obtain rfl | rfl := h
  · rfl
  · cases load <;> rfl

theorem placed_figures (p : Part) (k : Kind) (load speed temperature : Option Int) (events time count : Nat) :
    (p.placed k load speed temperature events time count).events = events ∧
      (p.placed k load speed temperature events time count).time = time ∧
      (p.placed k load speed temperature events time count).unobserved = 0 := by
  cases load <;> cases speed <;> exact ⟨rfl, rfl, rfl⟩

theorem cell_eq (r : BinRow) (load speed : Int) :
    r.cell load speed =
      (r.load.toList.filter (· ≤ load)).length * 8 + (r.speed.toList.filter (· ≤ speed)).length := by
  rw [BinRow.cell, binOf_eq, binOf_eq]

theorem factorOf_some (b : BinRow) (w : WeightRow) (t : Int) :
    factorOf b w (some t) = w.factors[(b.temperature.toList.filter (· ≤ t)).length]?.getD 16 := by
  rw [← binOf_eq]
  rfl

end

/-- Settles O23: the expiry outside ACTIVE and in it, and the interval's credit by its axis values. -/
theorem intervalExpiryCreditsSlots : Obligations.IntervalExpiryCreditsSlots := by
  refine ⟨fun s ha ht => ⟨fun idle => ?_, fun hm => ?_⟩, fun p n k => ?_⟩
  · have leaves := leaves_expireInterval ha ht
    rw [expireInterval_idle idle] at leaves
    exact leaves
  · obtain ⟨t, run, part, medium, pending⟩ := intervalExpiry_settles ha ht
    have kept {β : Type} (g : Part → β) (judged : ∀ q : Part, g q.unjudged = g q)
        (credited : ∀ q : Part, g q.uncredited = g q) (lasts : ∀ q : Part, g q.lasting = g q) :
        g t.part = g s.part.accumulating := by
      rw [part, settle_keeps g lasts, expireInterval_keeps hm g judged credited]
    have slot (n : Nat) : t.part.slot n = (expireInterval s.part).slot n := by
      rw [part, settle_keeps (·.slot n) fun _ => rfl]
    have flag (n : Nat) : t.part.runningFlag n = (expireInterval s.part).runningFlag n := by
      rw [part, settle_keeps (·.runningFlag n) fun _ => rfl]
    refine ⟨t, run, kept (·.wear.timer) (fun _ => rfl) (fun _ => rfl) fun _ => rfl, fun n c _ hs => ⟨?_, ?_, ?_⟩,
      fun n hn hs => ?_, kept Part.matcher (fun _ => rfl) (fun _ => rfl) fun _ => rfl,
      kept Part.signals (fun _ => rfl) (fun _ => rfl) fun _ => rfl,
      kept Part.roles (fun _ => rfl) (fun _ => rfl) fun _ => rfl,
      kept Part.detector (fun _ => rfl) (fun _ => rfl) fun _ => rfl,
      kept Part.clutch (fun _ => rfl) (fun _ => rfl) fun _ => rfl,
      kept (·.modeCtl.active) (fun _ => rfl) (fun _ => rfl) fun _ => rfl, medium, pending⟩
    · rw [slot]
      exact expireInterval_slot hm hs
    · intro continuous
      rw [flag, expireInterval_flag hm hs, if_pos continuous]
    · intro event
      rw [flag, expireInterval_flag hm hs, event]
      rfl
    · rw [slot, expireInterval_empty hm hn hs]
  · obtain ⟨events, time, unobserved⟩ := placed_figures p k (p.axes k).1 (p.axes k).2 (p.usableValue roleCoolant)
      (if k ≠ .engine ∧ p.runningFlag n = false then 1 else 0) 1 1
    refine ⟨time, unobserved, events.trans ?_, fun absent => ?_, fun load speed axes => ?_⟩
    · by_cases engine : k = .engine
      · simp [engine]
      · cases p.runningFlag n <;> simp [engine]
    · rw [Part.intervalCredit, placed_absent absent]
      exact ⟨rfl, rfl⟩
    · simp only [Part.intervalCredit, axes, ← cell_eq]
      refine ⟨rfl, BinRow.cell_lt _ _ _, fun unformed => ?_, fun t formed => ?_⟩
      · rw [unformed]
        rfl
      · rw [formed, ← factorOf_some]
        rfl

end Sys2Proof.Machine
end

section
/-! The management reader at the arbiter (R155, R156): a read that waits for its grant, or stands between two of its pages,
stays through the settling. -/

namespace Sys2Proof.Machine

/-! ## What a reader's work asks for (R186 to R188) -/

/-- What a reader's work asks for hangs on the archives' newest numbers and the capture directory alone. -/
theorem readerNext_congr {p q : Part} (hr : q.register = p.register) (hh : q.hire = p.hire) (hc : q.capture = p.capture)
    (task : ReaderTask) : q.readerNext task = p.readerNext task := by
  cases task <;> simp only [Part.readerNext, hr, hh, hc]

section
variable {newest capacity next remaining : Nat} {out : List Byte} {task : Nat → Nat → List Byte → ReaderTask}

/-- A number not GONE without a read is read (R186). -/
theorem runArchive_held (h : newest < next + capacity) (hr : 1 ≤ remaining) :
    runArchive newest capacity task remaining next out = .read (task next remaining out) := by
  obtain ⟨r, rfl⟩ := Nat.exists_eq_add_of_le' hr
  have held : goneBy capacity newest next = false := decide_eq_false (Nat.not_le.mpr h)
  simp only [runArchive, held, Bool.false_eq_true, if_false]

/-- A run that asks for a read asks for a number that is not GONE. -/
theorem runArchive_read {t : ReaderTask} (h : runArchive newest capacity task remaining next out = .read t) :
    ∃ n r o, t = task n r o ∧ 1 ≤ r ∧ newest < n + capacity := by
  induction remaining generalizing next out with
  | zero => exact absurd h nofun
  | succ r ih =>
    unfold runArchive at h
    split at h
    · split at h
      · exact ih h
      · exact absurd h nofun
    · rename_i held
      exact ⟨next, r + 1, out, (ReaderNext.read.inj h).symm, Nat.le_add_left 1 r,
        Nat.not_le.mp (mt decide_eq_true held)⟩

end

section
variable {newest field sense value timer next remaining skipped : Nat}

/-- A number still in the archive is read (R188). -/
theorem runScan_held (hn : next ≤ newest) (hg : newest < next + 320) (hr : 1 ≤ remaining) :
    runScan newest field sense value timer remaining next skipped =
      .read (.scan next remaining field sense value skipped timer) := by
  obtain ⟨r, rfl⟩ := Nat.exists_eq_add_of_le' hr
  have held : (goneBy hireRing newest next || decide (newest < next)) = false := by
    simp [goneBy, hireRing, hn, hg]
  simp only [runScan, held, Bool.false_eq_true, if_false]

theorem runScan_read {t : ReaderTask} (h : runScan newest field sense value timer remaining next skipped = .read t) :
    ∃ n r k, t = .scan n r field sense value k timer ∧ 1 ≤ r ∧ n ≤ newest ∧ newest < n + 320 := by
  induction remaining generalizing next skipped with
  | zero => exact absurd h nofun
  | succ r ih =>
    unfold runScan at h
    split at h
    · exact ih h
    · rename_i held
      simp only [goneBy, hireRing, Bool.or_eq_true, decide_eq_true_eq, not_or, Nat.not_le, Nat.not_lt] at held
      exact ⟨next, r + 1, skipped, (ReaderNext.read.inj h).symm, Nat.le_add_left 1 r, held.2, held.1⟩

/-- Beyond the newest record every number left of the count is skipped (R188). -/
theorem runScan_beyond (h : newest < next) :
    runScan newest field sense value timer remaining next skipped =
      .done ([0x41, 0x00, 0x01] ++ scanCounts (next + remaining) 0 (skipped + remaining)) := by
  induction remaining generalizing next skipped with
  | zero => rfl
  | succ r ih =>
    have gone : (goneBy hireRing newest next || decide (newest < next)) = true := by simp [h]
    simp only [runScan, gone, if_true]
    rw [ih (Nat.lt_succ_of_lt h), Nat.add_right_comm next 1 r, Nat.add_right_comm skipped 1 r]
    rfl

end

section
variable {c : Capture} {number e index remaining : Nat} {x : CaptureEntry} {out : List Byte}

/-- No entry holds the number: the run ends with GONE (R187). -/
theorem runFrames_gone (h : c.entryOf number = none) :
    runFrames c number index remaining out = closeRun index remaining 0 out ([0x02] ++ beBytes 2 index) := by
  simp only [runFrames, h]

section
variable (he : c.entryOf number = some e) (hx : c.entry e = some x)
include he hx

/-- The count is used up (R187). -/
theorem runFrames_counted : runFrames c number index 0 out = .done (recordsResponse index 0 out) := by
  simp only [runFrames, he, hx, if_true]

/-- The stored frames are read: a closed capture's run ends there, an OPEN one's with NOT_READY (R187). -/
theorem runFrames_past (hr : 1 ≤ remaining) (hi : x.stored ≤ index) :
    runFrames c number index remaining out =
      if x.closed then .done (recordsResponse index 0 out)
      else closeRun x.stored remaining remaining out ([0x03] ++ beBytes 2 x.stored) := by
  simp only [runFrames, he, hx, Nat.one_le_iff_ne_zero.mp hr, hi, if_false, if_true]

/-- A stored frame is read (R187). -/
theorem runFrames_stored (hr : 1 ≤ remaining) (hi : index < x.stored) :
    runFrames c number index remaining out =
      .read (.frames number index (if x.closed then min remaining (x.stored - index) else remaining) out) := by
  simp only [runFrames, he, hx, Nat.one_le_iff_ne_zero.mp hr, Nat.not_le.mpr hi, if_false]

end

theorem closeRun_not_read {after : Nat} {entry : List Byte} {t : ReaderTask} :
    closeRun index remaining after out entry ≠ .read t := by
  unfold closeRun
  split <;> nofun

/-- A capture's run that asks for a read asks for it again when it is judged again. -/
theorem runFrames_read {t : ReaderTask} (h : runFrames c number index remaining out = .read t) :
    ∃ r, t = .frames number index r out ∧ runFrames c number index r out = .read t := by
  cases he : c.entryOf number with
  | none => exact absurd (runFrames_gone he ▸ h) closeRun_not_read
  | some e =>
    cases hx : c.entry e with
    | none =>
      simp only [runFrames, he, hx] at h
      exact absurd h closeRun_not_read
    | some x =>
      rcases Nat.eq_zero_or_pos remaining with rfl | hr
      · exact absurd ((runFrames_counted he hx).symm.trans h) nofun
      rcases Nat.lt_or_ge index x.stored with stored | past
      · rw [runFrames_stored he hx hr stored] at h
        obtain rfl := ReaderNext.read.inj h
        refine ⟨_, rfl, ?_⟩
        by_cases closed : x.closed = true
        · simp only [closed, if_true]
          rw [runFrames_stored he hx (Nat.le_min.mpr ⟨hr, Nat.sub_pos_of_lt stored⟩) stored, if_pos closed,
            Nat.min_assoc, Nat.min_self]
        · simp only [closed, if_false, Bool.false_eq_true]
          rw [runFrames_stored he hx hr stored, if_neg closed]
      · rw [runFrames_past he hx hr past] at h
        split at h
        · exact absurd h nofun
        · exact absurd h closeRun_not_read

end

/-- The read that a reader's work asks for is what that read's own work asks for: judged again before its grant, it stands. -/
theorem readerNext_read {p : Part} {task t : ReaderTask} (h : p.readerNext task = .read t) :
    p.readerNext t = .read t := by
  cases task with
  | collect number dropped =>
    obtain rfl := ReaderNext.read.inj h
    rfl
  | components next remaining out =>
    obtain ⟨n, r, o, rfl, counted, held⟩ := runArchive_read h
    exact runArchive_held held counted
  | hires next remaining out =>
    obtain ⟨n, r, o, rfl, counted, held⟩ := runArchive_read h
    exact runArchive_held held counted
  | frames number index remaining out =>
    obtain ⟨r, rfl, again⟩ := runFrames_read h
    exact again
  | scan next remaining field sense value skipped timer =>
    obtain ⟨n, r, k, rfl, counted, written, held⟩ := runScan_read h
    exact runScan_held written held counted

/-! ## A reader that stands at the arbiter (R156) -/

theorem lasting_setReaders (rs : List Reader) (p : Part) : (p.setReaders rs).lasting = p.lasting := rfl

theorem setReaders_readerNext (rs : List Reader) (p : Part) (task : ReaderTask) :
    (p.setReaders rs).readerNext task = p.readerNext task := readerNext_congr (p := p) rfl rfl rfl task

/-- A reader waits at the arbiter, the only one of its channel, and is not answered before its grant: it stands between two
pages of its read, or its work is at a read as the part stands. -/
structure Part.HoldsReader (p : Part) (r : Reader) : Prop where
  waits : r ∈ p.storage.readers
  alone : ∀ x ∈ p.storage.readers, x.ch = r.ch → x = r
  reads : r.page ≠ 0 ∨ p.readerNext r.task = .read r.task

/-- The judging of one reader before a grant neither takes away nor changes another that stands, nor touches its channel. -/
theorem refreshReader_holds {p : Part} {r x : Reader} (h : p.HoldsReader r) (hx : x.ch = r.ch → x = r) :
    (refreshReader p x).HoldsReader r ∧ (refreshReader p x).chan r.ch = p.chan r.ch := by
  unfold refreshReader
  split
  · exact ⟨h, rfl⟩
  · rename_i first
    split
    · rename_i t ht
      have fixed : ∀ y ∈ p.storage.readers, y.ch = r.ch → (if y.ch = x.ch then { y with task := t } else y) = r := by
        intro y hy same
        obtain rfl := h.alone y hy same
        split
        · rename_i own
          obtain rfl := hx own.symm
          have stands := h.reads.resolve_left first
          rw [ReaderNext.read.inj (ht.symm.trans stands)]
        · rfl
      refine ⟨⟨List.mem_map.mpr ⟨r, h.waits, fixed r h.waits rfl⟩, fun z hz same => ?_, ?_⟩, Part.setStorage_chan _ _ _⟩
      · obtain ⟨y, hy, rfl⟩ := List.mem_map.mp hz
        refine fixed y hy (Eq.trans ?_ same)
        split <;> rfl
      · rw [setReaders_readerNext]
        exact h.reads
    · rename_i msg ht
      have other : r.ch ≠ x.ch := by
        intro own
        obtain rfl := hx own.symm
        exact absurd (ht.symm.trans (h.reads.resolve_left first)) nofun
      refine ⟨⟨?_, fun y hy => ?_, ?_⟩, by rw [respond_other _ _ other]; exact Part.setStorage_chan _ _ _⟩
      · rw [respond_storage]
        exact List.mem_filter.mpr ⟨h.waits, decide_eq_true other⟩
      · rw [respond_storage] at hy
        exact h.alone y (List.mem_of_mem_filter hy)
      · rw [readerNext_congr (respond_register _ _ _) (respond_hire _ _ _) (respond_capture _ _ _),
          setReaders_readerNext]
        exact h.reads

theorem refreshReaders_holds {p : Part} {r : Reader} (h : p.HoldsReader r) :
    (refreshReaders p).HoldsReader r ∧ (refreshReaders p).chan r.ch = p.chan r.ch := by
  have each : ∀ (xs : List Reader) (q : Part), (∀ x ∈ xs, x.ch = r.ch → x = r) → q.HoldsReader r →
      (xs.foldl refreshReader q).HoldsReader r ∧ (xs.foldl refreshReader q).chan r.ch = q.chan r.ch := by
    intro xs
    induction xs with
    | nil => exact fun q _ hq => ⟨hq, rfl⟩
    | cons x xs ih =>
      intro q alone hq
      obtain ⟨holds, chan⟩ := refreshReader_holds hq (alone x List.mem_cons_self)
      obtain ⟨after, same⟩ := ih _ (fun y hy => alone y (List.mem_cons_of_mem _ hy)) holds
      exact ⟨after, same.trans chan⟩
  exact each _ p h.alone h

/-- A grant leaves the readers and the channels alone, but for the judging of the readers before one is granted (R156). -/
theorem grant_refreshes (m : Medium) (p : Part) :
    ∃ q, (q = p ∨ q = refreshReaders p) ∧ (grant m p).storage.readers = q.storage.readers ∧
      ∀ ch, (grant m p).chan ch = q.chan ch := by
  have reader : ∀ q : Part, (grantReader q).storage.readers = q.storage.readers := by
    intro q
    unfold grantReader
    split <;> rfl
  have refreshed : ∃ q, (q = p ∨ q = refreshReaders p) ∧
      (grantReader (refreshReaders p)).storage.readers = q.storage.readers ∧
        ∀ ch, (grantReader (refreshReaders p)).chan ch = q.chan ch :=
    ⟨_, .inr rfl, reader _, fun _ => (grantReader_same _).1⟩
  unfold grant
  split_ifs
  · exact ⟨p, .inl rfl, rfl, fun _ => rfl⟩
  · exact ⟨p, .inl rfl, rfl, fun ch => by cases ch <;> rfl⟩
  · exact refreshed
  · refine ⟨p, .inl rfl, ?_, fun ch => ?_⟩
    · unfold grantFull
      dsimp only
      split <;> rfl
    · unfold grantFull
      dsimp only
      split <;> cases ch <;> rfl
  · exact ⟨p, .inl rfl, rfl, fun ch => by cases ch <;> rfl⟩
  · split
    · refine ⟨p, .inl rfl, ?_, fun ch => ?_⟩
      · unfold grantArchive
        dsimp only
        split <;> rfl
      · unfold grantArchive
        dsimp only
        split <;> cases ch <;> rfl
    · exact ⟨p, .inl rfl, rfl, fun ch => by cases ch <;> rfl⟩
    · exact refreshed

section
variable (m : Medium) {p : Part} {r : Reader} (h : p.HoldsReader r)
include h

theorem grant_holds : r ∈ (grant m p).storage.readers ∧ (grant m p).chan r.ch = p.chan r.ch := by
  obtain ⟨q, rfl | rfl, readers, chan⟩ := grant_refreshes m p
  · exact ⟨readers ▸ h.waits, chan r.ch⟩
  · obtain ⟨holds, same⟩ := refreshReaders_holds h
    exact ⟨readers ▸ holds.waits, (chan r.ch).trans same⟩

/-- A reader that stands at the arbiter stands there when the part has settled, its channel in the state it was in. -/
theorem settle_holds : r ∈ (settle m p).storage.readers ∧ ((settle m p).chan r.ch).state = (p.chan r.ch).state := by
  obtain ⟨waits, granted⟩ := grant_holds m h
  have offers : ∀ q, ((linkOffers q).chan r.ch).state = (q.chan r.ch).state := by
    intro q
    simp only [linkOffers, offerNext_chan_state]
  have quiet : ∀ q, ((settleQuiet q).chan r.ch).state = (q.chan r.ch).state := by
    intro q
    cases r.ch <;> rfl
  by_cases live : p.live = true
  · refine ⟨by rw [settle_storage m live]; exact waits, ?_⟩
    simp only [settle, live, Bool.true_eq_false, if_false]
    split
    · rw [granted]
    · rw [quiet, transmitSettle, offers, fillB_chan, fillA_chan, offers, (probeNext_same _).1, granted]
  · rw [settle_of_not_live _ (Bool.eq_false_iff.mpr live)]
    exact ⟨h.waits, rfl⟩

end

/-- A read handed to the arbiter behind readers of other channels stands there. -/
theorem holdsReader_append {p : Part} {rs : List Reader} {ch : Channel} {task t : ReaderTask} (h : ∀ x ∈ rs, x.ch ≠ ch)
    (ht : p.readerNext task = .read t) :
    (p.setReaders (rs ++ [{ ch, task := t, page := 0, buffer := [], spoiled := false }])).HoldsReader
      { ch, task := t, page := 0, buffer := [], spoiled := false } := by
  refine ⟨List.mem_append_right _ List.mem_cons_self, fun x hx same => ?_, .inr ?_⟩
  · rcases List.mem_append.mp hx with other | own
    · exact absurd same (h x other)
    · exact List.mem_singleton.mp own
  · exact (setReaders_readerNext _ p t).trans (readerNext_read ht)

end Sys2Proof.Machine
end

section
/-! The requests of Hire Accounting: Open Hire, Close Hire and Collect Hire (R103, R105, R107, R112). -/

namespace Sys2Proof.Machine

section
variable {src : Source} {p : Part} (hp : permitted src = true)
include hp

/-! ## Open Hire (R105) -/

/-- Open Hire outside SETUP with no hire closing: refused with one open or the numbers exhausted, or a hire is opened and a
full checkpoint asked for. -/
theorem requestOpenHire_admitted (hm : p.modeCtl.mode ≠ .setup) (hg : p.hire.closing = none) (contract : Word32) :
    requestOpenHire (sourceChannel src) contract (p.taken src) =
      if p.hire.current.isSome then respond (sourceChannel src) [0x20, 0x24] (p.taken src)
      else if p.hire.nextNumber = exhausted then respond (sourceChannel src) [0x20, 0x27] (p.taken src)
      else
        requestFull .openHire none
          (respond (sourceChannel src) ([0x20, 0x00] ++ beBytes 4 p.hire.nextNumber)
            { p.taken src with
              hire := { p.hire with
                current := some ((p.taken src).newHire (sourceChannel src) contract.toNat)
                nextNumber := p.hire.nextNumber + 1 } }) := by
  have modes : p.modeCtl.mode ∈ [Mode.paused, .active] := by
    cases mode : p.modeCtl.mode <;> simp_all
  have takes : ({ modes := [.paused, .active] } : Terms).takes (sourceChannel src) = true := by cases src <;> rfl
  refine (admitRequest_none (refusal_none hp takes modes nofun) _ _).trans ?_
  have number : ((p.taken src).newHire (sourceChannel src) contract.toNat).number = p.hire.nextNumber :=
    congrArg Hire.nextNumber (taken_hire src p)
  simp only [taken_hire, hg, Option.isSome_none, Bool.false_eq_true, if_false, refuse, answer, number]

/-! ## Close Hire (R107) -/

theorem requestCloseHire_closing (hg : p.hire.closing.isSome = true) :
    requestCloseHire (sourceChannel src) (p.taken src) = respond (sourceChannel src) [0x21, 0x01] (p.taken src) := by
  refine (admitRequest_anywhere hp 0x21 rfl _ p).trans ?_
  simp only [taken_hire, hg, if_true, refuse]

theorem requestCloseHire_shut (hg : p.hire.closing = none) (hc : p.hire.current = none) :
    requestCloseHire (sourceChannel src) (p.taken src) = respond (sourceChannel src) [0x21, 0x25] (p.taken src) := by
  refine (admitRequest_anywhere hp 0x21 rfl _ p).trans ?_
  simp only [taken_hire, hg, hc, Option.isSome_none, Bool.false_eq_true, if_false, refuse]

/-- Close Hire stamps the open hire and hands it to the archive level. -/
theorem requestCloseHire_open (hg : p.hire.closing = none) {h : HireRecord} (hc : p.hire.current = some h) :
    requestCloseHire (sourceChannel src) (p.taken src) =
      { p.taken src with
        hire := { p.hire with
          current := none
          closing := some { h with
            close := some
              { clock := (p.taken src).modeCtl.clock, sync := (p.taken src).modeCtl.sync, cause := sourceChannel src } } }
        storage := { p.storage with archive := p.storage.archive ++ [.hire (sourceChannel src)] } } := by
  refine (admitRequest_anywhere hp 0x21 rfl _ p).trans ?_
  simp only [taken_hire, taken_storage, hg, hc, Option.isSome_none, Bool.false_eq_true, if_false]

end

/-! ## Collect Hire (R112) -/

theorem requestCollectHire_empty {p : Part} (hq : p.hire.queue = []) :
    requestCollectHire .fleet (p.taken .fleet) = respond .fleet [0x23, 0x27] (p.taken .fleet) := by
  refine (admitRequest_none (refusal_none (src := .fleet) rfl rfl (mode_mem_all _) (by nofun)) _ _).trans ?_
  simp only [taken_hire, hq, refuse]

theorem requestCollectHire_head {p : Part} {n : Nat} {rest : List Nat} (hq : p.hire.queue = n :: rest) :
    requestCollectHire .fleet (p.taken .fleet) = startReader .fleet (.collect n p.hire.dropped) (p.taken .fleet) := by
  refine (admitRequest_none (refusal_none (src := .fleet) rfl rfl (mode_mem_all _) (by nofun)) _ _).trans ?_
  simp only [taken_hire, hq]

/-- A request whose whole effect is a read handed to the arbiter: its channel stays PROCESSING, its reader waits (R156). -/
theorem reading_processes {i : Instr} {src : Source} {s : State} {msg : List Byte} {run : Channel → Part → Part}
    (hi : exec i s = runRequest src msg run s) (h : Ready src s) (hl : lengthFits msg = true) {task t : ReaderTask}
    (hq : run (sourceChannel src) (s.part.taken src) = startReader (sourceChannel src) task (s.part.taken src))
    (ht : s.part.readerNext task = .read t) :
    Processes i src s s.part fun u =>
      { ch := sourceChannel src, task := t, page := 0, buffer := [], spoiled := false } ∈ u.storage.readers := by
  obtain ⟨awake, -, -, -, free⟩ := id h
  have next : (s.part.taken src).readerNext task = .read t :=
    (readerNext_congr (taken_register ..) (taken_hire ..) (taken_capture ..) task).trans ht
  have started : startReader (sourceChannel src) task (s.part.taken src) =
      (s.part.taken src).setReaders (s.part.storage.readers ++
        [{ ch := sourceChannel src, task := t, page := 0, buffer := [], spoiled := false }]) := by
    simp only [startReader, next, taken_storage]
  have holds := holdsReader_append free next
  obtain ⟨waits, state⟩ := settle_holds s.medium holds
  have unrestored := (taken_restore src s.part).trans (awake_parts awake).2.2.2
  refine ⟨_, hi.trans (runRequest_ready h hl (hq.trans started) unrestored), ?_, ?_, waits, rfl, rfl⟩
  · rw [state, Part.setReaders, Part.setStorage_chan, taken_chan]
    rfl
  · rw [lasting_settle, lasting_setReaders, taken_lasting]

/-- Settles O46: each request as its admission leaves it. -/
theorem hireRequestsAct : Obligations.HireRequestsAct := by
  constructor
  · intro src contract s ready allowed p away unclosing
    have admitted := requestOpenHire_admitted (p := p) allowed away unclosing contract
    refine ⟨fun opened => ?_, fun shut spent => ?_, fun shut numbers => ?_⟩
    · exact read_answers rfl ready rfl (admitted.trans (if_pos opened))
    · rw [if_neg (by simp [shut]), if_pos spent] at admitted
      exact read_answers rfl ready rfl admitted
    · rw [if_neg (by simp [shut]), if_neg numbers] at admitted
      exact checkpointed_answers rfl ready rfl admitted (hlast := by cases src <;> rfl)
  · intro src s ready allowed p ch
    refine ⟨fun closing => ?_, fun unclosing shut => ?_, fun h unclosing opened => ?_, ?_, ?_⟩
    · exact read_answers rfl ready rfl (requestCloseHire_closing allowed closing)
    · exact read_answers rfl ready rfl (requestCloseHire_shut allowed unclosing shut)
    · exact changing_processes rfl ready rfl (requestCloseHire_open allowed unclosing opened) (fun _ => trivial)
        (by exact chan_of_link rfl _) (hr := by rw [taken_storage]) (hlast := by cases src <;> rfl)
    · rintro rfl empty
      exact read_answers rfl ready rfl (requestCollectHire_empty empty)
    · rintro n rest rfl queued
      exact reading_processes rfl ready rfl (requestCollectHire_head queued) rfl

end Sys2Proof.Machine
end

section
/-! The ends of the management reader's reads (R112, R186 to R189), and reads that storage does not answer (R153). -/

namespace Sys2Proof.Machine

/-! ## A page of the reader at the head (R153, R156) -/

/-- The reader with one more page of its read taken from the medium. -/
def Reader.taking (r : Reader) (m : Medium) (page : Nat) : Reader :=
  { r with page := r.page + 1, buffer := r.buffer ++ m.page page, spoiled := r.spoiled || m.anySpoiled page 1 }

section
variable {m : Medium} {page : Nat} {p q : Part} {r : Reader} {rest : List Reader} (hr : p.storage.readers = r :: rest)
include hr

theorem readerTook_next (hl : r.page + 1 < r.task.pages) :
    readerTook (m.page page) (m.anySpoiled page 1) p = p.setReaders (r.taking m page :: rest) := by
  simp only [readerTook, hr, hl, if_true]
  rfl

theorem readerTook_answers (hl : r.task.pages ≤ r.page + 1) {msg : List Byte}
    (hq : finishRead (r.taking m page) p = (q, .inr msg)) :
    readerTook (m.page page) (m.anySpoiled page 1) p = respond r.ch msg (q.setReaders rest) := by
  unfold Reader.taking at hq
  simp only [readerTook, hr, Nat.not_lt.mpr hl, if_false, hq]

section
variable {task : ReaderTask} (hl : r.task.pages ≤ r.page + 1) (hq : finishRead (r.taking m page) p = (q, .inl task))
include hl hq

theorem readerTook_asks {t : ReaderTask} (ht : q.readerNext task = .read t) :
    readerTook (m.page page) (m.anySpoiled page 1) p =
      q.setReaders (rest ++ [{ ch := r.ch, task := t, page := 0, buffer := [], spoiled := false }]) := by
  unfold Reader.taking at hq
  simp only [readerTook, hr, Nat.not_lt.mpr hl, if_false, hq, ht]

theorem readerTook_done {msg : List Byte} (ht : q.readerNext task = .done msg) :
    readerTook (m.page page) (m.anySpoiled page 1) p = respond r.ch msg (q.setReaders rest) := by
  unfold Reader.taking at hq
  simp only [readerTook, hr, Nat.not_lt.mpr hl, if_false, hq, ht]

end

theorem readerFailed_eq : readerFailed p = respond r.ch (readFailure r.task) (p.setReaders rest) := by
  simp only [readerFailed, hr]

end

theorem read_lasting (p : Part) : p.read.lasting = p.lasting := rfl

theorem read_readerNext (p : Part) (task : ReaderTask) : p.read.readerNext task = p.readerNext task :=
  readerNext_congr (p := p) rfl rfl rfl task

section
variable {s : State} {t : Transaction} {r : Reader} {rest : List Reader} (h : ReadingFor s t r rest) {p : Part}
include h

theorem exec_pageReadComplete_reader :
    exec .pageReadComplete s =
      .next (s.stored s.medium (readerTook (s.medium.page t.page) (s.medium.anySpoiled t.page 1) s.part.read)) := by
  obtain ⟨-, bus, write, page, owner, -, -, -⟩ := h
  simp only [exec, execPageReadComplete, bus, write, Option.isSome_none, Bool.false_eq_true, if_false,
    Nat.not_le.mpr page, readTook, owner]
  rfl

theorem leaves_took {also : Part → Prop} {q : Part}
    (hq : readerTook (s.medium.page t.page) (s.medium.anySpoiled t.page 1) s.part.read = q) (hl : q.lasting = p.lasting)
    (more : also (settle s.medium q)) : Leaves .pageReadComplete s p also := by
  refine ⟨_, exec_pageReadComplete_reader h, ?_, ?_, rfl, rfl⟩
  · rw [hq]
    exact (lasting_settle _ _).trans hl
  · rw [hq]
    exact more

/-- The answer to a reader that is gone from the arbiter is under way when the part has settled. -/
theorem settle_reader_answered {q : Part} (hf : q.placedFrames = s.part.placedFrames) (msg : List Byte) :
    (settle s.medium (respond r.ch msg (q.setReaders rest))).responds r.ch msg := by
  obtain ⟨-, -, -, -, -, -, others, quiet⟩ := h
  have clear : (s.part.setReaders rest).clearFor r.ch := by
    refine ⟨?_, others⟩
    rw [outgoing_eq, Part.setReaders, Part.setStorage_chan]
    exact quiet
  exact settle_respond _ clear hf rfl

/-- A read that its last page ends with a message is answered with it. -/
theorem readAnswers_of_finish (hl : r.task.pages ≤ r.page + 1) {msg : List Byte}
    (hq : finishRead (r.taking s.medium t.page) s.part.read = (p.read, .inr msg))
    (hf : p.placedFrames = s.part.placedFrames := by rfl) : ReadAnswers s r p msg := by
  obtain ⟨-, -, -, -, -, readers, -, -⟩ := id h
  exact leaves_took h (readerTook_answers (p := s.part.read) readers hl hq)
    ((lasting_respond _ _ _).trans rfl) (settle_reader_answered (q := p.read) h hf msg)

/-- A read whose last page leaves work goes on with it as the part stands. -/
theorem readGoesOn_of_finish (hl : r.task.pages ≤ r.page + 1) {task : ReaderTask}
    (hq : finishRead (r.taking s.medium t.page) s.part.read = (p.read, .inl task))
    (hf : p.placedFrames = s.part.placedFrames := by rfl) : ReadGoesOn s r p task := by
  obtain ⟨-, -, -, -, -, readers, others, -⟩ := id h
  refine ⟨fun next asked => ?_, fun msg done => ?_⟩
  · have asks := (read_readerNext p task).trans asked
    exact leaves_took h (readerTook_asks (p := s.part.read) readers hl hq asks) rfl
      (settle_holds _ (holdsReader_append others asks)).1
  · have ends := (read_readerNext p task).trans done
    exact leaves_took h (readerTook_done (p := s.part.read) readers hl hq ends)
      ((lasting_respond _ _ _).trans rfl) (settle_reader_answered (q := p.read) h hf msg)

/-- A page before a read's last is followed by the next page (R156). -/
theorem readsNextPage (hl : r.page + 1 < r.task.pages) :
    Leaves .pageReadComplete s s.part fun u => r.taking s.medium t.page ∈ u.storage.readers := by
  obtain ⟨-, -, -, -, -, readers, others, -⟩ := id h
  have holds : (s.part.read.setReaders (r.taking s.medium t.page :: rest)).HoldsReader (r.taking s.medium t.page) := by
    refine ⟨List.mem_cons_self, fun x hx same => ?_, .inl (Nat.succ_ne_zero _)⟩
    rcases List.mem_cons.mp hx with own | other
    · exact own
    · exact absurd same (others x other)
  exact leaves_took h (readerTook_next (p := s.part.read) readers hl) rfl (settle_holds _ holds).1

/-- A read that storage does not answer twice ends its request, and the failure is counted (R153). -/
theorem readFails (h2 : 2 ≤ t.attempt) {msg : List Byte} (hm : readFailure r.task = msg) :
    Leaves .storageAnswerTimeout s s.part.pageFailed fun u => u.responds r.ch msg := by
  subst hm
  obtain ⟨-, bus, write, -, owner, readers, -, -⟩ := id h
  have silent : exec .storageAnswerTimeout s =
      .next (s.stored s.medium (respond r.ch (readFailure r.task) (s.part.failed.setReaders rest))) := by
    rw [← readerFailed_eq (p := s.part.failed) readers]
    simp only [exec, execStorageAnswerTimeout, failRead, bus, write, Option.isSome_none, Bool.false_eq_true, if_false,
      Nat.not_lt.mpr h2, readSilent, owner]
    rfl
  refine ⟨_, silent, ?_, settle_reader_answered (q := s.part.failed) h rfl _, rfl, rfl⟩
  exact (lasting_settle _ _).trans ((lasting_respond _ _ _).trans (failed_lasting s.part))

end

end Sys2Proof.Machine
end

section
/-! The answers of Collect Hire, Read Records of the archives and Scan Archive by what the medium held (R112, R186, R188,
R189). -/

namespace Sys2Proof.Machine

/-! ## Collect Hire (R112) -/

theorem beBytes_one (n : Nat) : beBytes 1 n = [BitVec.ofNat 8 n] := by
  simp [beBytes]

theorem yesNo_eq (b : Bool) : yesNo b = [if b then 1 else 0] := by
  cases b <;> rfl

/-- A number in the queue leaves it; with the queue then empty the dropped flag is cleared (R109, R112). -/
theorem collect_eq {h : Hire} {number : Nat} (hn : number ∈ h.queue) :
    h.collect number =
      { h with
        queue := h.queue.filter (· ≠ number)
        dropped := h.dropped && !(h.queue.filter (· ≠ number)).isEmpty } :=
  if_pos (List.contains_iff_mem.mpr hn)

/-- The part with a number taken from the queue of closed hires. -/
def Part.collected (p : Part) (number : Nat) : Part :=
  { p with
    hire := { p.hire with
      queue := p.hire.queue.filter (· ≠ number)
      dropped := p.hire.dropped && !(p.hire.queue.filter (· ≠ number)).isEmpty } }

/-- Collect Hire's response: the entry, the queue's length after it, and the two flags (R112). -/
theorem finishCollect_eq {p : Part} {number : Nat} (hn : number ∈ p.hire.queue) (dropped spoiled : Bool)
    (record : List Byte) :
    finishCollect number dropped spoiled record p =
      (p.collected number,
        [0x23, 0x00] ++
          (if spoiled || !recordValid archiveSize record then corruptEntry number
            else [0x00] ++ record.take hireContentSize) ++
          [BitVec.ofNat 8 (p.hire.queue.filter (· ≠ number)).length, if dropped then 1 else 0,
            if p.hire.dropped && (p.hire.queue.filter (· ≠ number)).isEmpty then 1 else 0]) := by
  have cleared : ∀ was left : Bool, (was && !(was && !left)) = (was && left) := by decide
  simp only [finishCollect, collect_eq hn, beBytes_one, yesNo_eq, cleared, List.append_assoc, List.cons_append,
    List.nil_append, Part.collected]

/-! ## Read Records of the archives (R186) -/

theorem entryFits_iff {out entry : List Byte} : entryFits out entry = true ↔ 8 + out.length + entry.length ≤ 1024 :=
  decide_eq_true_iff

section
variable {task : Nat → Nat → List Byte → ReaderTask} {next remaining : Nat} {out entry : List Byte}

theorem appendEntry_fits (hf : 8 + out.length + entry.length ≤ 1024) :
    appendEntry task next remaining out entry = .inl (task (next + 1) (remaining - 1) (out ++ entry)) :=
  if_pos (entryFits_iff.mpr hf)

theorem appendEntry_full (hf : ¬8 + out.length + entry.length ≤ 1024) :
    appendEntry task next remaining out entry = .inr (recordsResponse next remaining out) :=
  if_neg (mt entryFits_iff.mp hf)

end

section
variable {index remaining after : Nat} {out entry : List Byte}

theorem closeRun_fits (hf : 8 + out.length + entry.length ≤ 1024) :
    closeRun index remaining after out entry = .done (recordsResponse index after (out ++ entry)) :=
  if_pos (entryFits_iff.mpr hf)

theorem closeRun_full (hf : ¬8 + out.length + entry.length ≤ 1024) :
    closeRun index remaining after out entry = .done (recordsResponse index remaining out) :=
  if_neg (mt entryFits_iff.mp hf)

end

section
variable {s : State} {t : Transaction} {r : Reader} {rest : List Reader} (h : ReadingFor s t r rest)
include h

/-- A run over an archive at a record's last page: the record's entry is left out and the run ends, or it is taken and the
run ends with its count or goes on with the next number (R186). -/
theorem archiveRun_ends {newest capacity next remaining : Nat} {out entry : List Byte}
    {task : Nat → Nat → List Byte → ReaderTask} (hl : r.task.pages ≤ r.page + 1)
    (hn : ∀ n k o, s.part.readerNext (task n k o) = runArchive newest capacity task k n o)
    (hq : finishRead (r.taking s.medium t.page) s.part.read =
      (s.part.read, appendEntry task next remaining out entry)) :
    (¬8 + out.length + entry.length ≤ 1024 → ReadAnswers s r s.part (recordsResponse next remaining out)) ∧
      (8 + out.length + entry.length ≤ 1024 →
        (remaining ≤ 1 → ReadAnswers s r s.part (recordsResponse (next + 1) 0 (out ++ entry))) ∧
          (2 ≤ remaining → newest < next + 1 + capacity →
            ReadsNext s r s.part (task (next + 1) (remaining - 1) (out ++ entry))) ∧
          (2 ≤ remaining → next + 1 + capacity ≤ newest →
            ReadGoesOn s r s.part (task (next + 1) (remaining - 1) (out ++ entry)))) := by
  refine ⟨fun full => ?_, fun fits => ?_⟩
  · rw [appendEntry_full full] at hq
    exact readAnswers_of_finish h hl hq
  · rw [appendEntry_fits fits] at hq
    obtain ⟨reads, ends⟩ := readGoesOn_of_finish h hl hq
    refine ⟨fun last => ends _ ?_, fun more held => reads _ ?_, fun _ _ => ⟨reads, ends⟩⟩
    · rw [hn, Nat.sub_eq_zero_of_le last]
      rfl
    · rw [hn]
      exact runArchive_held held (Nat.le_sub_one_of_lt more)

end

/-! ## Scan Archive (R188, R189) -/

theorem append_scanCounts (bs : List Byte) (next remaining skipped : Nat) :
    bs ++ scanCounts next remaining skipped = bs ++ beBytes 4 next ++ beBytes 2 remaining ++ beBytes 2 skipped := by
  simp only [scanCounts, List.append_assoc]

theorem scanField_eq (field : Nat) (record : List Byte) :
    scanField field record =
      if field = 0 then natAt record 4 4
      else if field = 1 then ((byteAt record 16).getLsbD 2).toNat
      else if natAt record 19 8 = 0 then 0 else 1 := by
  match field with
  | 0 => rfl
  | 1 => rfl
  | _ + 2 => rfl

section
variable {next remaining field sense value skipped timer : Nat} {spoiled : Bool} {record : List Byte} {skip : Bool}
  (hk : (spoiled || !recordValid archiveSize record || natAt record 0 4 != next) = skip)
include hk

/-- FOUND at a record that is not skipped and meets the sense (R188). -/
theorem finishScan_found (hit : (!skip && meetsSense sense value (scanField field record)) = true) :
    finishScan next remaining field sense value skipped timer spoiled record =
      .inr ([0x41, 0x00, 0x00] ++ beBytes 4 next ++
        scanCounts (next + 1) (remaining - 1) (if skip then skipped + 1 else skipped)) := by
  simp only [finishScan, hk, hit, if_true]

/-- EXHAUSTED at the last record of the count (R188). -/
theorem finishScan_exhausted (hit : (!skip && meetsSense sense value (scanField field record)) = false)
    (hr : remaining - 1 = 0) :
    finishScan next remaining field sense value skipped timer spoiled record =
      .inr ([0x41, 0x00, 0x01] ++ scanCounts (next + 1) 0 (if skip then skipped + 1 else skipped)) := by
  simp only [finishScan, hk, hit, hr, if_true, if_false, Bool.false_eq_true]

theorem finishScan_on (hit : (!skip && meetsSense sense value (scanField field record)) = false)
    (hr : 1 ≤ remaining - 1) :
    finishScan next remaining field sense value skipped timer spoiled record =
      .inl (.scan (next + 1) (remaining - 1) field sense value (if skip then skipped + 1 else skipped) timer) := by
  simp only [finishScan, hk, hit, Nat.one_le_iff_ne_zero.mp hr, if_false, Bool.false_eq_true]

end

end Sys2Proof.Machine
end

section
/-! Read Records of a capture (R187): what a frame page gives, and the run behind it. -/

namespace Sys2Proof.Machine

/-! ## Changes to a capture's entry -/

section
variable (c : Capture) (e : Nat) (f : CaptureEntry → CaptureEntry)

theorem mapEntry_entry (k : Nat) : (c.mapEntry e f).entry k = if k = e then (c.entry e).map f else c.entry k := by
  simp only [Capture.entry, Capture.mapEntry, Vector.getElem?_setIfInBounds]
  by_cases own : e = k
  · subst own
    by_cases inside : e < 8 <;> simp [inside]
  · simp [own, Ne.symm own]

/-- A change that keeps the entries' numbers keeps where each number is held. -/
theorem mapEntry_entryOf (hf : ∀ y, (f y).number = y.number) (number : Nat) :
    (c.mapEntry e f).entryOf number = c.entryOf number := by
  have same : ∀ k, ((c.mapEntry e f).entry k).any (·.number == number) = (c.entry k).any (·.number == number) := by
    intro k
    rw [mapEntry_entry]
    split
    · rename_i own
      rw [own, Option.any_map]
      simp only [hf]
    · rfl
  simp only [Capture.entryOf, same]

end

/-! ## A frame page (R187, R193) -/

/-- The frames of an entry that a page's read covers: those the page holds from the index on, up to the count (R187). -/
def CaptureEntry.covered (x : CaptureEntry) (index remaining : Nat) : Nat :=
  min remaining (16 * (index / 16) + min 16 (x.stored - 16 * (index / 16)) - index)

/-- How many of the covered frames fit with those before them in 1,024 bytes (R186). -/
def framesGiven (covered : Nat) (out : List Byte) : Nat := min covered ((1016 - out.length) / 23)

/-- The CORRUPT entry of a frame page: its first index and the indices it held (R194). -/
def CaptureEntry.corruptPage (x : CaptureEntry) (index : Nat) : List Byte :=
  [0x01] ++ beBytes 2 (16 * (index / 16)) ++ beBytes 1 (min 16 (x.stored - 16 * (index / 16)))

/-- The response with a number of frames of a page behind what it held. -/
def CaptureEntry.framesOut (x : CaptureEntry) (index given : Nat) (out page : List Byte) : List Byte :=
  out ++ (List.range given).flatMap fun i => frameEntryBytes x (bytesAt page (16 * (index - 16 * (index / 16) + i)) 16)

/-- The entry with its read flag set where its last stored frame has been given and it is closed (R150, R187). -/
def CaptureEntry.readUpTo (x : CaptureEntry) (given stop : Nat) (y : CaptureEntry) : CaptureEntry :=
  { y with read := y.read || (x.state != .opened && decide (0 < given) && stop == x.stored) }

theorem readUpTo_closed (x y : CaptureEntry) (given stop : Nat) :
    (x.readUpTo given stop y).closed = (y.state != .opened) := rfl

theorem readUpTo_stored (x y : CaptureEntry) (given stop : Nat) : (x.readUpTo given stop y).stored = y.stored := rfl

/-- The part with that entry's read flag set where it is due. -/
def Part.framesRead (p : Part) (e : Nat) (x : CaptureEntry) (given stop : Nat) : Part :=
  { p with capture := p.capture.mapEntry e (x.readUpTo given stop) }

theorem unsound_eq (spoiled valid : Bool) : (spoiled || !valid) = !(!spoiled && valid) := by
  cases spoiled <;> rfl

section
variable {number index remaining : Nat} {out page : List Byte} {spoiled : Bool} {p : Part}

/-- The frames of a capture that went while its page was read are dropped (log 40). -/
theorem finishFrames_gone (he : p.capture.entryOf number = none) :
    finishFrames number index remaining out spoiled page p = (p, .inl (.frames number index remaining out)) := by
  simp only [finishFrames, he, Option.bind_none]

section
variable {e : Nat} {x : CaptureEntry} (he : p.capture.entryOf number = some e) (hx : p.capture.entry e = some x)
include he hx

/-- The read flag is set through the entry that holds the number. -/
theorem noteRead_eq (given stop : Nat) :
    { p with capture := noteRead number (decide (0 < given) && stop == x.stored) p.capture } =
      p.framesRead e x given stop := by
  have flag : ∀ last closed : Bool, (if last && closed then { x with read := true } else x) =
      { x with read := x.read || (closed && last) } := by
    intro last closed
    cases last <;> cases closed <;> simp
  have entry : (if (decide (0 < given) && stop == x.stored) && x.closed then { x with read := true } else x) =
      x.readUpTo given stop x := by
    rw [flag, ← Bool.and_assoc]
    rfl
  simp only [noteRead, he, Capture.mapEntry, Part.framesRead, hx, Option.map_some, entry]

section
variable (hv : (!spoiled && framePageValid page) = false)
include hv

/-- A corrupt page becomes one entry for the indices it held, and the run goes on behind those covered (R187). -/
theorem finishFrames_corrupt (hf : 8 + out.length + (x.corruptPage index).length ≤ 1024) :
    finishFrames number index remaining out spoiled page p =
      (p, .inl (.frames number (index + x.covered index remaining) (remaining - x.covered index remaining)
        (out ++ x.corruptPage index))) := by
  simp only [finishFrames, he, Option.bind_some, hx, unsound_eq, hv, Bool.not_false, if_true]
  exact if_pos (entryFits_iff.mpr hf)

theorem finishFrames_corrupt_full (hf : ¬8 + out.length + (x.corruptPage index).length ≤ 1024) :
    finishFrames number index remaining out spoiled page p = (p, .inr (recordsResponse index remaining out)) := by
  simp only [finishFrames, he, Option.bind_some, hx, unsound_eq, hv, Bool.not_false, if_true]
  exact if_neg (mt entryFits_iff.mp hf)

end

/-- A valid page's frames are given as far as they fit; with all covered frames given the run goes on (R187). -/
theorem finishFrames_valid (hv : (!spoiled && framePageValid page) = true) {given : Nat}
    (hg : given = framesGiven (x.covered index remaining) out) :
    finishFrames number index remaining out spoiled page p =
      (p.framesRead e x given (index + given),
        if given < x.covered index remaining then
          .inr (recordsResponse (index + given) (remaining - given) (x.framesOut index given out page))
        else .inl (.frames number (index + given) (remaining - given) (x.framesOut index given out page))) := by
  subst hg
  simp only [finishFrames, he, Option.bind_some, hx, unsound_eq, hv, Bool.not_true, Bool.false_eq_true, if_false]
  rw [← noteRead_eq he hx]
  by_cases short : framesGiven (x.covered index remaining) out < x.covered index remaining
  · rw [if_pos short]
    exact if_pos short
  · rw [if_neg short]
    exact if_neg short

end
end

/-! ## The run behind a page's frames -/

section
variable {p : Part} {number e : Nat} {x : CaptureEntry} (he : p.capture.entryOf number = some e)
  (hx : p.capture.entry e = some x) (given stop : Nat)
include he hx

theorem framesRead_held :
    (p.framesRead e x given stop).capture.entryOf number = some e ∧
      (p.framesRead e x given stop).capture.entry e = some (x.readUpTo given stop x) := by
  refine ⟨(mapEntry_entryOf p.capture e (x.readUpTo given stop) (fun _ => rfl) number).trans he, ?_⟩
  rw [Part.framesRead, mapEntry_entry, if_pos rfl, hx, Option.map_some]

section
variable {left : Nat} {out : List Byte}

theorem framesRead_counted :
    (p.framesRead e x given stop).readerNext (.frames number stop 0 out) = .done (recordsResponse stop 0 out) :=
  have ⟨held, entry⟩ := framesRead_held he hx given stop
  runFrames_counted held entry

variable (hr : 1 ≤ left)
include hr

theorem framesRead_stored (hs : stop < x.stored) :
    (p.framesRead e x given stop).readerNext (.frames number stop left out) =
      .read (.frames number stop (if x.state = .opened then left else min left (x.stored - stop)) out) := by
  obtain ⟨held, entry⟩ := framesRead_held he hx given stop
  refine (runFrames_stored held entry hr hs).trans ?_
  by_cases opened : x.state = .opened <;> simp [readUpTo_closed, readUpTo_stored, opened]

theorem framesRead_closed (hs : x.stored ≤ stop) (hc : x.state ≠ .opened) :
    (p.framesRead e x given stop).readerNext (.frames number stop left out) = .done (recordsResponse stop 0 out) := by
  obtain ⟨held, entry⟩ := framesRead_held he hx given stop
  exact (runFrames_past held entry hr hs).trans (if_pos (bne_iff_ne.mpr hc))

/-- NOT_READY behind the stored frames of an OPEN capture (R187). -/
theorem framesRead_opened (hs : x.stored ≤ stop) (ho : x.state = .opened) :
    (p.framesRead e x given stop).readerNext (.frames number stop left out) =
      closeRun x.stored left left out ([0x03] ++ beBytes 2 x.stored) := by
  obtain ⟨held, entry⟩ := framesRead_held he hx given stop
  have open_ : ¬(x.readUpTo given stop x).closed = true := by
    simp [readUpTo_closed, ho]
  exact (runFrames_past held entry hr hs).trans (if_neg open_)

end
end

end Sys2Proof.Machine
end

section
/-! A read's last page by its task, and every end of the management reader's reads (R112, R186 to R189). -/

namespace Sys2Proof.Machine

section
variable {r : Reader} (m : Medium) (page : Nat) (p : Part)

theorem pages_archive (hk : ∀ number index remaining out, r.task ≠ .frames number index remaining out) :
    r.task.pages = 4 := by
  unfold ReaderTask.pages
  split
  · exact absurd ‹_› (hk _ _ _ _)
  · rfl

theorem finishRead_components {next remaining : Nat} {out : List Byte} (hk : r.task = .components next remaining out) :
    finishRead (r.taking m page) p =
      (p, appendEntry .components next remaining out
        (archiveEntry 370 next (r.spoiled || m.anySpoiled page 1) (r.buffer ++ m.page page))) := by
  simp only [finishRead, Reader.taking, hk]

theorem finishRead_hires {next remaining : Nat} {out : List Byte} (hk : r.task = .hires next remaining out) :
    finishRead (r.taking m page) p =
      (p, appendEntry .hires next remaining out
        (archiveEntry 591 next (r.spoiled || m.anySpoiled page 1) (r.buffer ++ m.page page))) := by
  simp only [finishRead, Reader.taking, hk]

theorem finishRead_frames {number index remaining : Nat} {out : List Byte}
    (hk : r.task = .frames number index remaining out) :
    finishRead (r.taking m page) p =
      finishFrames number index remaining out (r.spoiled || m.anySpoiled page 1) (r.buffer ++ m.page page) p := by
  simp only [finishRead, Reader.taking, hk]

theorem finishRead_scan {next remaining field sense value skipped timer : Nat}
    (hk : r.task = .scan next remaining field sense value skipped timer) :
    finishRead (r.taking m page) p =
      (p, finishScan next remaining field sense value skipped timer (r.spoiled || m.anySpoiled page 1)
        (r.buffer ++ m.page page)) := by
  simp only [finishRead, Reader.taking, hk]

theorem finishRead_collect {number : Nat} {dropped : Bool} (hk : r.task = .collect number dropped) :
    finishRead (r.taking m page) p =
      let done := finishCollect number dropped (r.spoiled || m.anySpoiled page 1) (r.buffer ++ m.page page) p
      (done.1, .inr done.2) := by
  simp only [finishRead, Reader.taking, hk]

end

section
variable {s : State} {t : Transaction} {r : Reader} {rest : List Reader} (h : ReadingFor s t r rest)
  {number index remaining : Nat} {out : List Byte} (hk : r.task = .frames number index remaining out)
include h hk

/-- A frame page is a read of its own (R156). -/
theorem frames_goOn {p : Part} {task : ReaderTask}
    (hq : finishFrames number index remaining out (r.spoiled || s.medium.anySpoiled t.page 1)
      (r.buffer ++ s.medium.page t.page) s.part.read = (p.read, .inl task))
    (hf : p.placedFrames = s.part.placedFrames := by rfl) : ReadGoesOn s r p task :=
  readGoesOn_of_finish h (by rw [hk]; exact Nat.le_add_left 1 r.page) ((finishRead_frames _ _ _ hk).trans hq) hf

theorem frames_answer {p : Part} {msg : List Byte}
    (hq : finishFrames number index remaining out (r.spoiled || s.medium.anySpoiled t.page 1)
      (r.buffer ++ s.medium.page t.page) s.part.read = (p.read, .inr msg))
    (hf : p.placedFrames = s.part.placedFrames := by rfl) : ReadAnswers s r p msg :=
  readAnswers_of_finish h (by rw [hk]; exact Nat.le_add_left 1 r.page) ((finishRead_frames _ _ _ hk).trans hq) hf

section
variable {e : Nat} {x : CaptureEntry} (he : s.part.capture.entryOf number = some e)
  (hx : s.part.capture.entry e = some x)
  (hv : (!(r.spoiled || s.medium.anySpoiled t.page 1) && framePageValid (r.buffer ++ s.medium.page t.page)) = true)
  {given : Nat} (hg : given = framesGiven (x.covered index remaining) out)
include he hx hv hg

/-- With every covered frame given, a capture's run goes on behind them (R187). -/
theorem framesGiven_goOn (all : given = x.covered index remaining) :
    ReadGoesOn s r (s.part.framesRead e x given (index + given))
      (.frames number (index + given) (remaining - given)
        (x.framesOut index given out (r.buffer ++ s.medium.page t.page))) :=
  frames_goOn h hk ((finishFrames_valid (p := s.part.read) he hx hv hg).trans
    (congrArg _ (if_neg (Nat.not_lt.mpr (Nat.le_of_eq all.symm)))))

/-- Without room for a covered frame, or with the count used up, a capture's run ends behind the frames given (R186). -/
theorem framesGiven_answer (ended : given < x.covered index remaining ∨ remaining - given = 0) :
    ReadAnswers s r (s.part.framesRead e x given (index + given))
      (recordsResponse (index + given) (remaining - given)
        (x.framesOut index given out (r.buffer ++ s.medium.page t.page))) := by
  rcases Nat.lt_or_ge given (x.covered index remaining) with short | full
  · exact frames_answer h hk ((finishFrames_valid (p := s.part.read) he hx hv hg).trans (congrArg _ (if_pos short)))
  · have all : given = x.covered index remaining := Nat.le_antisymm (hg.trans_le (Nat.min_le_left ..)) full
    have goesOn := (framesGiven_goOn h hk he hx hv hg all).2
    rw [ended.resolve_left (Nat.not_lt.mpr full)] at goesOn ⊢
    exact goesOn _ (framesRead_counted he hx given (index + given))

end
end

/-- Settles O55: each task's last page by what it held, the next page of a record, and a read that fails twice. -/
theorem readerReadsEnd : Obligations.ReaderReadsEnd := by
  intro s t r rest reading p record spoiled bad fits records failed partly run
  refine ⟨?_, ?_, ?_, ?_, ?_, ?_⟩
  · intro number dropped task queue
    have pages : r.task.pages = 4 := by rw [task]; rfl
    refine ⟨fun last held => ?_, fun twice => readFails reading twice (by rw [task]; rfl)⟩
    have finish := finishRead_collect s.medium t.page s.part.read task
    rw [finishCollect_eq (p := s.part.read) held] at finish
    exact readAnswers_of_finish reading (pages.trans_le last) finish
  · intro next remaining out task
    have pages : r.task.pages = 4 := by rw [task]; rfl
    refine ⟨fun last => ?_, fun twice => readFails reading twice (by rw [task]; rfl)⟩
    exact archiveRun_ends reading (pages.trans_le last) (fun _ _ _ => rfl) (finishRead_components _ _ _ task)
  · intro next remaining out task
    have pages : r.task.pages = 4 := by rw [task]; rfl
    refine ⟨fun last => ?_, fun twice => readFails reading twice (by rw [task]; rfl)⟩
    exact archiveRun_ends reading (pages.trans_le last) (fun _ _ _ => rfl) (finishRead_hires _ _ _ task)
  · intro next remaining field sense value skipped timer task newest left found skip skipped' hit on
    have pages : r.task.pages = 4 := by rw [task]; rfl
    have finish := finishRead_scan s.medium t.page s.part.read task
    have met : (!skip && meetsSense sense value (scanField field record)) = hit := by
      rw [scanField_eq]
      rfl
    refine ⟨fun last => ⟨fun hits => ?_, fun misses => ⟨fun counted => ?_, ?_⟩⟩, fun twice => ?_⟩
    · rw [finishScan_found rfl (met.trans hits), append_scanCounts] at finish
      exact readAnswers_of_finish reading (pages.trans_le last) finish
    · rw [finishScan_exhausted rfl (met.trans misses) counted, append_scanCounts] at finish
      exact readAnswers_of_finish reading (pages.trans_le last) finish
    · have goesOn (more : 1 ≤ left) : ReadGoesOn s r p on := by
        rw [finishScan_on rfl (met.trans misses) more] at finish
        exact readGoesOn_of_finish reading (pages.trans_le last) finish
      refine ⟨fun more beyond => ?_, fun more written held => ?_, fun more _ => goesOn more⟩
      · have skips := (goesOn more).2 _ (runScan_beyond (Nat.lt_succ_of_le beyond))
        rw [append_scanCounts] at skips
        exact skips
      · exact (goesOn more).1 _ (runScan_held written held more)
    · exact readFails reading twice (by rw [task]; exact append_scanCounts _ _ _ _)
  · intro number index remaining out task gone
    refine ⟨fun none => ?_, fun e x he hx => ?_, fun twice => readFails reading twice (by rw [task]; rfl)⟩
    · have ends := (frames_goOn reading task (p := s.part) (finishFrames_gone none)).2
      have closes := runFrames_gone (index := index) (remaining := remaining) (out := out) none
      exact ⟨fun fit => ends _ (closes.trans (closeRun_fits fit)), fun full => ends _ (closes.trans (closeRun_full full))⟩
    · intro first held covered valid corrupt given end_ left out' q
      refine ⟨fun invalid => ⟨fun fit => ?_, fun full => ?_⟩, fun sound => ⟨fun ended => ?_, fun all more stored => ?_,
        fun all more past => ?_⟩⟩
      · exact frames_goOn reading task (finishFrames_corrupt he hx invalid fit)
      · exact frames_answer reading task (finishFrames_corrupt_full he hx invalid full)
      · exact framesGiven_answer reading task he hx sound rfl ended
      · exact (framesGiven_goOn reading task he hx sound rfl all).1 _ (framesRead_stored he hx given end_ more stored)
      · have ends := (framesGiven_goOn reading task he hx sound rfl all).2
        refine ⟨fun closed => ?_, fun opened fit => ?_, fun opened full => ?_⟩
        · exact ends _ (framesRead_closed he hx given end_ more past closed)
        · rw [List.append_assoc]
          exact ends _ ((framesRead_opened he hx given end_ more past opened).trans (closeRun_fits fit))
        · exact ends _ ((framesRead_opened he hx given end_ more past opened).trans (closeRun_full full))
  · intro more archive
    exact readsNextPage reading (by rw [pages_archive archive]; exact more)

end Sys2Proof.Machine
end

section
/-! The port B arbiter (R128): what each grant takes, and what it leaves waiting. -/

namespace Sys2Proof.Machine

/-! ## The grants -/

section Grants

variable {p : Part}

/-- A port that is not RUNNING, or whose transmitter holds a frame, is given none. -/
theorem fillB_of_not_free (h : ¬(p.portB.state = .running ∧ p.portB.tx = none)) : fillB p = p := by
  rw [fillB, if_neg (by simpa using h)]

variable (running : p.portB.state = .running) (empty : p.portB.tx = none)
include running empty

theorem fillB_service {f : TxFrame} (service : p.ring.waitingService = some f) :
    fillB p = { p with portB := { p.portB with tx := some f }, ring := { p.ring with waitingService := none } } := by
  simp [fillB, running, empty, service]

theorem fillB_fleet {f : TxFrame} (service : p.ring.waitingService = none) (fleet : p.ring.waitingFleet = some f) :
    fillB p = { p with portB := { p.portB with tx := some f }, ring := { p.ring with waitingFleet := none } } := by
  simp [fillB, running, empty, service, fleet]

theorem fillB_status {f : TxFrame} (service : p.ring.waitingService = none) (fleet : p.ring.waitingFleet = none)
    (status : p.ring.waitingStatus = some f) :
    fillB p = { p with portB := { p.portB with tx := some f }, ring := { p.ring with waitingStatus := none } } := by
  simp [fillB, running, empty, service, fleet, status]

theorem fillB_forward {rec : RingRecord} (service : p.ring.waitingService = none) (fleet : p.ring.waitingFleet = none)
    (status : p.ring.waitingStatus = none) (record : p.ring.pointerRecord = some rec) : fillB p = handOver rec p := by
  simp [fillB, running, empty, service, fleet, status, record]

theorem fillB_nothing (service : p.ring.waitingService = none) (fleet : p.ring.waitingFleet = none)
    (status : p.ring.waitingStatus = none) (record : p.ring.pointerRecord = none) : fillB p = p := by
  simp [fillB, running, empty, service, fleet, status, record]

end Grants

/-! ## A record handed over (R125) -/

theorem handOver_tx (rec : RingRecord) (p : Part) :
    (handOver rec p).portB.tx = some { frame := rec.frame, source := .forward, timeout := none } := rfl

/-- The Forwarder's hand-over takes no frame that waits at the arbiter. -/
theorem handOver_waiting (rec : RingRecord) (p : Part) :
    (handOver rec p).ring.waitingService = p.ring.waitingService ∧
      (handOver rec p).ring.waitingFleet = p.ring.waitingFleet ∧
      (handOver rec p).ring.waitingStatus = p.ring.waitingStatus := ⟨rfl, rfl, rfl⟩

/-! ## The order of the grants (R128) -/

/-- Settles O16: the grants in their order, each by what waits before it. -/
theorem portBGrantOrder : Obligations.PortBGrantOrder := by
  refine fun p => ⟨fillB_of_not_free, fun running empty => ?_⟩
  cases service : p.ring.waitingService with
  | some f => simp [fillB_service running empty service]
  | none =>
    cases fleet : p.ring.waitingFleet with
    | some f => simp [fillB_fleet running empty service fleet, service]
    | none =>
      cases status : p.ring.waitingStatus with
      | some f => simp [fillB_status running empty service fleet status, service, fleet]
      | none =>
        cases record : p.ring.pointerRecord with
        | some rec =>
          obtain ⟨keepsService, keepsFleet, keepsStatus⟩ := handOver_waiting rec p
          simp [fillB_forward running empty service fleet status record, handOver_tx, keepsService, keepsFleet,
            keepsStatus, service, fleet, status]
        | none => simp [fillB_nothing running empty service fleet status record, empty, service, fleet, status]

end Sys2Proof.Machine
end

section
/-! The status frame (R129, R184, R191): its bytes, and where it goes from the status timer's expiry. -/

namespace Sys2Proof.Machine

/-! ## Its bytes (R191) -/

theorem foldr_flags_testBit (bits : List Bool) (i : Nat) :
    (bits.foldr (fun b acc => 2 * acc + b.toNat) 0 : Nat).testBit i = bits.getD i false := by
  induction bits generalizing i with
  | nil => simp
  | cons b bs ih =>
    cases i with
    | zero => cases b <;> simp
    | succ i =>
      have half (n : Nat) : (2 * n + b.toNat) / 2 = n := by have := b.toNat_lt; omega
      rw [List.foldr_cons, Nat.testBit_succ, half, ih, List.getD_cons_succ]

/-- A flag byte shows its flags in their order, and 0 beyond the last (R190). -/
theorem flagByte_getElem (bits : List Bool) {i : Nat} (h : i < 8) : (flagByte bits)[i] = bits.getD i false := by
  rw [← BitVec.getLsbD_eq_getElem, flagByte, BitVec.getLsbD_ofNat, foldr_flags_testBit, decide_eq_true h,
    Bool.true_and]

/-- The conditions shown are those in the set whose mask flag is clear, by number (R180, R183). -/
theorem shown_eq (p : Part) :
    p.shown = (List.range' 1 10).filter fun c => p.condition c && !p.link.mask.getLsbD (c - 1) := by
  rw [Part.shown, Part.conditions, List.filter_filter]
  exact List.filter_congr fun c _ => Bool.and_comm _ _

theorem shown_length_le (p : Part) : p.shown.length ≤ 10 := by
  rw [shown_eq]
  exact List.length_filter_le _ _

theorem shown_headD_le (p : Part) : p.shown.headD 0 ≤ 10 := by
  cases shown : p.shown with
  | nil => simp
  | cons c cs =>
    have among : c ∈ p.shown := by simp [shown]
    rw [shown_eq, List.mem_filter, List.mem_range'_1] at among
    exact Nat.le_of_lt_succ among.1.2

theorem Mode.num_lt (m : Mode) : m.num < 256 := by
  cases m <;> decide

theorem EngineState.num_lt (e : EngineState) : e.num < 256 := by
  cases e <;> decide

/-- The status frame's bytes one by one; only the hire number takes two. -/
theorem statusBytes_eq (p : Part) :
    statusBytes p =
      BitVec.ofNat 8 p.modeCtl.mode.num ::
        flagByte [p.modeCtl.ignition, p.modeCtl.sync, p.hire.current.isSome, p.hire.dropped] ::
        BitVec.ofNat 8 p.detector.engine.num :: BitVec.ofNat 8 (p.shown.headD 0) :: BitVec.ofNat 8 p.shown.length ::
        (beBytes 2 ((p.hire.current.map (·.number)).getD 0) ++ [BitVec.ofNat 8 p.hire.queue.length]) := by
  simp [statusBytes, beBytes_one]

theorem toNat_ofNat_byte {n : Nat} (h : n < 256) : (BitVec.ofNat 8 n).toNat = n := by
  rw [BitVec.toNat_ofNat, Nat.mod_eq_of_lt h]

/-! ## From the arbiter to the transmitter (R128, R129) -/

theorem probeNext_waitingStatus (p : Part) : (probeNext p).ring.waitingStatus = p.ring.waitingStatus := by
  have attempt : ∀ n q, (startAttempt n q).ring.waitingStatus = q.ring.waitingStatus := by
    intro n q
    unfold startAttempt
    split <;> rfl
  unfold probeNext
  dsimp only
  split
  · rfl
  · rfl
  · exact attempt _ _
  · exact attempt _ _
  · rfl

theorem offerNext_waitingStatus (ch : Channel) (port : PortId) (p : Part) :
    (offerNext ch port p).ring.waitingStatus = p.ring.waitingStatus := by
  have offer : ∀ (f : TxFrame) (q : Part), (offerFrame ch port f q).ring.waitingStatus = q.ring.waitingStatus := by
    intro f q
    cases port <;> cases ch <;> rfl
  unfold offerNext
  split
  · rfl
  · dsimp only
    split
    · rw [offer, Part.setChan_ring]
    · split
      · split
        · rfl
        · rw [offer, Part.setChan_ring]
      · rfl

theorem linkOffers_waitingStatus (p : Part) : (linkOffers p).ring.waitingStatus = p.ring.waitingStatus := by
  simp only [linkOffers, offerNext_waitingStatus]

theorem fillA_waitingStatus (p : Part) : (fillA p).ring.waitingStatus = p.ring.waitingStatus := by
  unfold fillA
  split
  · split <;> rfl
  · rfl

/-- The status frame is at port B: it waits at the arbiter, or it stands in the transmitter. -/
def Part.statusAtB (p : Part) (f : TxFrame) : Prop := p.ring.waitingStatus = some f ∨ p.portB.tx = some f

/-- A grant leaves the status frame waiting, or it is the one granted. -/
theorem fillB_statusAtB {p : Part} {f : TxFrame} (h : p.ring.waitingStatus = some f) : (fillB p).statusAtB f := by
  by_cases free : p.portB.state = .running ∧ p.portB.tx = none
  · obtain ⟨running, empty⟩ := free
    cases service : p.ring.waitingService with
    | some g => exact .inl (by rw [fillB_service running empty service]; exact h)
    | none =>
      cases fleet : p.ring.waitingFleet with
      | some g => exact .inl (by rw [fillB_fleet running empty service fleet]; exact h)
      | none => exact .inr (by rw [fillB_status running empty service fleet h])
  · exact .inl (by rw [fillB_of_not_free free]; exact h)

/-- A status frame that waits at the arbiter is at port B after the settling. -/
theorem settle_statusAtB (m : Medium) {p : Part} {f : TxFrame} (h : p.ring.waitingStatus = some f) :
    (settle m p).statusAtB f := by
  have granted : (grant m p).ring = p.ring := grant_keeps Part.ring (fun _ _ => rfl) (fun _ _ _ => by simp) m p
  have offered : (fillA (linkOffers (probeNext (grant m p)))).ring.waitingStatus = some f := by
    rw [fillA_waitingStatus, linkOffers_waitingStatus, probeNext_waitingStatus, granted, h]
  have offers : ∀ q : Part, q.statusAtB f → (linkOffers q).statusAtB f := fun q => by
    rw [Part.statusAtB, Part.statusAtB, linkOffers_waitingStatus, linkOffers_portB]
    exact id
  have quiet : ∀ q : Part, q.statusAtB f → (settleQuiet q).statusAtB f := fun _ => id
  unfold settle
  split
  · exact .inl h
  · split
    · exact .inl (by rw [granted, h])
    · exact quiet _ (offers _ (fillB_statusAtB offered))

/-! ## The timer's expiry (R184) -/

theorem lasting_expireStatus (p : Part) :
    (expireStatus p).lasting = { p with link := { p.link with statusTimer := some 1000 } }.lasting := rfl

/-- Settles O32: `expireStatus` offers the frame of the moment, which the settling keeps at port B; its bytes are read
from `statusBytes_eq`. -/
theorem statusFrameShowsState : Obligations.StatusFrameShowsState := by
  intro s awake due queue p shown
  have acts : (if p.link.statusTimer.isSome then expireStatus p else p) = expireStatus p := if_pos due
  have shows : p.shown = shown := shown_eq p
  have bytes := statusBytes_eq p
  rw [shows] at bytes
  have first := toNat_ofNat_byte (Nat.lt_of_le_of_lt (shows ▸ shown_headD_le p) (by decide : 10 < 256))
  have count := toNat_ofNat_byte (Nat.lt_of_le_of_lt (shows ▸ shown_length_le p) (by decide : 10 < 256))
  refine ⟨statusBytes p, ?_, ?_, ?_, ?_, ?_, ?_, ?_, ?_, ?_⟩
  · obtain ⟨-, -, -, restored⟩ := awake_parts awake
    refine leaves_of_runAwake (f := fun p => if p.link.statusTimer.isSome then expireStatus p else p) rfl awake
      ?_ ?_ ?_
    · rw [acts]; exact restored
    · rw [acts]; exact lasting_expireStatus p
    · rw [acts]; exact settle_statusAtB _ rfl
  · simp [bytes, beBytes_length]
  · simp [bytes, toNat_ofNat_byte p.modeCtl.mode.num_lt]
  · simp [bytes, flagByte_getElem]
  · simp [bytes, toNat_ofNat_byte p.detector.engine.num_lt]
  · simp only [bytes, List.getElem?_cons_succ, List.getElem?_cons_zero, Option.map_some, first]
  · simp [bytes, count]
  · simp only [bytes, natAt_cons]
    exact natAt_zero 2 _ _
  · have length : p.hire.queue.length < 256 := Nat.lt_of_le_of_lt queue (by decide)
    simp [bytes, beBytes, toNat_ofNat_byte length]

end Sys2Proof.Machine
end

section
/-! Triggers and the starts of captures (R137 to R141): what a trigger does by the Capture Unit's state, and the
directory after a start. -/

namespace Sys2Proof.Machine

/-- What lasts is the same in two parts that agree on all that lasts. -/
theorem eq_of_lasting {β : Type} (g : Part → β) (hg : ∀ q : Part, g q.lasting = g q) {p q : Part}
    (h : p.lasting = q.lasting) : g p = g q := by
  rw [← hg, h, hg]

/-! ## The window of a trigger (R139, R143) -/

/-- A sequence at most 4,096 behind the next stands that far behind it (R121). -/
theorem distance_behind (r : Ring) {n : Nat} (h : n ≤ 4096) : r.distance (r.next - BitVec.ofNat 32 n) = -(n : Int) := by
  have back : r.next - BitVec.ofNat 32 n - r.next = -BitVec.ofNat 32 n := by bv_omega
  have small : (BitVec.ofNat 32 n).toNat = n := Nat.mod_eq_of_lt (by omega)
  rw [Ring.distance, back, BitVec.toInt_neg, BitVec.toInt_eq_toNat_of_lt (by omega), small,
    Int.bmod_eq_of_le (by omega) (by omega)]

/-- The frames of a trigger's window that have left the ring when its capture starts (R141, R143). -/
def Trigger.lostIn (t : Trigger) (r : Ring) : Nat :=
  let first := t.seq - BitVec.ofNat 32 t.available
  let windowEnd := t.seq + BitVec.ofNat 32 t.postAsked - 1
  if r.distance first < r.distance r.oldest then
    min (r.distance r.oldest - r.distance first).toNat (r.distance windowEnd - r.distance first + 1).toNat
  else 0

/-- A trigger of this moment has lost no frame: its available pre is in the ring (R139). -/
theorem lostIn_triggerRecord (cause : Cause) (pre post : Nat) (drive : Bool) (mark : Option (Nat × Nat)) {p : Part}
    (h : p.ring.fill ≤ 4096) : (triggerRecord cause pre post drive mark p).lostIn p.ring = 0 := by
  have within : min pre (min p.ring.fill (entryFrames - post)) ≤ p.ring.fill := by omega
  have present : ¬p.ring.distance (p.ring.next - BitVec.ofNat 32 (min pre (min p.ring.fill (entryFrames - post)))) <
      p.ring.distance p.ring.oldest := by
    rw [Ring.oldest, distance_behind _ h, distance_behind _ (within.trans h)]
    omega
  exact if_neg present

/-! ## The start of a capture (R141) -/

/-- The entry chosen is filled from the trigger, OPEN and with nothing stored; the others stand. -/
theorem startIn_entry {e : Nat} (he : e < 8) (t : Trigger) (p : Part) (k : Nat) :
    (startIn e t p).capture.entry k =
      if k = e then some (t.entry p.capture.nextNumber (t.lostIn p.ring)) else p.capture.entry k := by
  refine (copierRun_entry ..).trans ((driveCapt_entry ..).trans ?_)
  by_cases own : e = k
  · subst own
    rw [if_pos rfl]
    exact Capture.entry_of_getElem (Vector.getElem?_setIfInBounds_self_of_lt he)
  · rw [if_neg (Ne.symm own)]
    exact congrArg Option.join (Vector.getElem?_setIfInBounds_ne own)

/-- A start neither misses a trigger nor touches those that wait. -/
theorem startIn_waiting (e : Nat) (t : Trigger) (p : Part) :
    (startIn e t p).capture.missed = p.capture.missed ∧ (startIn e t p).capture.queue = p.capture.queue := by
  have driven : ∀ c : Capture, (driveCapt t.drive c).missed = c.missed ∧ (driveCapt t.drive c).queue = c.queue := by
    cases t.drive <;> exact fun _ => ⟨rfl, rfl⟩
  unfold startIn
  rw [copierRun_entries]
  exact driven _

/-! ## A trigger (R140) -/

section
variable {t : Trigger} {p : Part}

theorem startCapture_starts {e : Nat} (hn : p.capture.nextNumber ≠ exhausted) (hc : p.capture.choose = some e) :
    startCapture t p = (startIn e t p, .started p.capture.nextNumber) := by
  simp only [startCapture, hn, if_false, hc]

theorem takeTrigger_started {e : Nat} (ho : p.capture.anyOpen = false) (hn : p.capture.nextNumber ≠ exhausted)
    (hc : p.capture.choose = some e) : takeTrigger t p = (startIn e t p, .started p.capture.nextNumber) := by
  simp only [takeTrigger, ho, Bool.not_false, if_true, startCapture_starts hn hc]

theorem takeTrigger_waits (ho : p.capture.anyOpen = true) (hq : p.capture.queue.length < 2) :
    takeTrigger t p =
      ({ p with capture := { p.capture with queue := p.capture.queue ++ [t] } },
        .waiting (p.capture.queue.length + 1)) := by
  simp only [takeTrigger, ho, Bool.not_true, Bool.false_eq_true, if_false, hq, if_true]

theorem takeTrigger_missed (ho : p.capture.anyOpen = true) (hq : 2 ≤ p.capture.queue.length) :
    takeTrigger t p = (missTrigger p, .missed) := by
  simp only [takeTrigger, ho, Bool.not_true, Bool.false_eq_true, if_false, Nat.not_lt.mpr hq]

end

end Sys2Proof.Machine
end

section
/-! A fall of CAPT (R137 to R141). -/

namespace Sys2Proof.Machine

/-- The trigger record of a fall of CAPT (R137, R138). -/
def Part.captTriggerRecord (p : Part) : Trigger :=
  triggerRecord .captLine p.modeCtl.active.limits.captPre p.modeCtl.active.limits.captPost false none p

theorem captFall_idle {p : Part}
    (h : p.modeCtl.active.limits.captTrigger = false ∨ p.capture.driveTimer.isSome = true) : captFall p = p := by
  have off : ¬(p.modeCtl.active.limits.captTrigger = true ∧ p.capture.driveTimer.isNone = true) := by
    rintro ⟨flag, undriven⟩
    rcases h with clear | driven
    · exact absurd (clear.symm.trans flag) Bool.false_ne_true
    · rw [Option.isNone_iff_eq_none.mp undriven] at driven
      exact absurd driven Bool.false_ne_true
  exact if_neg off

theorem captFall_triggers {p : Part} (hf : p.modeCtl.active.limits.captTrigger = true)
    (hd : p.capture.driveTimer = none) : captFall p = (takeTrigger p.captTriggerRecord p).1 :=
  if_pos ⟨hf, by rw [hd]; rfl⟩

theorem captFall_restore (p : Part) : (captFall p).restore = p.restore := by
  unfold captFall
  dsimp only
  split
  · exact (congrArg Part.restore (takeTrigger_untriggered _ p) :)
  · rfl

/-- A fall of CAPT leaves what the trigger leaves, settled. -/
theorem captLineFall_leaves {s : State} (ha : s.part.awake = true) {p : Part}
    (h : (captFall s.part).lasting = p.lasting) : Leaves .captLineFall s p fun _ => True :=
  leaves_of_runAwake rfl ha ((captFall_restore _).trans (awake_parts ha).2.2.2) h trivial

/-- Settles O30: `takeTrigger` in each state of the Capture Unit. -/
theorem captFallTriggers : Obligations.CaptFallTriggers := by
  intro s awake p l
  refine ⟨fun idle => captLineFall_leaves awake (by rw [captFall_idle idle]), fun flag undriven => ?_⟩
  have falls := captFall_triggers flag undriven
  refine ⟨fun e shut numbers chosen filled => ?_, fun opened room => ?_, fun opened full => ?_⟩
  · rw [takeTrigger_started shut numbers chosen] at falls
    obtain ⟨t, step, lasting, -, medium, pending⟩ := captLineFall_leaves awake (congrArg Part.lasting falls)
    have capture := eq_of_lasting Part.capture (fun _ => rfl) lasting
    have entry := startIn_entry (choose_lt chosen) p.captTriggerRecord p
    have untriggered := startIn_untriggered e p.captTriggerRecord p
    have lost : p.captTriggerRecord.lostIn p.ring = 0 := lostIn_triggerRecord _ _ _ _ _ filled
    refine ⟨t, step, ?_, fun k other => ?_, ?_, ?_, ?_, ?_, medium, pending⟩
    · rw [capture, entry, if_pos rfl, lost]
      rfl
    · rw [capture, entry, if_neg other]
    · rw [capture, (startIn_capture (choose_lt chosen) _ _).2.1]
    · rw [capture, (startIn_waiting _ _ _).1]
    · exact (eq_of_lasting Part.hire (fun _ => rfl) lasting).trans (startIn_hire e _ p)
    · exact (eq_of_lasting (·.register.slots) (fun _ => rfl) lasting).trans
        (congrArg (·.register.slots) untriggered :)
  · rw [takeTrigger_waits opened room] at falls
    obtain ⟨t, step, lasting, -, medium, pending⟩ := captLineFall_leaves awake (congrArg Part.lasting falls)
    exact ⟨t, _, step, eq_of_lasting Part.capture (fun _ => rfl) lasting, rfl, rfl, medium, pending⟩
  · rw [takeTrigger_missed opened full] at falls
    exact captLineFall_leaves awake (congrArg Part.lasting falls)

end Sys2Proof.Machine
end

section
/-! Capture Now and Release Capture (R140, R147, R149). -/

namespace Sys2Proof.Machine

/-! ## Capture Now (R140, R147) -/

/-- A number's bytes are those of what it leaves modulo their range. -/
theorem beBytes_mod (n v : Nat) : beBytes n (v % 256 ^ n) = beBytes n v := by
  have back := beBytes_ofBe (beBytes n v)
  rwa [beBytes_length, ofBe_beBytes] at back

/-- A result that is there: a set flag, then its bytes (R190). -/
theorem optional_some (n v : Nat) : optional n (some (v : Int)) = 1 :: beBytes n v := by
  have whole : ((v : Int) % (256 ^ n : Nat)).toNat = v % 256 ^ n := by omega
  simp only [optional, Option.isSome_some, yesNo_eq, if_true, Option.getD_some, intBytes, whole]
  exact congrArg (1 :: ·) (beBytes_mod n v)

theorem outcome_bytes_started (number : Nat) :
    (TriggerOutcome.started number).bytes = [0x00, 0x01] ++ beBytes 4 number ++ [0x00, 0x00] := by
  simp only [TriggerOutcome.bytes, optional_some]
  rfl

theorem outcome_bytes_waiting (position : Nat) :
    (TriggerOutcome.waiting position).bytes =
      [0x01, 0x00, 0x00, 0x00, 0x00, 0x00, 0x01, BitVec.ofNat 8 position] := by
  simp only [TriggerOutcome.bytes, optional_some, beBytes_one]
  rfl

section
variable {src : Source} {pre post : BitVec 16} {s : State} (h : Ready src s) (hp : permitted src = true)
include h hp

theorem captureNow_badPre (hpre : 2048 < pre.toNat) :
    Answers (.captureNow src pre post) src s [0x30, 0x16, 0x00] s.part :=
  badArgument_answers (index := 0) rfl h rfl rfl (refusal_none hp (by cases src <;> rfl) (mode_mem_all _) nofun)
    (by simp [firstBad, Nat.not_le.mpr hpre])

theorem captureNow_badPost (hpre : pre.toNat ≤ 2048) (hpost : post.toNat < 1 ∨ 2047 < post.toNat) :
    Answers (.captureNow src pre post) src s [0x30, 0x16, 0x01] s.part := by
  have out : inRange 1 2047 post.toNat = false := by
    simp only [inRange, Bool.and_eq_false_iff, decide_eq_false_iff_not]
    omega
  exact badArgument_answers (index := 1) rfl h rfl rfl
    (refusal_none hp (by cases src <;> rfl) (mode_mem_all _) nofun) (by simp [firstBad, hpre, out])

/-- The trigger record of Capture Now (R137, R147). -/
def Part.requestTriggerRecord (src : Source) (pre post : BitVec 16) (p : Part) : Trigger :=
  triggerRecord .request pre.toNat post.toNat false none (p.taken src)

omit h in
theorem requestCaptureNow_triggers (hpre : pre.toNat ≤ 2048) (h1 : 1 ≤ post.toNat) (h2 : post.toNat ≤ 2047) :
    requestCaptureNow (sourceChannel src) pre post (s.part.taken src) =
      let taken := takeTrigger (s.part.requestTriggerRecord src pre post) (s.part.taken src)
      respond (sourceChannel src) ([0x30, 0x00] ++ taken.2.bytes) taken.1 := by
  have within : inRange 1 2047 post.toNat = true := by
    simp only [inRange, Bool.and_eq_true, decide_eq_true_eq]
    omega
  exact admitRequest_anywhere hp 0x30 (by simp [firstBad, hpre, within]) _ s.part

/-- Capture Now answers the outcome of its trigger, and leaves what the trigger leaves (R147). -/
theorem captureNow_answers (hpre : pre.toNat ≤ 2048) (h1 : 1 ≤ post.toNat) (h2 : post.toNat ≤ 2047) {q : Part}
    {outcome : TriggerOutcome}
    (hq : takeTrigger (s.part.requestTriggerRecord src pre post) (s.part.taken src) = (q, outcome)) :
    Answers (.captureNow src pre post) src s ([0x30, 0x00] ++ outcome.bytes) q := by
  have triggers := requestCaptureNow_triggers hp hpre h1 h2 (s := s)
  have untriggered := takeTrigger_untriggered (s.part.requestTriggerRecord src pre post) (s.part.taken src)
  rw [hq] at triggers untriggered
  exact changing_answers (q := q) rfl h rfl triggers (congrArg Part.placedFrames untriggered :)
    (congrArg (·.storage.readers) untriggered :) (congrArg Part.restore untriggered :)

end

/-! ## Release Capture (R149) -/

section
variable {src : Source} {number : Word32} {p : Part} (hp : permitted src = true) {e : Nat} {x : CaptureEntry}
  (hn : p.capture.entryOf number.toNat = some e) (hx : p.capture.entry e = some x)
include hp hn hx

/-- Release Capture of a number that an entry holds, by the entry's state and lock. -/
theorem requestRelease_held :
    requestRelease (sourceChannel src) number (p.taken src) =
      if x.state = .opened then respond (sourceChannel src) [0x33, 0x01] (p.taken src)
      else if x.locked then respond (sourceChannel src) [0x33, 0x26] (p.taken src)
      else askCapture (.release e number.toNat (sourceChannel src)) (p.taken src) := by
  refine (admitRequest_anywhere hp 0x33 (heldNumber_some (by rw [taken_capture]; exact hn)) _ p).trans ?_
  simp only [taken_capture, hn, hx, Option.any_some, beq_iff_eq]
  rfl

end

theorem release_unheld {src : Source} {number : Word32} {s : State} (h : Ready src s) (hp : permitted src = true)
    (hn : s.part.capture.entryOf number.toNat = none) :
    Answers (.releaseCapture src number) src s [0x33, 0x16, 0x00] s.part :=
  badArgument_answers (index := 0) rfl h rfl rfl (refusal_none hp (by cases src <;> rfl) (mode_mem_all _) nofun)
    (heldNumber_none (by rw [taken_capture]; exact hn))

/-- Settles O47: Capture Now by its trigger's outcome, Release Capture by the entry that holds the number. -/
theorem captureRequestsAct : Obligations.CaptureRequestsAct := by
  constructor
  · intro src pre post s ready allowed p i
    refine ⟨captureNow_badPre ready allowed, captureNow_badPost ready allowed, fun hpre h1 h2 => ⟨?_, ?_, ?_⟩⟩
    · intro e shut numbers chosen
      have lt := choose_lt chosen
      rw [← taken_capture src] at shut numbers chosen
      obtain ⟨t, step, responds, lasting, -, medium, pending⟩ :=
        captureNow_answers ready allowed hpre h1 h2 (takeTrigger_started shut numbers chosen)
      have capture := eq_of_lasting Part.capture (fun _ => rfl) lasting
      have entry := startIn_entry lt (p.requestTriggerRecord src pre post) (p.taken src)
      have untriggered := startIn_untriggered e (p.requestTriggerRecord src pre post) (p.taken src)
      rw [taken_capture] at entry responds
      rw [outcome_bytes_started] at responds
      have filled := (entry e).trans (if_pos rfl)
      rw [← capture] at filled
      refine ⟨t, _, step, responds, filled, rfl, rfl, ?_, rfl, rfl, rfl, rfl, ?_, fun k other => ?_, ?_, ?_, medium,
        pending⟩
      · exact congrArg Ring.next (taken_ring src p)
      · rw [capture, (startIn_capture lt _ _).2.1, taken_capture]
      · rw [capture, entry, if_neg other]
      · refine (eq_of_lasting (·.register.slots) (fun _ => rfl) lasting).trans
          ((congrArg (·.register.slots) untriggered :).trans ?_)
        exact congrArg Register.slots (taken_register src p)
      · exact ((eq_of_lasting Part.hire (fun _ => rfl) lasting).trans (startIn_hire e _ _)).trans (taken_hire src p)
    · intro opened room
      rw [← taken_capture src] at opened room
      obtain ⟨t, step, responds, lasting, -, medium, pending⟩ :=
        captureNow_answers ready allowed hpre h1 h2 (takeTrigger_waits opened room)
      rw [outcome_bytes_waiting, taken_capture] at responds
      have capture := eq_of_lasting Part.capture (fun _ => rfl) lasting
      rw [taken_capture] at capture
      exact ⟨t, _, step, responds, capture, rfl, rfl, rfl, medium, pending⟩
    · intro opened full
      rw [← taken_capture src] at opened full
      obtain ⟨t, step, responds, lasting, also, medium, pending⟩ :=
        captureNow_answers ready allowed hpre h1 h2 (takeTrigger_missed opened full)
      exact ⟨t, step, responds, lasting.trans (by cases src <;> rfl), also, medium, pending⟩
  · intro src number s ready allowed p i
    refine ⟨release_unheld ready allowed, fun e x holds entry => ?_⟩
    have release := requestRelease_held allowed holds entry
    refine ⟨fun opened => ?_, fun closed locked => ?_, fun closed unlocked => ?_⟩
    · exact read_answers rfl ready rfl (release.trans (if_pos opened))
    · rw [if_neg closed, if_pos locked] at release
      exact read_answers rfl ready rfl release
    · rw [if_neg closed, if_neg (by simp [unlocked])] at release
      exact changing_processes rfl ready rfl release (fun _ => trivial) (Part.setStorage_chan ..)
        (hlast := by cases src <;> rfl)

end Sys2Proof.Machine
end

section
/-! The ends of the capture level's writes (R141, R142, R145, R146, R149, R156). -/

namespace Sys2Proof.Machine

/-! ## What the copier takes (R142) -/

/-- The records of the ring in sequence order from a sequence on, as far as a list goes. -/
def Ring.standsFrom (r : Ring) (q : Word32) (taken : List RingRecord) : Prop :=
  ∀ i, i < taken.length → taken[i]? = r.find (q + BitVec.ofNat 32 i)

/-- The copier with records from its cursor on in its buffer. -/
def Copier.took (k : Copier) (taken : List RingRecord) : Copier :=
  { k with buffer := k.buffer ++ taken, cursor := k.cursor + BitVec.ofNat 32 taken.length }

theorem sequence_succ_add (q : Word32) (n : Nat) : q + 1 + BitVec.ofNat 32 n = q + BitVec.ofNat 32 (n + 1) := by
  rw [BitVec.add_assoc, BitVec.add_comm 1, BitVec.ofNat_add]
  rfl

theorem standsFrom_nil (r : Ring) (q : Word32) : r.standsFrom q [] := fun _ hi => absurd hi (Nat.not_lt_zero _)

theorem standsFrom_cons {r : Ring} {q : Word32} {record : RingRecord} {taken : List RingRecord}
    (h : r.find q = some record) (ht : r.standsFrom (q + 1) taken) : r.standsFrom q (record :: taken) := by
  intro i hi
  cases i with
  | zero => simpa using h.symm
  | succ i =>
    rw [← sequence_succ_add]
    exact ht i (Nat.lt_of_succ_lt_succ hi)

theorem took_nil (k : Copier) : k.took [] = k := by
  simp [Copier.took]

theorem took_cons (k : Copier) (record : RingRecord) (taken : List RingRecord) :
    ({ k with buffer := k.buffer ++ [record], cursor := k.cursor + 1 } : Copier).took taken =
      k.took (record :: taken) := by
  simp only [Copier.took, sequence_succ_add, List.append_assoc, List.cons_append, List.nil_append, List.length_cons]

/-- The copier takes the ring's records in sequence from its cursor on, and nothing else of it changes. -/
theorem copierTake_takes (n : Nat) (r : Ring) (k : Copier) :
    ∃ taken, copierTake n r k = k.took taken ∧ taken.length ≤ n ∧ r.standsFrom k.cursor taken := by
  induction n generalizing k with
  | zero => exact ⟨[], (took_nil k).symm, Nat.le_refl 0, standsFrom_nil r k.cursor⟩
  | succ n ih =>
    unfold copierTake
    split
    · exact ⟨[], (took_nil k).symm, Nat.zero_le _, standsFrom_nil r k.cursor⟩
    · split
      · exact ⟨[], (took_nil k).symm, Nat.zero_le _, standsFrom_nil r k.cursor⟩
      · rename_i record found
        obtain ⟨taken, took, few, stands⟩ := ih { k with buffer := k.buffer ++ [record], cursor := k.cursor + 1 }
        exact ⟨record :: taken, took.trans (took_cons ..), Nat.succ_le_succ few, standsFrom_cons found stands⟩

/-- A run of the copier takes what it may; its requests aside, the copier is as its taking leaves it. -/
theorem copierRun_copier {p : Part} {k : Copier} (h : p.capture.copier = some k) :
    ∃ page final, (copierRun p).capture.copier =
      some { copierTake framesPerPage p.ring k with pageAsked := page, finalAsked := final } := by
  unfold copierRun
  simp only [h]
  split
  · exact ⟨_, _, rfl⟩
  · split
    · exact ⟨_, _, rfl⟩
    · exact ⟨_, _, rfl⟩

/-- What the copier has of its page when it goes on after a page stored. -/
structure Copier.GoesOn (r : Ring) (k k' : Copier) : Prop where
  entry : k'.entry = k.entry
  windowEnd : k'.windowEnd = k.windowEnd
  takenAt : k'.takenAt = k.takenAt
  few : k'.buffer.length ≤ framesPerPage
  cursor : k'.cursor = k.cursor + BitVec.ofNat 32 k'.buffer.length
  stands : r.standsFrom k.cursor k'.buffer

/-- The part with the copier's page counted in the entry and the buffer emptied, before the copier goes on (R142). -/
def Part.pageCounted (e : Nat) (k : Copier) (p : Part) : Part :=
  { p with
    capture := { p.capture.mapEntry e (fun x => { x with stored := x.stored + k.buffer.length }) with
      copier := some { k with buffer := [], pageAsked := false } } }

section
variable {e : Nat} {p : Part} {k : Copier} (h : p.capture.copier = some k)
include h

theorem pageStored_eq : pageStored e p = copierRun (p.pageCounted e k) := by
  simp only [pageStored, h]
  rfl

/-- A page stored: the entry's count rises by the buffer's frames, and the copier goes on (R142). -/
theorem pageStored_capture :
    ∃ k', (pageStored e p).capture = { (p.pageCounted e k).capture with copier := some k' } ∧
      Copier.GoesOn p.ring k k' := by
  obtain ⟨page, final, runs⟩ := copierRun_copier (p := p.pageCounted e k) rfl
  obtain ⟨taken, took, few, stands⟩ :=
    copierTake_takes framesPerPage p.ring { k with buffer := [], pageAsked := false }
  refine ⟨{ k with
    buffer := taken, cursor := k.cursor + BitVec.ofNat 32 taken.length, pageAsked := page, finalAsked := final }, ?_,
    rfl, rfl, rfl, few, rfl, stands⟩
  rw [pageStored_eq h, copierRun_entries, runs]
  exact congrArg (fun k' : Copier => { (p.pageCounted e k).capture with
    copier := some { k' with pageAsked := page, finalAsked := final } }) took

end

/-- A run of the copier touches the Capture Unit and its operations at the arbiter alone. -/
theorem copierRun_touches (p : Part) :
    ∃ c jobs, copierRun p = { p with capture := c, storage := { p.storage with captureJobs := jobs } } := by
  unfold copierRun
  split
  · exact ⟨p.capture, p.storage.captureJobs, rfl⟩
  · dsimp only
    split
    · exact ⟨_, p.storage.captureJobs, rfl⟩
    · exact ⟨_, _, rfl⟩

theorem pageStored_touches (e : Nat) (p : Part) :
    ∃ c jobs, pageStored e p = { p with capture := c, storage := { p.storage with captureJobs := jobs } } := by
  unfold pageStored
  split
  · exact ⟨p.capture, p.storage.captureJobs, rfl⟩
  · obtain ⟨c, jobs, run⟩ := copierRun_touches _
    exact ⟨c, jobs, run⟩

/-! ## The capture-level operation at the head (R156) -/

/-- The part with the capture-level operation at the head gone. -/
def Part.captureOver (p : Part) (rest : List CaptureJob) : Part :=
  p.setStorage { p.storage with captureJobs := rest }

section
variable {p : Part} {rest : List CaptureJob} {e : Nat}

theorem captureVerified_openHeader (h : p.storage.captureJobs = .openHeader e :: rest) :
    captureVerified p = p.captureOver rest := by
  simp only [captureVerified, h]
  rfl

theorem captureVerified_framePage (h : p.storage.captureJobs = .framePage e :: rest) :
    captureVerified p = pageStored e (p.captureOver rest) := by
  simp only [captureVerified, h]
  rfl

theorem captureVerified_finalHeader (h : p.storage.captureJobs = .finalHeader e :: rest) {x : CaptureEntry}
    (hx : p.capture.entry e = some x) : captureVerified p = closeCapture e x.finalState (p.captureOver rest) := by
  simp only [captureVerified, h, Part.setStorage_capture, hx, Option.map_some, Option.getD_some]
  rfl

theorem captureVerified_release {number : Nat} {ch : Channel}
    (h : p.storage.captureJobs = .release e number ch :: rest) :
    captureVerified p = released e number ch (p.captureOver rest) := by
  simp only [captureVerified, h]
  rfl

theorem captureFailed_release {number : Nat} {ch : Channel}
    (h : p.storage.captureJobs = .release e number ch :: rest) :
    captureFailed p = respond ch [0x33, 0x28] (p.captureOver rest) := by
  simp only [captureFailed, h]
  rfl

/-- A page of the OPEN capture that fails fails the capture, whichever page it was (R146). -/
theorem captureFailed_copier {job : CaptureJob} (h : p.storage.captureJobs = job :: rest)
    (hj : job = .openHeader e ∨ job = .framePage e ∨ job = .finalHeader e) :
    captureFailed p = failCapture e (p.captureOver rest) := by
  rcases hj with rfl | rfl | rfl <;> simp only [captureFailed, h] <;> rfl

end

/-! ## The close of a capture (R145, R146) -/

/-- The Capture Unit with its capture closed, before the next trigger starts. -/
def Capture.closed (c : Capture) (e : Nat) (state : CaptureState) : Capture :=
  { c.mapEntry e (fun x => { x with state := state }) with copier := none, postTimeout := none }

/-- The part with its capture closed, before the next trigger starts. -/
def Part.closed (p : Part) (e : Nat) (state : CaptureState) : Part :=
  { p with capture := p.capture.closed e state, link := { p.link with captureReady := true } }

section
variable {p : Part} {e : Nat} {state : CaptureState}

theorem closeCapture_idle (h : p.capture.queue = []) : closeCapture e state p = p.closed e state := by
  have unqueued : (p.capture.closed e state).queue = [] := h
  have kept : { p.capture.closed e state with queue := [] } = p.capture.closed e state := by
    rw [← unqueued]
  calc closeCapture e state p = startPending [] (p.closed e state) := by rw [closeCapture, h]; rfl
    _ = { p.closed e state with capture := { p.capture.closed e state with queue := [] } } := rfl
    _ = p.closed e state := by rw [kept]; rfl

/-- The trigger at the head that can start leaves the queue and starts (R145). -/
theorem closeCapture_starts {t : Trigger} {more : List Trigger} {e' : Nat} (h : p.capture.queue = t :: more)
    (hn : p.capture.nextNumber ≠ exhausted) (hc : (p.capture.closed e state).choose = some e') :
    closeCapture e state p =
      { startIn e' t (p.closed e state) with
        capture := { (startIn e' t (p.closed e state)).capture with queue := more } } := by
  have starts : startCapture t (p.closed e state) = (startIn e' t (p.closed e state), .started p.capture.nextNumber) :=
    startCapture_starts hn hc
  calc closeCapture e state p = startPending (t :: more) (p.closed e state) := by rw [closeCapture, h]; rfl
    _ = _ := by simp only [startPending, starts]

end

/-- Release Capture's header is written: the entry is FREE, or the number gone (R149). -/
theorem released_freed {e number : Nat} {x : CaptureEntry} {p : Part} (hx : p.capture.entry e = some x)
    (hn : x.number = number) (ch : Channel) :
    released e number ch p = respond ch [0x33, 0x00]
      { p with capture := { p.capture with entries := p.capture.entries.setIfInBounds e none } } := by
  simp only [released, hx, Option.any_some, hn, beq_self_eq_true, if_true]

theorem released_gone {e number : Nat} {p : Part} (h : ∀ x, p.capture.entry e = some x → x.number ≠ number)
    (ch : Channel) : released e number ch p = respond ch [0x33, 0x16, 0x00] p := by
  have gone : (p.capture.entry e).any (·.number == number) = false := by
    simpa [Option.any_eq_false] using h
  simp only [released, gone, Bool.false_eq_true, if_false]

/-! ## The whole -/

section
variable {s : State} {t : Transaction} (hw : Writing s t .capture)
  {p : Part} {also : Part → Prop}
include hw

/-- A verified page at the capture level. -/
theorem stores_captured {q : Part} (hq : captureVerified s.part.verified = q) (hlast : q.lasting = p.lasting)
    (h : ∀ m, also (settle m q)) : Stores (.pageWriteComplete true) s (s.medium.written t) p also := by
  obtain ⟨-, bus, write, page, owner⟩ := hw
  have ends : writeVerified t.owner s.part.verified = q := by
    rw [owner, ← hq]
    rfl
  exact stores_verified bus write page (by rw [ends]; exact hlast) (by rw [ends]; exact h _)

/-- A page at the capture level that fails twice. -/
theorem stores_capture_failed (h2 : 2 ≤ t.attempt) {q : Part} (hq : captureFailed s.part.failed = q)
    (hlast : q.lasting = p.lasting) (h : ∀ m, also (settle m q)) : StoresFailed s t p also := by
  obtain ⟨-, bus, write, page, owner⟩ := hw
  have ends : writeFailed t.owner s.part.failed = q := by
    rw [owner, ← hq]
    rfl
  exact stores_failed bus write h2 page (by rw [ends]; exact hlast) (by rw [ends]; exact h _)

end

section
variable {s : State} {t : Transaction} {rest : List CaptureJob} {e : Nat} (hw : Writing s t .capture)
include hw

/-- A frame page is verified: the Capture Unit as `pageStored` leaves it, and what lasts beside it untouched (R142). -/
theorem framePage_ends (hj : s.part.storage.captureJobs = .framePage e :: rest) {k : Copier}
    (hk : s.part.capture.copier = some k) :
    ∃ u k', exec (.pageWriteComplete true) s = .next u ∧ u.medium = s.medium.written t ∧ u.pending = s.pending ∧
      u.part.capture = { (s.part.pageCounted e k).capture with copier := some k' } ∧
      Copier.GoesOn s.part.ring k k' ∧ u.part.register.slots = s.part.register.slots ∧ u.part.hire = s.part.hire ∧
      u.part.storage.writes = s.part.pageWritten.storage.writes := by
  obtain ⟨k', capture, goes⟩ := pageStored_capture (e := e) (p := s.part.verified.captureOver rest) hk
  obtain ⟨c, jobs, touches⟩ := pageStored_touches e (s.part.verified.captureOver rest)
  obtain ⟨u, step, lasting, -, medium, pending⟩ := stores_captured hw
    (captureVerified_framePage (p := s.part.verified) hj) rfl (also := fun _ => True) fun _ => trivial
  have after := (eq_of_lasting Part.capture (fun _ => rfl) lasting).trans capture
  rw [touches] at lasting
  exact ⟨u, k', step, medium, pending, after, goes, (eq_of_lasting (·.register.slots) (fun _ => rfl) lasting :),
    (eq_of_lasting Part.hire (fun _ => rfl) lasting :), (eq_of_lasting (·.storage.writes) (fun _ => rfl) lasting :)⟩

/-- The final header is verified with a trigger waiting that can start: its capture starts after the close (R145). -/
theorem finalHeader_starts (hj : s.part.storage.captureJobs = .finalHeader e :: rest) {x : CaptureEntry}
    (hx : s.part.capture.entry e = some x) {trigger : Trigger} {more : List Trigger} {e' : Nat}
    (hq : s.part.capture.queue = trigger :: more) (hn : s.part.capture.nextNumber ≠ exhausted)
    (hc : (s.part.capture.closed e x.finalState).choose = some e') :
    ∃ u, exec (.pageWriteComplete true) s = .next u ∧ u.medium = s.medium.written t ∧
      u.part.link.captureReady = true ∧
      u.part.capture =
        { (startIn e' trigger ((s.part.verified.captureOver rest).closed e x.finalState)).capture with
          queue := more } := by
  have verified := captureVerified_finalHeader (p := s.part.verified) hj hx
  rw [closeCapture_starts (p := s.part.verified.captureOver rest) hq hn hc] at verified
  obtain ⟨u, step, lasting, -, medium, -⟩ :=
    stores_captured hw verified rfl (also := fun _ => True) fun _ => trivial
  have untriggered := startIn_untriggered e' trigger ((s.part.verified.captureOver rest).closed e x.finalState)
  have latch := congrArg (·.link.captureReady) untriggered
  exact ⟨u, step, medium, (eq_of_lasting (·.link.captureReady) (fun _ => rfl) lasting).trans latch,
    eq_of_lasting Part.capture (fun _ => rfl) lasting⟩

end

/-- Settles O54: `captureVerified` and `captureFailed` for each operation. -/
theorem captureWritesEnd : Obligations.CaptureWritesEnd := by
  intro s t job rest writing head ended p q closed ready
  refine ⟨?_, ?_, ?_, ?_, ?_⟩
  · rintro e rfl
    exact stores_captured writing (captureVerified_openHeader (p := s.part.verified) head) rfl fun _ => trivial
  · rintro e x k rfl entry copier
    obtain ⟨u, k', step, medium, pending, capture, goes, slots, hire, writes⟩ := framePage_ends writing head copier
    have entries : ∀ j, u.part.capture.entry j = _ := fun j =>
      (congrArg (fun c : Capture => c.entry j) capture).trans (mapEntry_entry s.part.capture e _ j)
    refine ⟨u, k', step, medium, pending, ?_, fun j other => (entries j).trans (if_neg other), ?_, goes.entry,
      goes.windowEnd, goes.takenAt, goes.few, goes.cursor, goes.stands, ?_, slots, hire, writes⟩
    · rw [entries, if_pos rfl, entry, Option.map_some]
    · rw [capture]
    · rw [capture]
      rfl
  · rintro e x rfl entry state
    refine ⟨fun empty => ?_, fun trigger more e' queued numbers chosen => ?_⟩
    · have verified := captureVerified_finalHeader (p := s.part.verified) head entry
      rw [closeCapture_idle (p := s.part.verified.captureOver rest) empty] at verified
      exact stores_captured writing verified rfl fun _ => trivial
    · obtain ⟨u, step, medium, ready, capture⟩ := finalHeader_starts writing head entry queued numbers chosen
      have started := startIn_capture (choose_lt chosen) trigger ((s.part.verified.captureOver rest).closed e state)
      have entries : ∀ j, u.part.capture.entry j = _ := fun j =>
        (congrArg (fun c : Capture => c.entry j) capture).trans (startIn_entry (choose_lt chosen) trigger _ j)
      refine ⟨u, _, step, medium, ready, by rw [capture], (entries e').trans (if_pos rfl), rfl, rfl, rfl, rfl, rfl, ?_,
        fun j other => (entries j).trans (if_neg other)⟩
      rw [capture]
      exact started.2.1
  · intro e x isJob entry h2 empty
    have failed := captureFailed_copier (p := s.part.failed) head isJob
    rw [failCapture, closeCapture_idle (by exact empty)] at failed
    refine stores_capture_failed writing h2 failed ?_ fun _ => trivial
    have kept : (fun j : CaptureJob => !j.ofCopier) = fun j => match j with
        | .release _ _ _ => true
        | _ => false := by
      funext j
      cases j <;> rfl
    rw [kept]
    rfl
  · rintro e number ch rfl clear
    have released := captureVerified_release (p := s.part.verified) head
    refine ⟨fun x entry same => ?_, fun gone => ?_, fun h2 => ?_⟩
    · rw [released_freed (p := s.part.verified.captureOver rest) entry same] at released
      exact stores_captured writing released (lasting_respond _ _ _) fun m => settle_respond m clear rfl rfl
    · rw [released_gone (p := s.part.verified.captureOver rest) gone] at released
      exact stores_captured writing released (lasting_respond _ _ _) fun m => settle_respond m clear rfl rfl
    · exact stores_capture_failed writing h2 (captureFailed_release (p := s.part.failed) head)
        (lasting_respond _ _ _) fun m => settle_respond m clear rfl rfl

end Sys2Proof.Machine
end

section
/-! Every step keeps the medium in its canonical form (R152, R153): what a command can do to the medium. -/

namespace Sys2Proof.Machine

/-- What a command can do to the medium: nothing, a verified write of one of its pages, or a write of one that failed or was
abandoned (R153, R161). -/
inductive Medium.Touched (m : Medium) : Medium → Prop where
  | kept : Touched m m
  | written (page : Nat) (bytes : List Byte) (h : page < pageCount) : Touched m (m.writePage page bytes)
  | spoiled (page : Nat) : Touched m (m.spoilPage page)

theorem Medium.Touched.wf {m m' : Medium} (touched : m.Touched m') (h : m.wf) : m'.wf := by
  cases touched with
  | kept => exact h
  | written page bytes hp => exact writePage_wf h hp bytes
  | spoiled page => exact spoilPage_wf h page

theorem abandonWrite_touched (bus : Option Transaction) (m : Medium) : m.Touched (abandonWrite bus m) := by
  unfold abandonWrite
  split
  · split
    · exact .spoiled _
    · exact .kept
  · exact .kept

theorem after_touched (s : State) (p : Part) : s.medium.Touched (s.after p).medium := by
  unfold State.after
  dsimp only
  split
  · exact abandonWrite_touched _ _
  · exact .kept

theorem runAwake_touched {f : Part → Part} {s t : State} (h : runAwake f s = .next t) : s.medium.Touched t.medium := by
  cases h
  exact after_touched s _

theorem failAttempt_touched (x : Transaction) (s : State) : s.medium.Touched (failAttempt x s).medium := by
  unfold failAttempt
  dsimp only
  split
  · exact .kept
  · exact .spoiled _

theorem failRead_medium (x : Transaction) (s : State) : (failRead x s).medium = s.medium := by
  unfold failRead
  dsimp only
  split <;> rfl

theorem execPageWriteComplete_touched {equal : Bool} {s t : State} (h : execPageWriteComplete equal s = .next t) :
    s.medium.Touched t.medium := by
  unfold execPageWriteComplete at h
  split at h
  · cases h; exact .kept
  · split at h
    · cases h; exact .kept
    · split_ifs at h <;> cases h
      · exact .written _ _ (by omega)
      · exact failAttempt_touched _ s

theorem execPageReadComplete_medium {s t : State} (h : execPageReadComplete s = .next t) : t.medium = s.medium := by
  unfold execPageReadComplete at h
  split at h
  · cases h; rfl
  · split_ifs at h <;> cases h <;> rfl

theorem execStorageAnswerTimeout_touched {s t : State} (h : execStorageAnswerTimeout s = .next t) :
    s.medium.Touched t.medium := by
  unfold execStorageAnswerTimeout at h
  split at h
  · cases h; exact .kept
  · split at h <;> cases h
    · exact failAttempt_touched _ s
    · rw [failRead_medium]; exact .kept

theorem execPfwAsserted_touched {s t : State} (h : execPfwAsserted s = .next t) : s.medium.Touched t.medium := by
  unfold execPfwAsserted at h
  dsimp only at h
  split_ifs at h <;> cases h
  · exact .kept
  · exact .kept
  · exact abandonWrite_touched _ _

/-- Every command writes at most one page, and none beyond the medium's last (R152, R153). -/
theorem exec_touched {i : Instr} {s t : State} (h : exec i s = .next t) : s.medium.Touched t.medium := by
  have request : ∀ {src msg}, requestOf i = some (src, msg) → s.medium.Touched t.medium := by
    intro src msg hr
    rw [exec_eq_dispatch hr] at h
    cases h
    exact after_touched s _
  cases i
  case dataFrameReceived =>
    simp only [exec, execDataFrameReceived] at h
    split_ifs at h
    cases h
    exact after_touched s _
  case damagedFrameReceived =>
    simp only [exec, execDamagedFrameReceived] at h
    split_ifs at h <;> cases h <;> exact .kept
  case remoteRequestFrame =>
    simp only [exec, execRemoteRequestFrame] at h
    split_ifs at h <;> cases h <;> exact .kept
  case transmissionFailed =>
    simp only [exec, execTransmissionFailed] at h
    split_ifs at h <;> cases h <;> exact .kept
  case ignLineChange => cases h; exact .kept
  case ignDebounceExpiry => cases h; exact after_touched s _
  case deviceClockTick =>
    simp only [exec, execDeviceClockTick] at h
    split_ifs at h <;> cases h <;> exact .kept
  case captDriveTimerExpiry => cases h; exact .kept
  case pageWriteComplete => exact execPageWriteComplete_touched h
  case pageReadComplete =>
    rw [execPageReadComplete_medium h]
    exact .kept
  case storageAnswerTimeout => exact execStorageAnswerTimeout_touched h
  case pfwAsserted => exact execPfwAsserted_touched h
  case pfwWithdrawn => cases h; exact after_touched s _
  case supplyLoss =>
    simp only [exec, execSupplyLoss] at h
    split_ifs at h <;> cases h
    · exact abandonWrite_touched _ _
    · exact .kept
  case supplyOn =>
    simp only [exec, execSupplyOn] at h
    split_ifs at h <;> cases h <;> exact .kept
  case transmissionSucceeded | busOffRecoveryExpiry | freshnessDeadlineExpiry | windowAExpiry | windowBExpiry |
      intervalExpiry | evaluationExpiry | quietPeriodExpiry | captLineFall | postTimeoutExpiry | ageDeadlineExpiry |
      replyTimeout | gapTimerExpiry | responseTimeout | statusTimerExpiry | scanTimerExpiry =>
    exact runAwake_touched h
  all_goals exact request rfl

/-- A step is a command or leaves the medium alone (log 2). -/
theorem step_touched {s t : State} (h : step s = .next t) : s.medium.Touched t.medium := by
  unfold step at h
  split at h
  · rename_i rest _
    exact exec_touched (s := { s with pending := rest }) h
  · split at h
    · exact exec_touched h
    · cases h
      unfold State.tick
      split <;> exact .kept

/-- Settles O4: a step writes at most one page of the medium, and each such write keeps the canonical form. -/
theorem stepKeepsMediumCanonical : Obligations.StepKeepsMediumCanonical :=
  fun _ _ hs h => (step_touched h).wf hs

end Sys2Proof.Machine
end

section
/-! A checkpoint written page by page is found by the restore's scan, and its payload reads back (R152, R159, R163, R194;
byte layout: log 8). -/

namespace Sys2Proof.Machine

/-! ## A record whose last four bytes are its check word (R194) -/

/-- Bytes whose last four give way to others. -/
def closedBy (close content : List Byte) : List Byte := content.take (content.length - 4) ++ close

theorem closedBy_append (close xs : List Byte) {ys : List Byte} (h : 4 ≤ ys.length) :
    closedBy close (xs ++ ys) = xs ++ closedBy close ys := by
  rw [closedBy, closedBy, List.length_append, List.take_append, List.take_of_length_le (by omega), List.append_assoc,
    show xs.length + ys.length - 4 - xs.length = ys.length - 4 by omega]

theorem closedBy_length {close content : List Byte} (hc : close.length = 4) (h : 4 ≤ content.length) :
    (closedBy close content).length = content.length := by
  rw [closedBy, List.length_append, List.length_take, hc]
  omega

theorem closedBy_take (close : List Byte) {content : List Byte} {k : Nat} (h : k ≤ content.length - 4) :
    (closedBy close content).take k = content.take k := by
  rw [closedBy, List.take_append_of_le_length (by rw [List.length_take]; omega), List.take_take, Nat.min_eq_left h]

/-- A record filled by its content to the last byte. -/
theorem sealRecord_eq_closedBy {size : Nat} {content : List Byte} (h : content.length = size) :
    ∃ close : List Byte, close.length = 4 ∧ sealRecord size content = closedBy close content := by
  refine ⟨beBytes 4 (crc32 (padTo (size - 4) content ++ [0, 0, 0, 0])), beBytes_length _ _, ?_⟩
  rw [sealRecord, closedBy, ← h, padTo, Nat.sub_eq_zero_of_le (Nat.sub_le _ _), List.replicate_zero, List.append_nil]

/-- Bytes cut to a width and filled, then more bytes whose beginning is the rest of them: they stand there whole. -/
theorem take_padTo_append {k : Nat} {bs rest : List Byte} (h : rest.take (bs.drop k).length = bs.drop k) :
    (padTo k (bs.take k) ++ rest).take bs.length = bs := by
  rcases Nat.le_total bs.length k with short | long
  · rw [List.take_of_length_le short, List.take_append_of_le_length (by rw [padTo_length]; exact short)]
    exact padTo_take k short
  · have cut : (bs.take k).length = k := List.length_take_of_le long
    rw [padTo_self cut, List.take_append, cut, List.take_take, Nat.min_eq_right long, ← List.length_drop, h,
      List.take_append_drop]

/-! ## Body pages (R152) -/

/-- A body page: its tag, the sequence and its 251 bytes. -/
def bodyPage (sequence : Nat) (bs : List Byte) : List Byte := [tagBody] ++ beBytes 4 sequence ++ padTo 251 (bs.take 251)

theorem bodyPage_length (sequence : Nat) (bs : List Byte) : (bodyPage sequence bs).length = 256 := by
  simp [bodyPage, beBytes_length, padTo_length]

theorem bodyPages_succ (sequence n : Nat) (bs : List Byte) :
    bodyPages sequence (n + 1) bs = bodyPage sequence bs ++ bodyPages sequence n (bs.drop 251) := rfl

theorem bodyPages_length (sequence n : Nat) (bs : List Byte) : (bodyPages sequence n bs).length = 256 * n := by
  induction n generalizing bs with
  | zero => rfl
  | succ n ih => rw [bodyPages_succ, List.length_append, bodyPage_length, ih]; ring

/-- The body pages of a checkpoint, its check word in the last four bytes: the one page, or the first and the others. -/
theorem closedBy_bodyPages (close : List Byte) (sequence n : Nat) (bs : List Byte) :
    closedBy close (bodyPages sequence 1 bs) =
        [tagBody] ++ beBytes 4 sequence ++ closedBy close (padTo 251 (bs.take 251)) ∧
      closedBy close (bodyPages sequence (n + 2) bs) =
        [tagBody] ++ beBytes 4 sequence ++ padTo 251 (bs.take 251) ++
          closedBy close (bodyPages sequence (n + 1) (bs.drop 251)) := by
  have only : bodyPages sequence 1 bs = [tagBody] ++ beBytes 4 sequence ++ padTo 251 (bs.take 251) :=
    List.append_nil (bodyPage sequence bs)
  constructor
  · rw [only, closedBy_append close _ (by rw [padTo_length]; decide)]
  · rw [bodyPages_succ, closedBy_append close _ (by rw [bodyPages_length]; omega)]
    rfl

/-- A page that begins with the body tag and a sequence. -/
theorem bodyTagsOk_succ {sequence : Nat} (hs : sequence ≤ max32) (n : Nat) (rest : List Byte) :
    bodyTagsOk sequence (n + 1) ([tagBody] ++ beBytes 4 sequence ++ rest) =
      bodyTagsOk sequence n (rest.drop 251) := by
  have tag : byteAt ([tagBody] ++ beBytes 4 sequence ++ rest) 0 = tagBody := rfl
  have number : natAt ([tagBody] ++ beBytes 4 sequence ++ rest) 1 4 = sequence := by
    rw [List.append_assoc, List.singleton_append, natAt_cons _ _ 0, natAt_zero]
    exact Nat.mod_eq_of_lt (by simp only [max32] at hs; omega)
  have behind : ([tagBody] ++ beBytes 4 sequence ++ rest).drop pageSize = rest.drop 251 := by
    rw [List.drop_append, List.length_append, beBytes_length, List.drop_eq_nil_of_le (by simp [beBytes_length, pageSize])]
    rfl
  rw [bodyTagsOk, tag, number, behind]
  simp

/-- The payload of a page behind its tag and sequence. -/
theorem bodyPayload_succ (sequence n : Nat) (rest : List Byte) :
    bodyPayload (n + 1) ([tagBody] ++ beBytes 4 sequence ++ rest) =
      rest.take 251 ++ bodyPayload n (rest.drop 251) := by
  have front : ([tagBody] ++ beBytes 4 sequence).length = 5 := by simp [beBytes_length]
  have field : bytesAt ([tagBody] ++ beBytes 4 sequence ++ rest) 5 251 = rest.take 251 := by
    rw [bytesAt, List.drop_left' front]
  have behind : ([tagBody] ++ beBytes 4 sequence ++ rest).drop pageSize = rest.drop 251 := by
    rw [List.drop_append, front, List.drop_eq_nil_of_le (by rw [front]; decide)]
    rfl
  rw [bodyPayload, field, behind]

section
variable {sequence : Nat} {close : List Byte}

/-- Every body page written carries its tag and sequence. -/
theorem bodyTagsOk_written (hs : sequence ≤ max32) (n : Nat) (bs : List Byte) :
    bodyTagsOk sequence (n + 1) (closedBy close (bodyPages sequence (n + 1) bs)) = true := by
  induction n generalizing bs with
  | zero =>
    rw [(closedBy_bodyPages close sequence 0 bs).1, bodyTagsOk_succ hs]
    rfl
  | succ n ih =>
    rw [(closedBy_bodyPages close sequence n bs).2, List.append_assoc _ (padTo _ _), bodyTagsOk_succ hs,
      List.drop_left' (padTo_length 251 _)]
    exact ih _

/-- The payload of the body pages reads back, but for the check word's place. -/
theorem bodyPayload_written (hc : close.length = 4) (n : Nat) {bs : List Byte} (h : bs.length ≤ 251 * (n + 1) - 4) :
    (bodyPayload (n + 1) (closedBy close (bodyPages sequence (n + 1) bs))).take bs.length = bs := by
  induction n generalizing bs with
  | zero =>
    have room : bs.length ≤ 251 - 4 := h
    have width := padTo_length 251 (bs.take 251)
    have page : (closedBy close (padTo 251 (bs.take 251))).length = 251 := by
      rw [closedBy_length hc (by omega), width]
    have front := take_padTo_append (k := 251) (bs := bs) (rest := [])
      (by rw [List.drop_eq_nil_of_le (by omega)]; rfl)
    rw [List.append_nil] at front
    rw [(closedBy_bodyPages close sequence 0 bs).1, bodyPayload_succ, List.take_of_length_le page.le,
      List.take_append_of_le_length (by omega), closedBy_take close (by omega), front]
  | succ n ih =>
    rw [(closedBy_bodyPages close sequence n bs).2, List.append_assoc _ (padTo _ _), bodyPayload_succ,
      List.drop_left' (padTo_length 251 _), List.take_left' (padTo_length 251 _)]
    exact take_padTo_append (ih (by rw [List.length_drop]; omega))

end

/-! ## The header page (R152) -/

/-- The kind and page count of a full or a short checkpoint (R157, R160). -/
abbrev CheckpointShape (kind count : Nat) : Prop :=
  (kind = kindFull ∧ count = fullPages) ∨ (kind = kindShort ∧ count = shortPages)

/-- The first eight bytes of a checkpoint. -/
def headerBytes (kind sequence count cause : Nat) : List Byte :=
  [tagHeader] ++ beBytes 4 sequence ++ beBytes 1 kind ++ beBytes 1 count ++ beBytes 1 cause

theorem headerBytes_length (kind sequence count cause : Nat) : (headerBytes kind sequence count cause).length = 8 := by
  simp [headerBytes, beBytes_length]

/-- A header page gives back its fields. -/
theorem headerOf_headerBytes {kind sequence count cause : Nat} (shape : CheckpointShape kind count)
    (hs : sequence ≤ max32) (hc : cause ≤ 255) (rest : List Byte) :
    headerOf (headerBytes kind sequence count cause ++ rest) = some (sequence, kind, count, cause) := by
  have fields : ∀ k n : Nat, k < 256 → n < 256 → natAt (headerBytes k sequence n cause ++ rest) 1 4 = sequence ∧
      natAt (headerBytes k sequence n cause ++ rest) 5 1 = k ∧ natAt (headerBytes k sequence n cause ++ rest) 6 1 = n ∧
      natAt (headerBytes k sequence n cause ++ rest) 7 1 = cause := by
    intro k n hk hn
    simp only [max32] at hs
    simp only [headerBytes, List.append_assoc, List.cons_append, List.nil_append, natAt_cons, natAt_beBytes_append,
      natAt_zero, Nat.reduceLeDiff, Nat.reduceSub, Nat.reducePow]
    omega
  have tag : byteAt (headerBytes kind sequence count cause ++ rest) 0 = tagHeader := rfl
  obtain ⟨number, kind', count', cause'⟩ := fields kind count
    (by rcases shape with ⟨rfl, -⟩ | ⟨rfl, -⟩ <;> decide) (by rcases shape with ⟨-, rfl⟩ | ⟨-, rfl⟩ <;> decide)
  simp only [headerOf, tag, number, kind', count', cause', true_and]
  exact if_pos shape

/-! ## The checkpoint as written -/

/-- The header page of a checkpoint. -/
def headerPage (kind sequence count cause : Nat) (payload : List Byte) : List Byte :=
  headerBytes kind sequence count cause ++ padTo 248 (payload.take 248)

theorem headerPage_length (kind sequence count cause : Nat) (payload : List Byte) :
    (headerPage kind sequence count cause payload).length = pageSize := by
  rw [headerPage, List.length_append, headerBytes_length, padTo_length]

/-- The bytes of a checkpoint: the header page, then the body pages closed by the check word. -/
theorem checkpointBytes_eq (kind sequence n cause : Nat) (payload : List Byte) :
    ∃ close : List Byte, close.length = 4 ∧
      checkpointBytes kind sequence (n + 2) cause payload =
        headerPage kind sequence (n + 2) cause payload ++ closedBy close (bodyPages sequence (n + 1) (payload.drop 248)) := by
  have body := bodyPages_length sequence (n + 1) (payload.drop 248)
  have size : (headerPage kind sequence (n + 2) cause payload ++
      bodyPages sequence (n + 1) (payload.drop 248)).length = pageSize * (n + 2) := by
    rw [List.length_append, headerPage_length, body]
    ring
  obtain ⟨close, length, closed⟩ := sealRecord_eq_closedBy size
  exact ⟨close, length, closed.trans (closedBy_append close _ (by omega))⟩

section
variable {kind sequence n cause : Nat} {payload : List Byte}

/-- The first page of a checkpoint is its header page. -/
theorem pageOf_checkpointBytes :
    pageOf 0 (checkpointBytes kind sequence (n + 2) cause payload) = headerPage kind sequence (n + 2) cause payload := by
  obtain ⟨close, -, bytes⟩ := checkpointBytes_eq kind sequence n cause payload
  have size := headerPage_length kind sequence (n + 2) cause payload
  rw [bytes, pageOf, bytesAt, Nat.mul_zero, List.drop_zero, List.take_left' size, padTo_self size]

/-- The pages of a checkpoint agree with their tags and the check word. -/
theorem checkpointBytes_valid (hs : sequence ≤ max32) :
    checkpointValid sequence (n + 2) (checkpointBytes kind sequence (n + 2) cause payload) = true := by
  have sealed : recordValid (pageSize * (n + 2)) (checkpointBytes kind sequence (n + 2) cause payload) = true :=
    recordValid_sealRecord (by simp only [pageSize]; omega) _
  obtain ⟨close, -, bytes⟩ := checkpointBytes_eq kind sequence n cause payload
  rw [checkpointValid, sealed, bytes, List.drop_left' (headerPage_length ..)]
  exact bodyTagsOk_written hs n _

/-- The payload of a checkpoint reads back. -/
theorem checkpointPayload_written (h : payload.length ≤ 248 + 251 * (n + 1) - 4) :
    (checkpointPayload (n + 2) (checkpointBytes kind sequence (n + 2) cause payload)).take payload.length = payload := by
  obtain ⟨close, length, bytes⟩ := checkpointBytes_eq kind sequence n cause payload
  have front : bytesAt (checkpointBytes kind sequence (n + 2) cause payload) 8 248 = padTo 248 (payload.take 248) := by
    rw [bytes]
    exact bytesAt_behind (headerBytes_length ..) (padTo_length ..)
  rw [checkpointPayload, front, bytes, List.drop_left' (headerPage_length ..)]
  exact take_padTo_append (bodyPayload_written length n (by rw [List.length_drop]; omega))

end

/-- No page of a row is invalid, so none of its first pages is. -/
theorem anySpoiled_mono {m : Medium} {page count k : Nat} (hk : k ≤ count) (h : m.anySpoiled page count = false) :
    m.anySpoiled page k = false := by
  simp only [Medium.anySpoiled, List.any_eq_false, Bool.and_eq_true, decide_eq_true_eq] at h ⊢
  exact fun q hq ⟨low, high⟩ => h q hq ⟨low, by omega⟩

/-- Settles O11: the header page gives the fields written, and the pages pass their tags and the check word. -/
theorem writtenCheckpointIsFound : Obligations.WrittenCheckpointIsFound := by
  intro m kind count position sequence cause payload hm shape hp hs hc hl m'
  obtain ⟨n, rfl⟩ : ∃ n, count = n + 2 := by
    rcases shape with ⟨-, rfl⟩ | ⟨-, rfl⟩
    · exact ⟨18, rfl⟩
    · exact ⟨2, rfl⟩
  have within : ringPage position + (n + 2) ≤ pageCount := by simp only [ringPage, pageCount, ringPages] at *; omega
  have pages : m'.pages (ringPage position) (n + 2) = checkpointBytes kind sequence (n + 2) cause payload :=
    pages_writePages hm within (sealRecord_length (by simp only [pageSize]; omega) _)
  have clean : m'.anySpoiled (ringPage position) (n + 2) = false := writePages_spoiled m _ _ _
  have header : headerOf (m'.page (ringPage position)) = some (sequence, kind, n + 2, cause) := by
    have first := writePages_page hm within (checkpointBytes kind sequence (n + 2) cause payload) (ringPage position)
    rw [if_pos (by omega), Nat.sub_self, pageOf_checkpointBytes] at first
    exact (congrArg headerOf first).trans (headerOf_headerBytes shape hs hc _)
  refine ⟨?_, ?_⟩
  · rw [Medium.checkpointAt, if_neg (by rw [anySpoiled_mono (by omega) clean]; decide), header]
    dsimp only
    rw [if_pos ⟨hp, clean, by rw [pages]; exact checkpointBytes_valid hs⟩]
  · rw [pages]
    exact checkpointPayload_written hl

end Sys2Proof.Machine
end

section
/-! Failed attempts of a transaction (R153, R154, R158): the retry within it, and the second failure of a full checkpoint's
page. -/

namespace Sys2Proof.Machine

/-! ## A page whose write failed (R153) -/

/-- A page whose write failed is invalid (log 7). -/
theorem spoilPage_anySpoiled (m : Medium) {page : Nat} (h : page < pageCount) :
    (m.spoilPage page).anySpoiled page 1 = true := by
  simp [Medium.spoilPage, Nat.not_le.mpr h, Medium.anySpoiled]

/-- A page whose write failed leaves every byte of the others as it was. -/
theorem spoilPage_byte_other {m : Medium} (hm : m.wf) (page : Nat) {a : Nat}
    (h : a < pageSize * page ∨ pageSize * page + pageSize ≤ a) : (m.spoilPage page).byte a = m.byte a := by
  unfold Medium.spoilPage
  split
  · rfl
  · have length : ((List.range pageSize).map fun i => Config.freeByte (m.fresh + i)).length = pageSize := by
      rw [List.length_map, List.length_range]
    generalize ((List.range pageSize).map fun i => Config.freeByte (m.fresh + i)) = bytes at length ⊢
    exact (cellsRead_writeAll hm.1 _ a).trans (if_neg (by omega))

/-! ## The first failure (R153, log 15) -/

/-- The state after a failed first attempt: the same transaction at its next attempt. -/
def State.retried (s : State) (t : Transaction) : State :=
  { s with part := s.part.setStorage (retry t s.part.storage) }

section
variable {s : State} {t : Transaction} (hb : s.part.storage.bus = some t) (h1 : t.attempt < 2)
include hb h1

/-- Silence at the first attempt, of a write or of a read. -/
theorem exec_silent_retries : exec .storageAnswerTimeout s = .next (s.retried t) := by
  have write : failAttempt t s = s.retried t := if_pos h1
  have read : failRead t s = s.retried t := if_pos h1
  simp only [exec, execStorageAnswerTimeout, hb, write, read, ite_self]

/-- A read-back that differs at the first attempt. -/
theorem exec_differs_retries (hw : t.write.isSome = true) (hp : t.page < pageCount) :
    exec (.pageWriteComplete false) s = .next (s.retried t) := by
  obtain ⟨bytes, hbytes⟩ := Option.isSome_iff_exists.mp hw
  have write : failAttempt t s = s.retried t := if_pos h1
  simp only [exec, execPageWriteComplete, hb, hbytes, Nat.not_le.mpr hp, if_false, Bool.false_eq_true, write]

end

/-! ## The second failure of a full checkpoint's page (R153, R158) -/

/-- A full checkpoint for which no one waits fails without a word. -/
theorem endFull_failed_unawaited {p : Part} (h : p.storage.full.waiters = []) : endFull false p = p.fullOver false := by
  rw [endFull_of_no_sleep false (by simp [h]), h]
  rfl

/-- What lasts of a failed full checkpoint for which no one waits is the count of the failure. -/
theorem failed_fullOver_lasting (p : Part) : (p.failed.fullOver false).lasting = p.pageFailed.lasting := rfl

/-- Settles O51: `retry` at the first failure; at the second the checkpoint ends and what it leaves lasts through the
settling. -/
theorem failuresAreRetriedThenSetFault : Obligations.FailuresAreRetriedThenSetFault := by
  refine ⟨fun s t hb h1 => ⟨exec_silent_retries hb h1, exec_differs_retries hb h1⟩,
    fun s t ha hb hw h2 hp ho hm hwait hpend hread => ?_⟩
  intro st
  obtain ⟨differs, silent⟩ := exec_pageFailed hb hw h2 hp
  have fails : writeFailed t.owner s.part.failed = s.part.failed.fullOver false := by
    rw [ho]
    exact endFull_failed_unawaited (p := s.part.failed) hwait
  rw [fails] at differs silent
  have kept := fun {β : Type} (g : Part → β) (hg : ∀ q : Part, g q.lasting = g q) =>
    eq_of_lasting g hg ((lasting_settle (s.medium.spoilPage t.page) _).trans (failed_fullOver_lasting s.part))
  have idle : (s.part.failed.fullOver false).storage.full.state = .idle := (afterEnd_idle_iff _).mpr hpend
  have full := settle_full (s.medium.spoilPage t.page) (by rw [idle]; decide)
  exact ⟨_, silent, differs, rfl, kept (fun q => q.storage.fault) (fun _ => rfl),
    kept (fun q => q.condition 1) (fun _ => rfl), kept (fun q => q.storage.failures) (fun _ => rfl),
    kept (fun q => q.storage.writes) (fun _ => rfl), kept (fun q => q.storage.newest) (fun _ => rfl),
    (congrArg FullCheckpoint.state full).trans idle, spoilPage_anySpoiled _ hp, fun a => spoilPage_byte_other hm _,
    kept (fun q => q.register.slots) (fun _ => rfl), kept Part.hire (fun _ => rfl)⟩

end Sys2Proof.Machine
end

section
/-! The storage arbiter's order and the placement of checkpoints (R155 to R161, R186). -/

namespace Sys2Proof.Machine

/-! ## Who is granted (R155, R156) -/

/-- The bus at the start of a transaction: owner, page, whether it writes, and the first attempt with its time (R153). -/
def Part.grantedTo (p : Part) (owner : Owner) (page : Nat) (write : Bool) : Prop :=
  p.storage.bus.map (fun x => (x.owner, x.page, x.write.isSome, x.attempt, x.timer)) = some (owner, page, write, 1, 20)

theorem beginTransaction_granted (owner : Owner) (page : Nat) (write : Option (List Byte)) (p : Part) :
    (beginTransaction owner page write p).grantedTo owner page write.isSome := rfl

section
variable (m : Medium) {p : Part}

theorem grant_busy (h : p.storage.bus.isSome = true) : grant m p = p := if_pos h

variable (bus : p.storage.bus = none)
include bus

/-- The short checkpoint is granted a free bus before anyone else. -/
theorem grant_short (h : p.storage.short.state ≠ .idle) : grant m p = grantShort p := by
  simp [grant, bus, h]

variable (short : p.storage.short.state = .idle)
include short

/-- While PFW stands only a reader is granted the bus (R161). -/
theorem grant_warned (pfw : p.lines.pfw = true) : grant m p = grantReader (refreshReaders p) := by
  simp [grant, bus, short, pfw]

variable (pfw : p.lines.pfw = false)
include pfw

theorem grant_fullNext (h : p.storage.full.state ≠ .idle) : grant m p = grantFull p := by
  simp [grant, bus, short, pfw, h]

variable (full : p.storage.full.state = .idle)
include full

theorem grant_tableNext (h : p.modeCtl.save ≠ .idle) : grant m p = grantTable p := by
  simp [grant, bus, short, pfw, full, h]

variable (save : p.modeCtl.save = .idle)
include save

theorem grant_archiveNext {job : ArchiveJob} {rest : List ArchiveJob} (h : p.storage.archive = job :: rest) :
    grant m p = grantArchive m job rest p := by
  simp [grant, bus, short, pfw, full, save, h]

variable (archive : p.storage.archive = [])
include archive

theorem grant_captureNext {job : CaptureJob} {rest : List CaptureJob} (h : p.storage.captureJobs = job :: rest) :
    grant m p = grantCapture job p := by
  simp [grant, bus, short, pfw, full, save, archive, h]

theorem grant_readerLast (h : p.storage.captureJobs = []) : grant m p = grantReader (refreshReaders p) := by
  simp [grant, bus, short, pfw, full, save, archive, h]

end

/-! ## The full checkpoint's first page (R157 to R159) -/

/-- The storage controller with the waiting full checkpoint placed, its snapshot that of this moment. -/
def Part.fullPlaced (p : Part) : Storage :=
  let position := placeAt p.storage.newest p.storage.writePosition 20
  { p.storage with
    nextSequence := p.storage.nextSequence + 1
    writePosition := position + 20
    full := { p.storage.full with
      state := .writing, page := 0, sequence := p.storage.nextSequence, position, image := some p.snapshot } }

theorem grantFull_waiting {p : Part} (h : p.storage.full.state = .waiting) :
    grantFull p =
      beginTransaction .full (ringPage p.fullPlaced.full.position) (some (fullPage p.fullPlaced.full))
        (p.setStorage p.fullPlaced) := by
  unfold grantFull
  rw [if_pos h]
  rfl

theorem grantFull_writing {p : Part} (h : p.storage.full.state = .writing) :
    grantFull p =
      beginTransaction .full (ringPage p.storage.full.position + p.storage.full.page) (some (fullPage p.storage.full)) p := by
  unfold grantFull
  rw [if_neg (by rw [h]; decide)]

/-! ## The archive and the capture level (R156) -/

/-- The archive job at the head is granted the page it writes next. -/
theorem grantArchive_granted {m : Medium} {job : ArchiveJob} {rest : List ArchiveJob} {p : Part} {page : Nat}
    {bytes : List Byte}
    (h : archiveWrite (p.setStorage { p.storage with archive := drawUp m job :: rest }) (drawUp m job) = some (page, bytes)) :
    (grantArchive m job rest p).grantedTo .archive page true := by
  unfold grantArchive
  dsimp only
  rw [h]
  exact beginTransaction_granted ..

theorem grantCapture_granted (job : CaptureJob) (p : Part) :
    (grantCapture job p).grantedTo .capture (captureWrite p job).1 true := beginTransaction_granted ..

/-! ## The reader at the head, judged again (R156, R186) -/

/-- The judging of a reader of another channel leaves the one at the head where it is. -/
theorem refreshReader_head {p : Part} {x r : Reader} {rest : List Reader} (h : p.storage.readers = r :: rest)
    (other : x.ch ≠ r.ch) : ∃ rest', (refreshReader p x).storage.readers = r :: rest' := by
  unfold refreshReader
  split
  · exact ⟨rest, h⟩
  · split
    · rename_i t _
      refine ⟨rest.map fun y => if y.ch = x.ch then { y with task := t } else y, ?_⟩
      simp only [Part.setReaders, Part.setStorage_storage, h, List.map_cons, Ne.symm other, if_false]
    · refine ⟨rest.filter (·.ch ≠ x.ch), ?_⟩
      simp only [respond_storage, Part.setReaders, Part.setStorage_storage, h]
      exact List.filter_cons_of_pos (decide_eq_true (Ne.symm other))

theorem refreshReader_heads {r : Reader} (xs : List Reader) (hx : ∀ x ∈ xs, x.ch ≠ r.ch) {p : Part} {rest : List Reader}
    (h : p.storage.readers = r :: rest) : ∃ rest', (xs.foldl refreshReader p).storage.readers = r :: rest' := by
  induction xs generalizing p rest with
  | nil => exact ⟨rest, h⟩
  | cons x xs ih =>
    obtain ⟨rest', head⟩ := refreshReader_head h (hx x List.mem_cons_self)
    exact ih (fun y hy => hx y (List.mem_cons_of_mem _ hy)) head

/-- The judging of the readers leaves the one at the head there, with the task it is judged to: its own between two pages
of a read, and what its work asks for before the first. -/
theorem refreshReaders_head {p : Part} {r : Reader} {rest : List Reader} {task : ReaderTask}
    (h : p.storage.readers = r :: rest) (alone : ∀ x ∈ rest, x.ch ≠ r.ch)
    (judged : (r.page ≠ 0 ∧ task = r.task) ∨ (r.page = 0 ∧ p.readerNext r.task = .read task)) :
    ∃ rest', (refreshReaders p).storage.readers = { r with task } :: rest' := by
  have first : ∃ rest', (refreshReader p r).storage.readers = { r with task } :: rest' := by
    rcases judged with ⟨later, rfl⟩ | ⟨first, asks⟩
    · exact ⟨rest, by rw [refreshReader, if_pos later, h]⟩
    · refine ⟨rest.map fun x => if x.ch = r.ch then { x with task } else x, ?_⟩
      rw [refreshReader, if_neg (not_not_intro first), asks]
      simp only [Part.setReaders, Part.setStorage_storage, h, List.map_cons, if_true]
  obtain ⟨rest', head⟩ := first
  unfold refreshReaders
  rw [h, List.foldl_cons]
  exact refreshReader_heads (r := { r with task }) rest alone head

theorem taskPage_congr {p q : Part} (h : q.capture = p.capture) (task : ReaderTask) : q.taskPage task = p.taskPage task := by
  cases task <;> simp only [Part.taskPage, h]

/-- The reader at the head is granted the next page of its read. -/
theorem grantReader_head {p : Part} {r : Reader} {rest : List Reader} {task : ReaderTask}
    (h : p.storage.readers = r :: rest) (alone : ∀ x ∈ rest, x.ch ≠ r.ch)
    (judged : (r.page ≠ 0 ∧ task = r.task) ∨ (r.page = 0 ∧ p.readerNext r.task = .read task)) :
    (grantReader (refreshReaders p)).grantedTo (.reader r.ch) (p.taskPage task + r.page) false := by
  obtain ⟨rest', head⟩ := refreshReaders_head h alone judged
  have capture : (refreshReaders p).capture = p.capture :=
    refreshReaders_keeps Part.capture (fun _ _ => rfl) (fun _ _ _ => by simp) p
  unfold grantReader
  rw [head]
  dsimp only
  rw [taskPage_congr capture]
  exact beginTransaction_granted ..

theorem refreshReaders_bus (p : Part) : (refreshReaders p).storage.bus = p.storage.bus := by
  refine foldl_keeps (fun q => q.storage.bus) (fun q r => ?_) _ p
  unfold refreshReader Part.setReaders
  split
  · rfl
  · split
    · rfl
    · rw [respond_storage]
      rfl

/-- Only a read comes from the readers. -/
theorem grantReader_reads {p : Part} (h : p.storage.bus = none) {x : Transaction}
    (hx : (grantReader p).storage.bus = some x) : x.write = none ∧ ∃ ch, x.owner = .reader ch := by
  unfold grantReader at hx
  split at hx
  · cases hx
    exact ⟨rfl, _, rfl⟩
  · exact absurd (h.symm.trans hx) nofun

theorem grantReader_none {p : Part} (h : p.storage.readers = []) : grantReader (refreshReaders p) = p := by
  simp [refreshReaders, grantReader, h]

/-! ## Placement (R159) -/

/-- A placement within the ring, on an even position from even ones. -/
theorem wrapPosition_within {w count : Nat} (hc : count ≤ 480) :
    wrapPosition w count + count ≤ 480 ∧ (w % 2 = 0 → wrapPosition w count % 2 = 0) ∧
      (wrapPosition w count = w ∨ wrapPosition w count = 0 ∧ 480 < w + count) := by
  simp only [wrapPosition, ringPages]
  split <;> omega

/-- A checkpoint is placed within the ring and off the newest full checkpoint. -/
theorem placeAt_spares {w count sequence position : Nat} (hc : count = 4 ∨ count = 20) (hp : position + 20 ≤ 480) :
    let at_ := placeAt (some (sequence, position)) w count
    at_ + count ≤ 480 ∧ (at_ + count ≤ position ∨ position + 20 ≤ at_) ∧
      (w % 2 = 0 → position % 2 = 0 → at_ % 2 = 0) := by
  obtain ⟨within, even, -⟩ := wrapPosition_within (w := w) (count := count) (by omega)
  obtain ⟨behind, behindEven, place⟩ := wrapPosition_within (w := position + 20) (count := count) (by omega)
  simp only [placeAt, fullPages]
  split <;> omega

/-- Settles O49: the arbiter's cases in their order, and the placement. -/
theorem arbiterOrderAndPlacement : Obligations.ArbiterOrderAndPlacement := by
  refine ⟨fun m p => ?_, fun w count sequence position hc hw hp => ?_⟩
  · intro st grants head
    have reader : ∀ r rest task, grant m p = grantReader (refreshReaders p) → head r rest task := by
      intro r rest task read readers alone judged
      have granted := grantReader_head readers alone judged
      rw [← read] at granted
      exact granted
    refine ⟨grant_busy m, fun bus short => ?_, fun bus short pfw => ⟨fun x hx => ?_, fun r rest task => ?_⟩,
      fun bus short pfw => ⟨fun full => ?_, fun full => ?_, fun full save => ?_, fun full save => ⟨?_, ?_, ?_, ?_⟩⟩⟩
    · dsimp only [grants]
      rw [grant_short m bus short]
      rfl
    · rw [grant_warned m bus short pfw] at hx
      exact grantReader_reads ((refreshReaders_bus p).trans bus) hx
    · exact reader r rest task (grant_warned m bus short pfw)
    · intro position
      have granted := (grant_fullNext m bus short pfw (by rw [full]; decide)).trans (grantFull_waiting full)
      dsimp only [grants]
      rw [granted]
      exact ⟨rfl, rfl, rfl, rfl⟩
    · dsimp only [grants]
      rw [grant_fullNext m bus short pfw (by rw [full]; decide), grantFull_writing full]
      rfl
    · dsimp only [grants]
      rw [grant_tableNext m bus short pfw full save]
      rfl
    · intro record events time units marks rest archive
      dsimp only [grants]
      rw [grant_archiveNext m bus short pfw full save archive]
      exact grantArchive_granted rfl
    · intro ch h rest archive closing
      dsimp only [grants]
      rw [grant_archiveNext m bus short pfw full save archive]
      exact grantArchive_granted (by simp only [archiveWrite, drawUp, Part.setStorage_hire, closing]; rfl)
    · intro pages page rest archive at_
      dsimp only [grants]
      rw [grant_archiveNext m bus short pfw full save archive]
      exact grantArchive_granted (bytes := zeroPage)
        (by simp only [archiveWrite, drawUp, Part.setStorage_storage, Option.getD_some]; rw [at_]; rfl)
    · intro archive
      have capture : ∀ job rest, st.captureJobs = job :: rest → grants .capture (captureWrite p job).1 true := by
        intro job rest jobs
        dsimp only [grants]
        rw [grant_captureNext m bus short pfw full save archive jobs]
        exact grantCapture_granted job p
      refine ⟨?_, fun e x k rest jobs entry copier => ?_, fun jobs => ⟨fun r rest task => ?_, fun readers => ?_⟩⟩
      · rintro e rest (jobs | jobs | ⟨number, ch, jobs⟩) <;> exact capture _ rest jobs
      · have page := capture _ rest jobs
        simp only [captureWrite, entry, copier] at page
        exact page
      · exact reader r rest task (grant_readerLast m bus short pfw full save archive jobs)
      · exact (grant_readerLast m bus short pfw full save archive jobs).trans (grantReader_none readers)
  · obtain ⟨within, spares, even⟩ := placeAt_spares (w := w) (sequence := sequence) hc hp
    exact ⟨within, spares, even, (wrapPosition_within (by omega)).1⟩

end Sys2Proof.Machine
end

section
/-! The power-fail warning and its withdrawal (R160 to R162). -/

namespace Sys2Proof.Machine

/-- The part with PFW noted. -/
def Part.warned (p : Part) : Part := { p with lines := { p.lines with pfw := true } }

theorem warned_eq_self {p : Part} (h : p.lines.pfw = true) : p.warned = p := by
  have same : { p.lines with pfw := true } = p.lines := by rw [← h]
  rw [Part.warned, same]

/-- The part that a warning leaves to the arbiter when no short checkpoint is under way (R161). -/
def Part.shortBegun (p : Part) : Part := beginShort (suspendRequesters p.warned)

/-- The short checkpoint of a warning holds the bus when the part has settled. -/
theorem settle_shortBegun (m : Medium) {p : Part} (hl : p.live = true) :
    (settle m p.shortBegun).storage = (grantShort p.shortBegun).storage := by
  have live : p.shortBegun.live = true := hl
  have waiting : p.shortBegun.storage.short.state = .waiting := rfl
  rw [settle_storage m live, grant_short m rfl (by rw [waiting]; decide)]

/-- A full checkpoint at the warning, its cause written out (log 16). -/
theorem suspend_eq (f : FullCheckpoint) :
    f.suspend =
      if f.state = .writing then
        { f with
          state := .waiting, page := 0, image := none
          cause := if f.pending = true ∧ f.pendingCause = .restart then .restart else f.cause
          waiters := f.waiters ++ f.nextWaiters, nextWaiters := [] }
      else f := by
  unfold FullCheckpoint.suspend joinCause
  by_cases pending : f.pending = true <;> simp [pending]

section
variable {s : State}

theorem exec_pfwAsserted_again (hp : s.part.lines.pfw = true) : exec .pfwAsserted s = .next s := by
  have same := warned_eq_self hp
  unfold Part.warned at same
  simp only [exec, execPfwAsserted, hp, true_or, if_true, same]

variable (hl : s.part.live = true)
include hl

theorem exec_pfwAsserted_places (hp : s.part.lines.pfw = false) (hs : s.part.storage.short.state = .idle) :
    exec .pfwAsserted s =
      .next { s with
        medium := abandonWrite s.part.storage.bus s.medium
        part := settle (abandonWrite s.part.storage.bus s.medium) s.part.shortBegun } := by
  have places : assertPfw s.part.warned = s.part.shortBegun := if_neg (not_not_intro hs)
  simp only [exec, execPfwAsserted, hp, hl, hs, Bool.false_eq_true, Bool.true_eq_false, or_self, ne_eq, not_true_eq_false,
    if_false, ← places]
  rfl

theorem exec_pfwAsserted_follows (hp : s.part.lines.pfw = false) (hs : s.part.storage.short.state ≠ .idle) :
    exec .pfwAsserted s =
      .next { s with
        part := settle s.medium (s.part.warned.setStorage
          { s.part.storage with short := { s.part.storage.short with followUp := true } }) } := by
  have follows : assertPfw s.part.warned = s.part.warned.setStorage
      { s.part.storage with short := { s.part.storage.short with followUp := true } } := if_pos hs
  simp only [exec, execPfwAsserted, hp, hl, hs, Bool.false_eq_true, Bool.true_eq_false, or_self, ne_eq, not_false_eq_true,
    if_false, if_true, ← follows]
  rfl

theorem exec_pfwWithdrawn :
    exec .pfwWithdrawn s =
      .next { s with
        part := settle s.medium { s.part with lines := { s.part.lines with pfw := false } } } := by
  have running : s.part.restore = none := by
    simp only [Part.live, Bool.and_eq_true, Option.isNone_iff_eq_none] at hl
    exact hl.2
  simp only [exec, execPfwWithdrawn]
  rw [after_eq s (by exact running)]

end

/-- Settles O56: the warning's short checkpoint takes the free bus, and what else the warning leaves lasts through the
settling. -/
theorem powerFailWarning : Obligations.PowerFailWarning := by
  intro s hl p st place
  refine ⟨fun hp hs => ?_, fun hp hs => ?_, exec_pfwAsserted_again, ?_⟩
  · have granted := settle_shortBegun (abandonWrite st.bus s.medium) hl
    have kept := fun {β : Type} (g : Part → β) (hg : ∀ q : Part, g q.lasting = g q) =>
      settle_keeps g hg (abandonWrite st.bus s.medium) p.shortBegun
    exact ⟨_, exec_pfwAsserted_places hl hp hs, kept (fun r => r.lines.pfw) (fun _ => rfl), rfl, rfl,
      congrArg (·.short.state) granted, congrArg (·.short.page) granted, congrArg (·.short.position) granted,
      congrArg (·.short.sequence) granted, congrArg (·.short.image) granted, congrArg (·.nextSequence) granted,
      congrArg (fun x => x.bus.map fun x => (x.owner, x.page)) granted, kept (fun r => r.register.slots) (fun _ => rfl),
      kept Part.hire (fun _ => rfl), kept Part.capture (fun _ => rfl),
      (congrArg (·.full) granted).trans (suspend_eq st.full)⟩
  · exact ⟨_, exec_pfwAsserted_follows hl hp hs, lasting_settle _ _, trivial, rfl, rfl⟩
  · exact ⟨_, exec_pfwWithdrawn hl, lasting_settle _ _, settle_keeps (fun r => r.lines.pfw) (fun _ => rfl) _ _, rfl, rfl⟩

end Sys2Proof.Machine
end

section
/-! Short checkpoints applied to slots: figures, spectrum, pools and SATURATED (R164). -/

namespace Sys2Proof.Machine

/-! ## A slot's entry (R164) -/

section
variable (c : Component) (e : ShortSlot)

/-- The spectrum's cells after a short's entry: folded away on another generation. -/
def Component.shortCells : Vector Nat 64 := if e.generation = c.generation then c.cells else Vector.replicate 64 0

/-- Unbinned after a short's entry, before the pool is settled: raised by the time or events gained and by folded cells. -/
def Component.shortUnbinned : Nat :=
  min 4294967295
    (min 4294967295 (c.unbinned + (c.kind.share e.events e.time - c.kind.share c.events c.time)) +
      if e.generation = c.generation then 0 else c.cells.toList.sum)

/-- The slot with a short's figures, its pool and SATURATED not yet settled. -/
def Component.shortFigures : Component :=
  { c with
    events := e.events, time := e.time, units := e.units, residue := e.residue, unobserved := e.unobserved
    unbinned := c.shortUnbinned e, cells := c.shortCells e, generation := e.generation }

theorem takeShort_eq : c.takeShort e = c.shortFigures e := by
  unfold Component.takeShort Component.shortFigures Component.shortUnbinned Component.shortCells
  by_cases same : e.generation = c.generation
  · simp [same, addSat]
  · simp [same, addSat, Component.fold, Component.cellSum]

/-- The slot with a short's entry applied, its SATURATED flag not yet raised by what the entry brought. -/
def Component.shortResolved : Component := (c.shortFigures e).resolveShort e.pool

theorem applyShort_snd : (c.applyShort e).2 = c.shortUnbinned e - e.unbinned := by
  unfold Component.applyShort
  rw [takeShort_eq]
  rfl

variable {c e}

theorem shortResolved_counting (hc : c.hold = none) (hp : e.pool = none) : c.shortResolved e = c.shortFigures e := by
  simp [Component.shortResolved, Component.resolveShort, Component.shortFigures, hc, hp]

theorem shortResolved_pool {h : Hold} {q : Pool} (hc : c.hold = some h) (hp : e.pool = some q) :
    c.shortResolved e = { c.shortFigures e with hold := some { h with pool := q } } := by
  simp [Component.shortResolved, Component.resolveShort, Component.shortFigures, hc, hp]

theorem shortResolved_cleared {h : Hold} (hc : c.hold = some h) (hp : e.pool = none) :
    c.shortResolved e = { c.shortFigures e with hold := some { h with pool := {} } } := by
  simp [Component.shortResolved, Component.resolveShort, Component.shortFigures, hc, hp]

theorem shortResolved_merged {q : Pool} (hc : c.hold = none) (hp : e.pool = some q) :
    c.shortResolved e = (c.shortFigures e).mergePool q := by
  simp [Component.shortResolved, Component.resolveShort, Component.shortFigures, hc, hp]

/-- SATURATED stays as it was until the entry is applied, but for a merge, which sets it at a limit (R164). -/
theorem shortResolved_saturated :
    ((c.shortResolved e).saturated || (c.shortResolved e).anyLimit) = (c.saturated || (c.shortResolved e).anyLimit) := by
  cases hc : c.hold with
  | some h =>
    cases hp : e.pool with
    | some q => rw [shortResolved_pool hc hp]; rfl
    | none => rw [shortResolved_cleared hc hp]; rfl
  | none =>
    cases hp : e.pool with
    | none => rw [shortResolved_counting hc hp]; rfl
    | some q =>
      rw [shortResolved_merged hc hp]
      have merged : ((c.shortFigures e).mergePool q).saturated =
        (c.saturated || ((c.shortFigures e).mergePool q).anyLimit) := rfl
      rw [merged, Bool.or_assoc, Bool.or_self]

theorem applyShort_fst (c : Component) (e : ShortSlot) :
    (c.applyShort e).1 =
      { c.shortResolved e with saturated := c.saturated || (c.shortResolved e).anyLimit } := by
  rw [← shortResolved_saturated, Component.shortResolved, ← takeShort_eq]
  rfl

theorem applyShort_eq (c : Component) (e : ShortSlot) :
    (c.applyShort e).1 = { c.shortResolved e with saturated := (c.applyShort e).1.saturated } := by
  rw [applyShort_fst]

/-- SATURATED is set at any limit (R164). -/
theorem applyShort_saturated_iff :
    (c.applyShort e).1.saturated = true ↔
      c.saturated = true ∨ 4294967295 ≤ (c.applyShort e).1.events ∨ 4294967295 ≤ (c.applyShort e).1.time ∨
        4294967295 ≤ (c.applyShort e).1.unbinned ∨ 4294967295 ≤ (c.applyShort e).1.unobserved ∨
        99999999 ≤ (c.applyShort e).1.units := by
  rw [applyShort_fst]
  simp only [Component.anyLimit, atLimit, Bool.or_eq_true, decide_eq_true_eq, max32, wearLimit]
  tauto

/-! ## The spectrum's sum (R89, R164) -/

/-- Cells and unbinned together after a short's entry, when unbinned is below its limit. -/
theorem shortFigures_sum (h : c.shortUnbinned e < 4294967295) :
    (c.shortFigures e).cellSum + (c.shortFigures e).unbinned =
      c.cellSum + c.unbinned + (c.kind.share e.events e.time - c.kind.share c.events c.time) := by
  have unbinned : (c.shortFigures e).unbinned = c.shortUnbinned e := rfl
  have cells : (c.shortFigures e).cellSum = (c.shortCells e).toList.sum := rfl
  have before : c.cellSum = c.cells.toList.sum := rfl
  rw [unbinned, cells, before]
  unfold Component.shortUnbinned at h ⊢
  unfold Component.shortCells
  split at h <;> rename_i same
  · rw [if_pos same, if_pos same]
    omega
  · have empty : (Vector.replicate 64 0).toList.sum = 0 := by decide
    rw [if_neg same, if_neg same, empty]
    omega

theorem below_of_anyLimit {c : Component} (h : c.anyLimit = false) :
    c.events < 4294967295 ∧ c.time < 4294967295 ∧ c.unbinned < 4294967295 := by
  simp only [Component.anyLimit, atLimit, Bool.or_eq_false_iff, decide_eq_false_iff_not, Nat.not_le, max32] at h
  omega

theorem addSat_of_lt {a b : Nat} (h : addSat max32 a b < 4294967295) : addSat max32 a b = a + b := by
  simp only [addSat, max32] at h ⊢
  omega

section
variable (more : c.kind.share c.events c.time ≤ c.kind.share e.events e.time)
  (sum : c.cellSum + c.unbinned = c.kind.share c.events c.time)
include more sum

theorem shortFigures_balanced (h : c.shortUnbinned e < 4294967295) :
    (c.shortFigures e).cellSum + c.shortUnbinned e = c.kind.share e.events e.time := by
  have after := shortFigures_sum h
  have unbinned : (c.shortFigures e).unbinned = c.shortUnbinned e := rfl
  omega

/-- The pool's share goes to unbinned with the merge of its figures (R74, R164). -/
theorem shortMerged_balanced {q : Pool} (hs : ((c.shortFigures e).mergePool q).anyLimit = false) :
    (c.shortFigures e).cellSum + addSat max32 (c.shortUnbinned e) (c.kind.share q.events q.time) =
      c.kind.share (addSat max32 e.events q.events) (addSat max32 e.time q.time) := by
  obtain ⟨events, time, unbinned⟩ := below_of_anyLimit hs
  have exact_ := addSat_of_lt (a := c.shortUnbinned e) (b := c.kind.share q.events q.time) unbinned
  have below : c.shortUnbinned e < 4294967295 := by
    have small : addSat max32 (c.shortUnbinned e) (c.kind.share q.events q.time) < 4294967295 := unbinned
    omega
  rw [exact_, addSat_of_lt (a := e.events) (b := q.events) events, addSat_of_lt (a := e.time) (b := q.time) time,
    share_add, ← Nat.add_assoc, shortFigures_balanced more sum below]

/-- A sum that was the time or the events stays so below the limits (R164). -/
theorem shortResolved_balanced (hs : (c.shortResolved e).anyLimit = false) :
    (c.shortResolved e).cellSum + (c.shortResolved e).unbinned =
      c.kind.share (c.shortResolved e).events (c.shortResolved e).time := by
  have figures := shortFigures_balanced more sum
  cases hc : c.hold with
  | some h =>
    cases hp : e.pool with
    | some q =>
      rw [shortResolved_pool hc hp] at hs ⊢
      exact figures (below_of_anyLimit hs).2.2
    | none =>
      rw [shortResolved_cleared hc hp] at hs ⊢
      exact figures (below_of_anyLimit hs).2.2
  | none =>
    cases hp : e.pool with
    | some q =>
      rw [shortResolved_merged hc hp] at hs ⊢
      exact shortMerged_balanced more sum hs
    | none =>
      rw [shortResolved_counting hc hp] at hs ⊢
      exact figures (below_of_anyLimit hs).2.2

end

end

/-! ## The newest entry that matches (R164, log 32) -/

theorem matches_iff (e : ShortSlot) (c : Component) :
    e.matches c = true ↔ e.kind = c.kind ∧ e.installClock = c.installClock := by
  simp [ShortSlot.matches]

theorem lastMatch_append (n : Nat) (c : Component) (shorts : List ShortImage) (last : ShortImage) :
    lastMatch n c (shorts ++ [last]) =
      match (last.slots[n]?).join with
      | some e => if e.matches c then some e else lastMatch n c shorts
      | none => lastMatch n c shorts := by
  rw [lastMatch, List.foldl_append]
  rfl

section
variable {shorts : List ShortImage} {last : ShortImage} {n : Nat} {c : Component}

/-- The newest short's entry applies when it is of the slot's component. -/
theorem applyShorts_match {e : ShortSlot} (he : last.slots[n]? = some (some e)) (hk : e.kind = c.kind)
    (hi : e.installClock = c.installClock) :
    applyShorts (shorts ++ [last]) n (some c) = (some (c.applyShort e).1, (c.applyShort e).2) := by
  have found : lastMatch n c (shorts ++ [last]) = some e := by
    simp [lastMatch_append, he, (matches_iff e c).mpr ⟨hk, hi⟩]
  simp only [applyShorts, found]

/-- Otherwise the slot is what the older shorts make of it. -/
theorem applyShorts_other (h : ∀ e, last.slots[n]? = some (some e) → e.kind ≠ c.kind ∨ e.installClock ≠ c.installClock) :
    applyShorts (shorts ++ [last]) n (some c) = applyShorts shorts n (some c) := by
  have older : lastMatch n c (shorts ++ [last]) = lastMatch n c shorts := by
    rw [lastMatch_append]
    split
    · rename_i e he
      have differs : ¬e.matches c = true := by
        rw [matches_iff]
        rintro ⟨hk, hi⟩
        exact (h e (Option.join_eq_some_iff.mp he)).elim (· hk) (· hi)
      exact if_neg differs
    · rfl
  simp only [applyShorts, older]

end

end Sys2Proof.Machine
end

section
/-! Short checkpoints applied to the hire, the numbering and the clock, and the hire re-created from one (R165). -/

namespace Sys2Proof.Machine

/-! ## A usage list with a short's entries (R165) -/

section
variable (slots : Vector (Option Component) 12) (hire : Nat)

theorem missingUsage_slot (slot : Nat) : (missingUsage slots hire slot).slot = slot := by
  unfold missingUsage
  split <;> rfl

/-- The entry that a usage list lacks, with a short's figures. -/
theorem missingUsage_takeShort {x : ShortUsage} {c : Component} (h : slots[x.slot]? = some (some c)) :
    (missingUsage slots hire x.slot).takeShort x =
      { slot := x.slot, kind := c.kind, serial := c.identity, events := x.events, time := x.time, units := x.units
        residue := x.residue, held := x.held, unobserved := x.unobserved } := by
  simp [missingUsage, h, Usage.takeShort, Usage.new]

variable {slots hire} {l : List Usage}

theorem takeShortUsage_pairwise (x : ShortUsage) (h : l.Pairwise fun u v => u.slot < v.slot) :
    (takeShortUsage slots hire l x).Pairwise fun u v => u.slot < v.slot :=
  updateUsage_pairwise (f := (·.takeShort x)) (missingUsage_slot slots hire x.slot) (fun _ => rfl) h

theorem takeShortUsages_pairwise (xs : List ShortUsage) (h : l.Pairwise fun u v => u.slot < v.slot) :
    (xs.foldl (takeShortUsage slots hire) l).Pairwise fun u v => u.slot < v.slot := by
  induction xs generalizing l with
  | nil => exact h
  | cons x xs ih => exact ih (takeShortUsage_pairwise x h)

/-- An entry of a slot that the short does not speak of stays. -/
theorem mem_takeShortUsages_of_other {u : Usage} (hu : u ∈ l) (xs : List ShortUsage) (h : ∀ x ∈ xs, x.slot ≠ u.slot) :
    u ∈ xs.foldl (takeShortUsage slots hire) l := by
  induction xs generalizing l with
  | nil => exact hu
  | cons x xs ih =>
    exact ih (mem_updateUsage_of_other hu (h x List.mem_cons_self).symm) fun y hy => h y (List.mem_cons_of_mem _ hy)

/-- An entry of a slot that the short speaks of takes its figures. -/
theorem takeShort_mem_takeShortUsages {u : Usage} (hu : u ∈ l) (hl : l.Pairwise fun u v => u.slot < v.slot)
    {xs : List ShortUsage} (hxs : xs.Pairwise fun x y => x.slot < y.slot) {x : ShortUsage} (hx : x ∈ xs)
    (hs : x.slot = u.slot) : u.takeShort x ∈ xs.foldl (takeShortUsage slots hire) l := by
  induction xs generalizing l with
  | nil => exact absurd hx List.not_mem_nil
  | cons y ys ih =>
    obtain ⟨first, rest⟩ := List.pairwise_cons.mp hxs
    rcases List.mem_cons.mp hx with rfl | later
    · have taken := (updateUsage_present (new := missingUsage slots hire x.slot) (f := (·.takeShort x)) hl hu hs.symm).2
      refine mem_takeShortUsages_of_other taken ys fun z hz => ?_
      have behind := first z hz
      have at_ : (u.takeShort x).slot = u.slot := rfl
      omega
    · have other : u.slot ≠ y.slot := by have := first x later; omega
      exact ih (mem_updateUsage_of_other hu other) (takeShortUsage_pairwise y hl) rest later

/-- The short's entry of a slot that the list lacks is added. -/
theorem missing_mem_takeShortUsages {xs : List ShortUsage} (hxs : xs.Pairwise fun x y => x.slot < y.slot) {x : ShortUsage}
    (hx : x ∈ xs) (hl : ∀ u ∈ l, u.slot ≠ x.slot) :
    (missingUsage slots hire x.slot).takeShort x ∈ xs.foldl (takeShortUsage slots hire) l := by
  induction xs generalizing l with
  | nil => exact absurd hx List.not_mem_nil
  | cons y ys ih =>
    obtain ⟨first, rest⟩ := List.pairwise_cons.mp hxs
    rcases List.mem_cons.mp hx with rfl | later
    · have added := (updateUsage_absent (new := missingUsage slots hire x.slot) (f := (·.takeShort x)) hl).2
      refine mem_takeShortUsages_of_other added ys fun z hz => ?_
      have behind := first z hz
      have at_ : ((missingUsage slots hire x.slot).takeShort x).slot = x.slot := missingUsage_slot slots hire x.slot
      omega
    · refine ih rest later fun u hu => ?_
      rcases of_mem_updateUsage (f := (·.takeShort y)) (missingUsage_slot slots hire y.slot) (fun _ => rfl) hu with stood | own
      · exact hl u stood
      · have := first x later
        omega

/-- Entries in slot order, all behind the list's, are added at its end. -/
theorem takeShortUsages_behind {xs : List ShortUsage} (hxs : xs.Pairwise fun x y => x.slot < y.slot)
    (hl : ∀ u ∈ l, ∀ x ∈ xs, u.slot < x.slot) :
    xs.foldl (takeShortUsage slots hire) l = l ++ xs.map fun x => (missingUsage slots hire x.slot).takeShort x := by
  induction xs generalizing l with
  | nil => simp
  | cons x xs ih =>
    obtain ⟨first, rest⟩ := List.pairwise_cons.mp hxs
    have added : takeShortUsage slots hire l x = l ++ [(missingUsage slots hire x.slot).takeShort x] := by
      have before : ∀ u ∈ l, u.slot < x.slot := fun u hu => hl u hu x List.mem_cons_self
      clear hl ih
      unfold takeShortUsage
      induction l with
      | nil => rfl
      | cons u l ih =>
        have low := before u List.mem_cons_self
        rw [updateUsage, if_neg (by omega), if_neg (by omega), ih fun v hv => before v (List.mem_cons_of_mem _ hv)]
        rfl
    rw [List.foldl_cons, added, ih rest, List.append_assoc]
    · rfl
    · intro u hu y hy
      rcases List.mem_append.mp hu with stood | own
      · exact hl u stood y (List.mem_cons_of_mem _ hy)
      · rw [List.mem_singleton.mp own]
        exact (missingUsage_slot slots hire x.slot).trans_lt (first y hy)

end

/-! ## A short applied to the hire (R165) -/

section
variable {known : Nat} {slots : Vector (Option Component) 12} {hire : Hire} {kept : Option ShortHire} {last : ShortImage}

theorem not_current {number : Nat} (hc : ∀ r, hire.current = some r → r.number ≠ number) :
    hire.current.any (·.number == number) = false := by
  cases current : hire.current with
  | none => rfl
  | some r => simpa using hc r current

theorem applyShortHire_none (h : last.hire = none) :
    applyShortHire known slots (hire, kept) last =
      ({ hire with nextNumber := max hire.nextNumber last.nextHire }, kept) := by
  simp only [applyShortHire, h]

section
variable {sh : ShortHire} (h : last.hire = some sh)
include h

theorem applyShortHire_same {r : HireRecord} (hc : hire.current = some r) (hn : r.number = sh.number) :
    applyShortHire known slots (hire, kept) last =
      ({ hire with
          nextNumber := max hire.nextNumber last.nextHire
          current := some { r with usage := sh.usage.foldl (takeShortUsage slots r.number) r.usage } }, kept) := by
  simp [applyShortHire, h, hc, hn]

variable (hc : ∀ r, hire.current = some r → r.number ≠ sh.number)
include hc

theorem applyShortHire_above (hk : known ≤ sh.number) :
    applyShortHire known slots (hire, kept) last =
      ({ hire with nextNumber := max (max hire.nextNumber last.nextHire) (sh.number + 1) }, some sh) := by
  simp only [applyShortHire, h, not_current hc, Bool.false_eq_true, if_false, hk, if_true]

theorem applyShortHire_older (hk : sh.number < known) :
    applyShortHire known slots (hire, kept) last =
      ({ hire with nextNumber := max hire.nextNumber last.nextHire }, kept) := by
  simp only [applyShortHire, h, not_current hc, Bool.false_eq_true, if_false, Nat.not_le.mpr hk]

end

end

/-! ## Every short above the full checkpoint (R163, R165) -/

theorem takeShorts_slot (known : Nat) (shorts : List ShortImage) (p : Part) {n : Nat} (h : n < 12) :
    (takeShorts known shorts p).1.slot n = (applyShorts shorts n (p.slot n)).1 := by
  simp [takeShorts, Part.slot, h]

/-- The hire re-created from a short with its entries in slot order (R165). -/
theorem recreate_eq {sh : ShortHire} (slots : Vector (Option Component) 12)
    (h : sh.usage.Pairwise fun x y => x.slot < y.slot) :
    sh.recreate slots =
      { number := sh.number, contract := sh.contract, openClock := sh.openClock, openSync := sh.openSync
        openChannel := sh.openChannel
        usage := sh.usage.map fun x => (missingUsage slots sh.number x.slot).takeShort x
        abuse := Vector.replicate 4 0, abuseList := [], overflow := false, close := none } := by
  rw [ShortHire.recreate, takeShortUsages_behind h fun u hu => absurd hu List.not_mem_nil, List.nil_append]

/-- Settles O58: each part by the rules of the entry, of the matching, of the usage list and of the hire. -/
theorem shortCheckpointsApply : Obligations.ShortCheckpointsApply := by
  refine ⟨fun c e => ?_, fun shorts last n c => ?_, fun known slots hire kept last => ?_, fun known shorts last p => ?_,
    fun sh slots hu hs => ?_⟩
  · intro gained same cells unbinned r figures
    have applied := applyShort_eq c e
    refine ⟨applyShort_snd c e, fun hc hp => ?_, fun h q hc hp => ?_, fun h hc hp => ?_, fun q hc hp => ?_,
      applyShort_saturated_iff, fun more sum hs => ?_⟩
    · rw [shortResolved_counting hc hp] at applied
      exact applied
    · rw [shortResolved_pool hc hp] at applied
      exact applied
    · rw [shortResolved_cleared hc hp] at applied
      exact applied
    · rw [shortResolved_merged hc hp] at applied
      exact applied
    · have limits : (c.shortResolved e).anyLimit = false := by
        have unsaturated : (c.applyShort e).1.saturated = false := hs
        rw [applyShort_fst] at unsaturated
        exact (Bool.or_eq_false_iff.mp unsaturated).2
      have balanced := shortResolved_balanced more sum limits
      dsimp only [r]
      rw [applyShort_fst]
      exact balanced
  · exact ⟨rfl, rfl, fun e => applyShorts_match, applyShorts_other⟩
  · intro r next
    refine ⟨applyShortHire_none, fun sh hh => ⟨fun hc => ⟨applyShortHire_above hh hc, applyShortHire_older hh hc⟩,
      fun h hc hn ordered shOrdered => ⟨_, applyShortHire_same hh hc hn, takeShortUsages_pairwise _ ordered,
        fun u hu other => mem_takeShortUsages_of_other hu _ other,
        fun u hu x hx same => takeShort_mem_takeShortUsages hu ordered shOrdered hx same,
        fun x hx lacks c hc => ?_⟩⟩⟩
    rw [← missingUsage_takeShort slots h.number hc]
    exact missing_mem_takeShortUsages shOrdered hx lacks
  · refine ⟨rfl, ?_, fun n hn => takeShorts_slot known shorts p hn, rfl⟩
    simp [takeShorts]
  · refine ⟨_, recreate_eq slots hu, ?_, ?_⟩
    · rw [List.map_map]
      refine List.map_congr_left fun x hx => ?_
      simp [Usage.takeShort, missingUsage_slot]
    · intro u hu c hc
      obtain ⟨x, hx, rfl⟩ := List.mem_map.mp hu
      have at_ : ((missingUsage slots sh.number x.slot).takeShort x).slot = x.slot := missingUsage_slot ..
      rw [at_] at hc
      rw [missingUsage_takeShort slots sh.number hc]
      exact ⟨rfl, rfl⟩

end Sys2Proof.Machine
end

section
/-! Messages (R173, R174, R191): a request command is its message, and a message cut into segments is taken whole. -/

namespace Sys2Proof.Machine

/-- Settles O7: `exec_eq_dispatch`, by which the bytes of each field read back. -/
theorem requestMessagesAreTheirRequests : Obligations.RequestMessagesAreTheirRequests :=
  fun _ _ _ s _ hi => exec_eq_dispatch hi s

/-! ## The segments of a message (R173) -/

theorem readSegment_next (sequence : Nat) (bytes : List Byte) :
    readSegment (BitVec.ofNat 8 (0x20 + sequence % 16) :: bytes) = .next (sequence % 16) bytes := by
  have control : (BitVec.ofNat 8 (0x20 + sequence % 16)).toNat = 32 + sequence % 16 := by
    rw [BitVec.toNat_ofNat]
    omega
  have kind : (32 + sequence % 16) / 16 = 2 := by omega
  have low : (32 + sequence % 16) % 16 = sequence % 16 := by omega
  simp only [readSegment, control, kind, low]

theorem readSegment_first {msg : List Byte} (h8 : 8 ≤ msg.length) (hmax : msg.length ≤ 1024) :
    readSegment (BitVec.ofNat 8 (0x10 + msg.length / 256) :: BitVec.ofNat 8 msg.length :: msg.take 6) =
      .first msg.length (msg.take 6) := by
  have control : (BitVec.ofNat 8 (0x10 + msg.length / 256)).toNat = 16 + msg.length / 256 := by
    rw [BitVec.toNat_ofNat]
    omega
  have kind : (16 + msg.length / 256) / 16 = 1 := by omega
  have length : (16 + msg.length / 256) % 16 * 256 + msg.length % 2 ^ 8 = msg.length := by omega
  have six : 6 ≤ (msg.take 6).length := by
    rw [List.length_take]
    omega
  simp only [readSegment, control, kind, BitVec.toNat_ofNat, length, h8, hmax, six, and_self, if_true, List.take_take,
    Nat.min_self]

theorem nextSegments_nil (n sequence : Nat) : nextSegments n sequence [] = [] := by
  cases n <;> rfl

theorem nextSegments_succ (n sequence : Nat) {bytes : List Byte} (h : bytes ≠ []) :
    nextSegments (n + 1) sequence bytes =
      (BitVec.ofNat 8 (0x20 + sequence % 16) :: bytes.take 7) :: nextSegments n (sequence + 1) (bytes.drop 7) := by
  cases bytes with
  | nil => exact absurd rfl h
  | cons b rest => rfl

/-! ## A message under way (R174) -/

theorem Part.setChan_setChan (p : Part) (ch : Channel) (c d : Chan) : (p.setChan ch c).setChan ch d = p.setChan ch d := by
  cases ch <;> rfl

/-- The channel RECEIVING a message, `k` bytes of which have come, with the NEXT of a sequence to follow. -/
def Chan.inMessage (ch : Channel) (port : PortId) (msg : List Byte) (k sequence : Nat) (c : Chan) : Chan :=
  { c.beginMessage ch port msg.length (msg.take k) with expected := sequence % 16 }

section
variable (ch : Channel) (port : PortId) (msg : List Byte) (k sequence : Nat) (c : Chan)

/-- The message taken whole leaves nothing of its reception in the channel. -/
theorem accept_inMessage :
    (c.inMessage ch port msg k sequence).accept ch (c.inMessage ch port msg k sequence).port = c.accept ch port := by
  cases ch <;> rfl

theorem inMessage_port (h : ch = .service) : (c.inMessage ch port msg k sequence).port = port := by
  subst h
  rfl

theorem inMessage_due : (c.inMessage ch port msg k sequence).due = ((msg.drop k).take 7).length := by
  simp only [Chan.due, Chan.inMessage, Chan.beginMessage, List.length_take, List.length_drop]
  omega

/-- What the due NEXT brings joins the bytes that have come. -/
theorem inMessage_joined :
    (c.inMessage ch port msg k sequence).buffer ++
        ((msg.drop k).take 7).take (c.inMessage ch port msg k sequence).due = msg.take (k + 7) := by
  rw [inMessage_due, List.take_length, List.take_add]
  rfl

/-- With the due NEXT received the channel is 7 bytes further in the message. -/
theorem inMessage_advance :
    { c.inMessage ch port msg k sequence with
        buffer := msg.take (k + 7), expected := (sequence % 16 + 1) % 16, gap := some gapTime } =
      c.inMessage ch port msg (k + 7) (sequence + 1) := by
  rw [Nat.mod_add_mod]
  rfl

end

section
variable {ch : Channel} {port : PortId} {msg : List Byte} {p : Part}

/-- The NEXT that is due brings the message's next 7 bytes, or its last ones, with which it is whole (R174). -/
theorem takeSegment_inMessage (k sequence : Nat) :
    takeSegment ch port (.next (sequence % 16) ((msg.drop k).take 7))
        (p.mapChan ch (Chan.inMessage ch port msg k sequence)) =
      if msg.length ≤ k + 7 then dispatch ch msg (p.mapChan ch (Chan.accept ch port))
      else p.mapChan ch (Chan.inMessage ch port msg (k + 7) (sequence + 1)) := by
  have received : takeSegment ch port (.next (sequence % 16) ((msg.drop k).take 7))
      (p.mapChan ch (Chan.inMessage ch port msg k sequence)) =
        takeNext ch ((msg.drop k).take 7) (p.mapChan ch (Chan.inMessage ch port msg k sequence)) := by
    have receiving : ((p.chan ch).inMessage ch port msg k sequence).state = .receiving := rfl
    have expected : ((p.chan ch).inMessage ch port msg k sequence).expected = sequence % 16 := rfl
    have own : ¬(ch = .service ∧ port ≠ ((p.chan ch).inMessage ch port msg k sequence).port) :=
      fun ⟨service, other⟩ => other (inMessage_port (h := service) ..).symm
    simp only [takeSegment, Part.mapChan, Part.setChan_chan, receiving, nextReceived, own, inMessage_due, expected,
      if_false, if_true, Nat.lt_irrefl]
  have length : ((p.chan ch).inMessage ch port msg k sequence).length = msg.length := rfl
  have expected : ((p.chan ch).inMessage ch port msg k sequence).expected = sequence % 16 := rfl
  have complete : msg.length ≤ (msg.take (k + 7)).length ↔ msg.length ≤ k + 7 := by
    rw [List.length_take]
    omega
  rw [received]
  simp only [takeNext, Part.mapChan, Part.setChan_chan, Part.setChan_setChan, inMessage_joined, length, expected, complete,
    accept_inMessage]
  split
  · rename_i whole
    rw [List.take_of_length_le whole]
  · exact congrArg (p.setChan ch) (inMessage_advance ..)

/-- The NEXTs of the rest of a message under way bring it in whole (R173, R174). -/
theorem takeSegments_inMessage {n k : Nat} (sequence : Nat) (hk : k < msg.length) (hn : msg.length ≤ k + n) :
    (nextSegments n sequence (msg.drop k)).foldl (fun q data => takeSegment ch port (readSegment data) q)
        (p.mapChan ch (Chan.inMessage ch port msg k sequence)) =
      dispatch ch msg (p.mapChan ch (Chan.accept ch port)) := by
  induction n generalizing k sequence with
  | zero => exact absurd hk (Nat.not_lt.mpr hn)
  | succ n ih =>
    rw [nextSegments_succ _ _ (mt List.drop_eq_nil_iff.mp (Nat.not_le.mpr hk)), List.foldl_cons, readSegment_next,
      takeSegment_inMessage, List.drop_drop]
    split
    · rename_i whole
      rw [List.drop_of_length_le whole, nextSegments_nil]
      rfl
    · exact ih (sequence + 1) (by omega) (by omega)

/-- The FIRST of a message on an IDLE channel brings its first 6 bytes (R173, R174). -/
theorem takeSegment_first_idle (hi : (p.chan ch).state = .idle) :
    takeSegment ch port (.first msg.length (msg.take 6)) p = p.mapChan ch (Chan.inMessage ch port msg 6 1) := by
  simp only [takeSegment, hi]
  rfl

/-- A SINGLE on an IDLE channel is its message whole (R174). -/
theorem takeSegment_single_idle (hi : (p.chan ch).state = .idle) :
    takeSegment ch port (.single msg) p = dispatch ch msg (p.mapChan ch (Chan.accept ch port)) := by
  simp only [takeSegment, takeWhole, hi]

end

/-- Settles O8: a SINGLE is the message; a longer one is brought in by its FIRST and, by induction, its NEXTs. -/
theorem segmentsReassemble : Obligations.SegmentsReassemble := by
  intro ch port msg p h1 hmax hi
  unfold segments
  split
  · rename_i short
    have single := readSegment_single (rest := []) h1 short
    rw [List.append_nil] at single
    rw [List.foldl_cons, single, takeSegment_single_idle hi]
    rfl
  · rename_i long
    rw [List.foldl_cons, readSegment_first (by omega) hmax, takeSegment_first_idle hi]
    exact takeSegments_inMessage 1 (by omega) (by omega)

end Sys2Proof.Machine
end

section
/-! A whole request on a channel that is PROCESSING or RESPONDING: its BUSY answer, and that answer through the settling
(R175). -/

namespace Sys2Proof.Machine

/-! ## Frames stay placed through the settling -/

/-- An offered frame stands besides those placed before. -/
theorem offerFrame_placedFrames (ch : Channel) (port : PortId) (f : TxFrame) {p : Part}
    (h : p.ring.waitingOf ch port = none) : (offerFrame ch port f p).placedFrames.Perm (f :: p.placedFrames) := by
  cases port with
  | a => simp [offerFrame, Part.placedFrames, ← List.append_assoc, List.perm_append_singleton]
  | b =>
    have counts : ∀ g, List.count g (offerFrame ch .b f p).placedFrames = List.count g (f :: p.placedFrames) := by
      intro g
      cases ch <;> simp only [Ring.waitingOf] at h <;>
        simp only [offerFrame, Part.placedFrames, h, Option.toList_some, Option.toList_none, List.count_append,
          List.count_cons, List.count_nil] <;> omega
    exact List.perm_iff_count.mpr counts

section
variable {f : TxFrame} {p : Part} (hf : f ∈ p.placedFrames)
include hf

theorem sendQuery_placed (g : Frame) (q : Query) : f ∈ (sendQuery g q p).placedFrames := by
  simp only [sendQuery, Part.placedFrames, ← List.append_assoc]
  exact List.mem_append_left _ hf

theorem startAttempt_placed (n : Nat) : f ∈ (startAttempt n p).placedFrames := by
  unfold startAttempt
  split
  · exact sendQuery_placed hf _ _
  · exact hf

theorem probeNext_placed : f ∈ (probeNext p).placedFrames := by
  unfold probeNext
  dsimp only
  split
  · exact hf
  · exact sendQuery_placed (p := { p with register := { p.register with waitingProbe := none } }) hf _ _
  · exact startAttempt_placed hf _
  · exact startAttempt_placed (p := { p with register := { p.register with pollQueue := _, inHand := some _ } }) hf _
  · exact hf

/-- Port B's transmitter is filled only when it is empty, with a frame that waited or with one of the ring. -/
theorem fillB_placed : f ∈ (fillB p).placedFrames := by
  simp only [Part.placedFrames, List.mem_append, Option.mem_toList] at hf
  unfold fillB
  split
  · rename_i free
    have empty : p.portB.tx = none := by simpa using free.2
    rw [empty] at hf
    split <;> simp_all [Part.placedFrames, handOver, movePointer] <;> tauto
  · simpa only [Part.placedFrames, List.mem_append, Option.mem_toList] using hf

end

/-! ## A BUSY answer through the settling -/

/-- A BUSY answer of a channel is held for a port, or its frame is placed (R175). -/
def Part.BusyMade (ch : Channel) (port : PortId) (code : Byte) (p : Part) : Prop :=
  ((p.chan ch).busyAt port).map (·.code) = some code ∨
    ∃ f ∈ p.placedFrames, f.source = .busy ch ∧ f.frame.data = [0x02, code, 0x01]

theorem setBusy_busyAt (c : Chan) (port : PortId) (b : Option Busy) : (c.setBusy port b).busyAt port = b := by
  cases port <;> rfl

theorem setBusy_busyAt_other (c : Chan) {port other : PortId} (b : Option Busy) (h : port ≠ other) :
    (c.setBusy other b).busyAt port = c.busyAt port := by
  cases port <;> cases other <;> first | rfl | exact absurd rfl h

section
variable {ch : Channel} {port : PortId} {code : Byte} {p q : Part}

/-- What leaves the channel's held answers and the placed frames keeps a BUSY answer. -/
theorem Part.BusyMade.mono (h : p.BusyMade ch port code) (held : (q.chan ch).busyAt port = (p.chan ch).busyAt port)
    (placed : ∀ f ∈ p.placedFrames, f ∈ q.placedFrames) : q.BusyMade ch port code := by
  refine h.imp (fun stands => ?_) fun ⟨f, hf, made⟩ => ⟨f, placed f hf, made⟩
  rw [held]
  exact stands

/-- A frame offered with a change of its channel that leaves the answers held for other ports: the BUSY answer is kept, or
is that frame. -/
theorem Part.BusyMade.offered {d : Channel} {other : PortId} {c : Chan} {f : TxFrame} (h : p.BusyMade ch port code)
    (free : p.ring.waitingOf d other = none)
    (held : d = ch → c.busyAt port = (p.chan ch).busyAt port ∨
      (((p.chan ch).busyAt port).map (·.code) = some code → f.source = .busy ch ∧ f.frame.data = [0x02, code, 0x01])) :
    (offerFrame d other f (p.setChan d c)).BusyMade ch port code := by
  have perm := offerFrame_placedFrames d other f (p := p.setChan d c) (by rw [Part.setChan_ring]; exact free)
  rw [placedFrames_setChan] at perm
  have placed : ∀ g ∈ p.placedFrames, g ∈ (offerFrame d other f (p.setChan d c)).placedFrames :=
    fun g hg => perm.mem_iff.mpr (List.mem_cons_of_mem _ hg)
  by_cases same : d = ch
  · subst same
    have chan : (offerFrame d other f (p.setChan d c)).chan d = c := by rw [offerFrame_chan, Part.setChan_chan]
    rcases held rfl with kept | own
    · exact h.mono (by rw [chan, kept]) placed
    · rcases h with stands | ⟨g, hg, made⟩
      · exact .inr ⟨f, perm.mem_iff.mpr List.mem_cons_self, own stands⟩
      · exact .inr ⟨g, placed g hg, made⟩
  · exact h.mono (by rw [offerFrame_chan, Part.setChan_other _ _ (Ne.symm same)]) placed

theorem offerNext_busyMade (d : Channel) (other : PortId) (h : p.BusyMade ch port code) :
    (offerNext d other p).BusyMade ch port code := by
  unfold offerNext
  split
  · exact h
  · rename_i waiting
    have free : p.ring.waitingOf d other = none := by simpa using waiting
    dsimp only
    split
    · rename_i b hb
      refine h.offered free fun same => ?_
      subst same
      by_cases at_ : port = other
      · subst at_
        refine .inr fun stands => ?_
        rw [hb] at stands
        obtain rfl : b.code = code := Option.some.inj stands
        exact ⟨rfl, rfl⟩
      · exact .inl (setBusy_busyAt_other _ _ at_)
    · split
      · split
        · exact h
        · refine h.offered free fun same => .inl ?_
          subst same
          cases port <;> rfl
      · exact h

/-- The settling keeps a BUSY answer of a channel that no reader works for: held, or its frame placed (R175). -/
theorem settle_busyMade (m : Medium) (readers : ∀ r ∈ p.storage.readers, r.ch ≠ ch) (h : p.BusyMade ch port code) :
    (settle m p).BusyMade ch port code := by
  obtain ⟨chan, frames⟩ := grant_same m p readers
  have granted : (grant m p).BusyMade ch port code := h.mono (by rw [chan]) fun f hf => by rwa [frames]
  have offers : ∀ q : Part, q.BusyMade ch port code → (linkOffers q).BusyMade ch port code := fun q hq =>
    offerNext_busyMade _ _ (offerNext_busyMade _ _ (offerNext_busyMade _ _ hq))
  have fills : ∀ q : Part, q.BusyMade ch port code → (fillB (fillA q)).BusyMade ch port code := fun q hq =>
    hq.mono (by rw [fillB_chan, fillA_chan]) fun f hf => fillB_placed ((fillA_perm q).mem_iff.mpr hf)
  have probed : (probeNext (grant m p)).BusyMade ch port code :=
    granted.mono (congrArg (·.busyAt port) (probeNext_same _).1) fun f hf => probeNext_placed hf
  have transmitted : (transmitSettle (probeNext (grant m p))).BusyMade ch port code := offers _ (fills _ (offers _ probed))
  have quiet : ∀ q : Part, q.BusyMade ch port code → (settleQuiet q).BusyMade ch port code := fun q hq =>
    hq.mono (by cases ch <;> rfl) fun f hf => hf
  unfold settle
  split
  · exact h
  · split
    · exact granted
    · exact quiet _ transmitted

end

/-! ## The busy channel (R175) -/

/-- A message that comes in whole finds a part that waits for its channel: the SVC line sampled, the wake cause noted. -/
def Part.reached (src : Source) (p : Part) : Part := noteWakeCause (sampleSource src p)

section
variable (src : Source) (p : Part)

theorem reached_chan (ch : Channel) : (p.reached src).chan ch = p.chan ch := by cases src <;> cases ch <;> rfl
theorem reached_storage : (p.reached src).storage = p.storage := by cases src <;> rfl
theorem reached_restore : (p.reached src).restore = p.restore := by cases src <;> rfl
theorem reached_lasting : (p.reached src).lasting = p.lasting := by cases src <;> rfl
theorem reached_ring : (p.reached src).ring = p.ring := by cases src <;> rfl

theorem reached_busyWaiting (ch : Channel) (port : PortId) :
    (p.reached src).busyWaiting ch port = p.busyWaiting ch port := by
  simp only [Part.busyWaiting, reached_chan, reached_ring]

end

/-- A whole message from a source reaches its channel at an AWAKE part whose port is not in BUS_OFF (R2, R172). -/
theorem presentMessage_awake {src : Source} {p : Part} (ha : p.awake = true)
    (hb : (p.port (sourcePort src)).state ≠ .busOff) (msg : List Byte) (run : Channel → Part → Part) :
    presentMessage src msg run p =
      takeWhole (sourceChannel src) (sourcePort src) (byteAt msg 0)
        (if lengthFits msg then run (sourceChannel src)
          else refuse (sourceChannel src) (byteAt msg 0) stMalformed) (p.reached src) := by
  obtain ⟨running, awake, -, -⟩ := awake_parts ha
  have live : (sampleSource src p).live = true := by cases src <;> exact running
  have bus : ((sampleSource src p).port (sourcePort src)).state ≠ .busOff := by
    cases src with
    | fleet => exact hb
    | service port svc => cases port <;> exact hb
  have woken : wakeCause (sampleSource src p) = p.reached src := by
    have asleep : (sampleSource src p).modeCtl.asleep = false := by cases src <;> exact awake
    simp only [wakeCause, asleep, Bool.false_eq_true, if_false, Part.reached]
  simp only [presentMessage, live, bus, woken, Bool.true_eq_false, if_false]

theorem takeWhole_busy {ch : Channel} {p : Part} (h : (p.chan ch).state = .processing ∨ (p.chan ch).state = .responding)
    (port : PortId) (code : Byte) (run : Part → Part) : takeWhole ch port code run p = busyAnswer ch port code p := by
  unfold takeWhole
  rcases h with h | h <;> rw [h]

section
variable {ch : Channel} {port : PortId} {p : Part}

/-- A second BUSY answer for a port is neither made nor counted (R175). -/
theorem busyAnswer_waiting (h : p.busyWaiting ch port = true) (code : Byte) : busyAnswer ch port code p = p := if_pos h

theorem busyAnswer_free (h : p.busyWaiting ch port = false) (code : Byte) :
    busyAnswer ch port code p =
      p.setChan ch
        { (p.chan ch).setBusy port (some { code, timeout := 1000 }) with
          busyAnswers := min 65535 ((p.chan ch).busyAnswers + 1) } :=
  if_neg (Bool.eq_false_iff.mp h)

end

/-- A whole message on a busy channel leaves what its BUSY answer leaves, settled. -/
theorem busy_leaves {i : Instr} {src : Source} {msg : List Byte} {s : State} (hi : requestOf i = some (src, msg))
    (ha : s.part.awake = true) (hb : (s.part.port (sourcePort src)).state ≠ .busOff)
    (hs : (s.part.chan (sourceChannel src)).state = .processing ∨ (s.part.chan (sourceChannel src)).state = .responding)
    {q p : Part} (hq : busyAnswer (sourceChannel src) (sourcePort src) (byteAt msg 0) (s.part.reached src) = q)
    (he : q.restore = s.part.restore) (hl : q.lasting = p.lasting) {also : Part → Prop} (more : also (settle s.medium q)) :
    Leaves i s p also := by
  have step : exec i s = .next { s with part := settle s.medium q } := by
    rw [exec_eq_dispatch hi, runRequest, presentMessage_awake ha hb, takeWhole_busy (by rwa [reached_chan]), hq,
      after_eq s (he.trans (awake_parts ha).2.2.2)]
  exact ⟨_, step, (lasting_settle _ _).trans hl, more, rfl, rfl⟩

/-- Settles O33: `busyAnswer` by whether an answer waits, and the settling, which keeps a BUSY answer made. -/
theorem busyChannelAnswersBusy : Obligations.BusyChannelAnswersBusy := by
  intro i src msg s hi ha hb free ch c busy
  have readers : ∀ r ∈ (s.part.reached src).storage.readers, r.ch ≠ ch := by rwa [reached_storage]
  refine ⟨fun waits => ?_, fun none => ?_⟩
  · refine busy_leaves hi ha hb busy (busyAnswer_waiting ((reached_busyWaiting ..).trans waits) _) (reached_restore ..)
      (reached_lasting ..) ?_
    rw [settle_chan_state_of_readers _ readers, reached_chan]
  · have made := busyAnswer_free ((reached_busyWaiting src s.part ch (sourcePort src)).trans none) (byteAt msg 0)
    refine busy_leaves hi ha hb busy made ?_ ?_ ⟨?_, settle_busyMade _ ?_ (.inl ?_)⟩
    · rw [Part.setChan_restore, reached_restore]
    · cases src with
      | fleet => rfl
      | service port svc => cases port <;> rfl
    · rw [settle_chan_state_of_readers _ (by rwa [Part.setChan_storage]), Part.setChan_chan]
      exact (setBusy_same _ _ _).1.trans (congrArg Chan.state (reached_chan ..))
    · rwa [Part.setChan_storage]
    · rw [Part.setChan_chan]
      cases sourcePort src <;> rfl

end Sys2Proof.Machine
end

section
/-! The first refusals (R176): MALFORMED, UNKNOWN_REQUEST and SERVICE_LINE_OFF. -/

namespace Sys2Proof.Machine

section
variable {src : Source} {s : State} (h : Ready src s) (msg : List Byte)
include h

/-- A ready part dispatches a whole message, whether or not its length fits its code (R176). -/
theorem presentMessage_dispatch :
    presentMessage src msg (fun ch => dispatch ch msg) s.part = dispatch (sourceChannel src) msg (s.part.taken src) := by
  have idle : ((s.part.reached src).chan (sourceChannel src)).state = .idle :=
    (congrArg Chan.state (reached_chan ..)).trans h.2.2.1
  rw [presentMessage_awake h.1 h.2.1, presented_dispatch, takeWhole]
  simp only [idle]
  rfl

/-- A request command whose dispatch only responds is answered, and changes nothing that lasts. -/
theorem dispatch_answers {i : Instr} {msg m : List Byte} (hi : requestOf i = some (src, msg))
    (hd : dispatch (sourceChannel src) msg (s.part.taken src) = respond (sourceChannel src) m (s.part.taken src)) :
    Answers i src s m s.part := by
  have unrestored : (respond (sourceChannel src) m (s.part.taken src)).restore = none := by
    rw [respond_restore, taken_restore]
    exact (awake_parts h.1).2.2.2
  have step : exec i s = .next { s with part := settle s.medium (respond (sourceChannel src) m (s.part.taken src)) } := by
    rw [exec_eq_dispatch hi, runRequest, presentMessage_dispatch h, hd, after_eq s unrestored]
  obtain ⟨-, -, -, none, readers⟩ := id h
  have placed : (respond (sourceChannel src) m (s.part.taken src)).placedFor (sourceChannel src) = [] := by
    rw [Part.placedFor, placedFrames_respond, taken_placedFrames]
    rw [outgoing_eq] at none
    exact List.map_eq_nil_iff.mp (List.append_eq_nil_iff.mp none).1
  refine ⟨_, step, settle_responds _ (by simp) (by simp) (by simp) placed ?_, ?_, trivial, rfl, rfl⟩
  · rwa [respond_storage, taken_storage]
  · rw [lasting_settle, lasting_respond, taken_lasting]

end

/-! ## The three refusals -/

section
variable {ch : Channel} {msg : List Byte}

theorem dispatch_malformed (h : lengthFits msg = false) (p : Part) :
    dispatch ch msg p = respond ch [byteAt msg 0, 0x10] p := if_pos h

theorem lengthFits_unknown (h : codeLength (byteAt msg 0).toNat = none) : lengthFits msg = true := by
  simp only [lengthFits, h]

/-- A code without a length is none of those that dispatch knows (R191). -/
theorem dispatch_unknown (h : codeLength (byteAt msg 0).toNat = none) (p : Part) :
    dispatch ch msg p = respond ch [byteAt msg 0, 0x11] p := by
  unfold dispatch
  rw [if_neg (by rw [lengthFits_unknown h]; decide)]
  dsimp only
  split
  case h_37 => rfl
  all_goals
    rename_i known
    rw [known] at h
    exact absurd h nofun

end

/-- With the SVC line inactive every known Service request is refused at the first of checks 3 to 5 (R176). -/
theorem refusal_lineOff (t : Terms) (port : PortId) (p : Part) :
    t.refusal .service (p.taken (.service port false)) = some 0x13 := if_pos ⟨rfl, taken_svc port false p⟩

/-- A well-formed command of an unknown code has a code without a length. -/
theorem codeLength_unknownRequest {src : Source} {code : Byte} {args : List Byte}
    (h : wellFormed (.unknownRequest src code args) = true) : codeLength code.toNat = none :=
  Option.isNone_iff_eq_none.mp (Bool.and_eq_true_iff.mp h).1

theorem known_lineOff {i : Instr} {port : PortId} {msg : List Byte} {s : State}
    (formed : wellFormed i = true) (hi : requestOf i = some (.service port false, msg)) (h : Ready (.service port false) s)
    (fits : lengthFits msg = true) (known : codeLength (byteAt msg 0).toNat ≠ none) :
    Answers i (.service port false) s [byteAt msg 0, 0x13] s.part := by
  cases i <;> cases hi
  case unknownRequest => exact absurd (codeLength_unknownRequest formed) known
  case setMode target =>
    exact refused_answers (run := fun ch => requestSetMode ch target) rfl h fits (by unfold requestSetMode; rfl)
      (refusal_lineOff _ port s.part)
  all_goals exact refused_answers rfl h fits rfl (refusal_lineOff _ port s.part)

/-- Settles O34: dispatch's own two refusals, and the SVC line's of every request that is known. -/
theorem firstRefusals : Obligations.FirstRefusals := by
  intro i src msg s formed hi h
  refine ⟨fun bad => ?_, fun unknown => ?_, fun code args => ?_, fun port off fits known => ?_⟩
  · exact dispatch_answers h hi (dispatch_malformed bad _)
  · exact dispatch_answers h hi (dispatch_unknown unknown _)
  · rintro rfl
    cases hi
    exact dispatch_answers h rfl (dispatch_unknown (codeLength_unknownRequest formed) _)
  · subst off
    exact known_lineOff formed hi h fits known

end Sys2Proof.Machine
end

section
/-! Acknowledge Conditions (R182). -/

namespace Sys2Proof.Machine

/-! ## Acknowledging a list -/

/-- The link with the latched conditions of a list cleared (R182). -/
def Link.cleared (l : Link) (numbers : List Byte) : Link :=
  { l with
    tableInvalid := l.tableInvalid && !numbers.contains 2
    roleLost := l.roleLost && !numbers.contains 5
    supplyGap := l.supplyGap && !numbers.contains 6
    forwardOverrun := l.forwardOverrun && !numbers.contains 7
    captureReady := l.captureReady && !numbers.contains 8 }

theorem Link.cleared_nil (l : Link) : l.cleared [] = l := by
  simp [Link.cleared]

theorem Link.cleared_cleared (l : Link) (a b : List Byte) : (l.cleared a).cleared b = l.cleared (a ++ b) := by
  simp [Link.cleared, Bool.and_assoc]

/-- Acknowledging one condition clears its flag if it is latched, and nothing otherwise. -/
theorem acknowledge_toNat (l : Link) (n : Byte) : l.acknowledge n.toNat = l.cleared [n] := by
  have number : ∀ c : Byte, n.toNat = c.toNat → n = c := fun _ => BitVec.eq_of_toNat_eq
  unfold Link.acknowledge
  split
  · rename_i h; obtain rfl := number 2 h; simp [Link.cleared]
  · rename_i h; obtain rfl := number 5 h; simp [Link.cleared]
  · rename_i h; obtain rfl := number 6 h; simp [Link.cleared]
  · rename_i h; obtain rfl := number 7 h; simp [Link.cleared]
  · rename_i h; obtain rfl := number 8 h; simp [Link.cleared]
  · rename_i not2 not5 not6 not7 not8
    have other : ∀ c : Byte, (n.toNat = c.toNat → False) → [n].contains c = false := fun c hc => by
      simpa using fun same : c = n => hc (by rw [same])
    simp only [Link.cleared, other 2 not2, other 5 not5, other 6 not6, other 7 not7, other 8 not8, Bool.not_false,
      Bool.and_true]

theorem acknowledgeAll_eq (l : Link) (numbers : List Byte) :
    l.acknowledgeAll (numbers.map (·.toNat)) = l.cleared numbers := by
  induction numbers generalizing l with
  | nil => exact l.cleared_nil.symm
  | cons n rest ih => exact (ih _).trans (by rw [acknowledge_toNat, Link.cleared_cleared]; rfl)

/-! ## The condition set -/

/-- The part with the latched conditions of a list cleared (R182). -/
def Part.acknowledged (numbers : List Byte) (p : Part) : Part := { p with link := p.link.cleared numbers }

/-- A standing condition hangs on its cause, not on the link (R180). -/
theorem condition_standing {c : Nat} (h : conditionStanding c = true) (numbers : List Byte) (p : Part) :
    (p.acknowledged numbers).condition c = p.condition c := by
  simp only [conditionStanding, Bool.or_eq_true, beq_iff_eq] at h
  rcases h with (((rfl | rfl) | rfl) | rfl) | rfl <;> rfl

/-- The conditions are as they were before the message came in. -/
theorem taken_acknowledged_condition (src : Source) (numbers : List Byte) (p : Part) :
    ((p.taken src).acknowledged numbers).condition = (p.acknowledged numbers).condition := by
  funext c
  unfold Part.condition
  split <;> cases src <;> rfl

/-- The condition set as bytes, in priority order (R180, R182). -/
theorem conditions_bytes (p : Part) :
    p.conditions.flatMap (beBytes 1) = ((List.range' 1 10).filter p.condition).map (BitVec.ofNat 8) := by
  have one : beBytes 1 = fun c => [BitVec.ofNat 8 c] := funext beBytes_one
  rw [one, ← List.map_eq_flatMap]
  rfl

/-! ## The request -/

theorem badCondition_none {numbers : List Byte} (h : ∀ n ∈ numbers, 1 ≤ n.toNat ∧ n.toNat ≤ 10) :
    badCondition numbers = none := by
  refine List.findIdx?_eq_none_iff.mpr fun n hn => ?_
  obtain ⟨low, high⟩ := h n hn
  simp [Nat.not_lt.mpr low, Nat.not_lt.mpr high]

/-- The first number outside 1 to 10 is the argument at fault. -/
theorem badCondition_some {numbers : List Byte} {k : Nat} {n : Byte}
    (before : ∀ j n, j < k → numbers[j]? = some n → 1 ≤ n.toNat ∧ n.toNat ≤ 10) (at_ : numbers[k]? = some n)
    (out : n.toNat < 1 ∨ 10 < n.toNat) : badCondition numbers = some k := by
  obtain ⟨hk, rfl⟩ := List.getElem?_eq_some_iff.mp at_
  refine List.findIdx?_eq_some_iff_getElem.mpr ⟨hk, by simpa using out, fun j hj => ?_⟩
  obtain ⟨low, high⟩ := before j numbers[j] hj (List.getElem?_eq_getElem _)
  simp [Nat.not_lt.mpr low, Nat.not_lt.mpr high]

theorem lengthFits_acknowledge {numbers : List Byte} (h1 : 1 ≤ numbers.length) (h10 : numbers.length ≤ 10) :
    lengthFits ([0x49] ++ numbers) = true := by
  have fits : lengthFits ([0x49] ++ numbers) =
      (decide (2 ≤ numbers.length + 1) && decide (numbers.length + 1 ≤ 11) && true) := rfl
  simp only [fits, Bool.and_true, Bool.and_eq_true, decide_eq_true_eq]
  omega

section
variable {src : Source} {numbers : List Byte} {s : State} (h : Ready src s) (hp : permitted src = true)
  (hl : lengthFits ([0x49] ++ numbers) = true)
include h hp hl

theorem acknowledge_answers (hn : badCondition numbers = none) :
    Answers (.acknowledgeConditions src numbers) src s
      ([0x49, 0x00] ++ ((List.range' 1 10).filter (s.part.acknowledged numbers).condition).map (BitVec.ofNat 8))
      (s.part.acknowledged numbers) := by
  have run : requestAcknowledge (sourceChannel src) numbers (s.part.taken src) =
      respond (sourceChannel src)
        ([0x49, 0x00] ++ ((List.range' 1 10).filter (s.part.acknowledged numbers).condition).map (BitVec.ofNat 8))
        ((s.part.taken src).acknowledged numbers) := by
    refine (admitRequest_anywhere hp 0x49 hn _ s.part).trans ?_
    rw [← taken_acknowledged_condition src, ← conditions_bytes, Part.acknowledged, ← acknowledgeAll_eq]
    rfl
  exact changing_answers rfl h hl run (hlast := by cases src <;> rfl)

theorem acknowledge_bad {k : Nat} (hn : badCondition numbers = some k) :
    Answers (.acknowledgeConditions src numbers) src s [0x49, 0x16, BitVec.ofNat 8 k] s.part :=
  badArgument_answers rfl h hl rfl (refusal_none hp (by cases src <;> rfl) (mode_mem_all _) nofun) hn

end

/-- Settles O38: the list acknowledged at once, the standing conditions by their causes, and the first number at fault. -/
theorem acknowledgeClearsLatched : Obligations.AcknowledgeClearsLatched := by
  intro src numbers s h hp h1 h10
  have fits := lengthFits_acknowledge h1 h10
  refine ⟨fun inRange => ⟨?_, fun c standing => condition_standing standing numbers s.part⟩,
    fun k before ⟨n, at_, out⟩ => ?_⟩
  · exact acknowledge_answers h hp fits (badCondition_none inRange)
  · exact acknowledge_bad h hp fits (badCondition_some before at_ out)

end Sys2Proof.Machine
end

section
/-! Read Records and Scan Archive (R186 to R188): the arguments at fault, what is answered without a read, and the readers
that are started. -/

namespace Sys2Proof.Machine

/-! ## The first argument at fault (R176) -/

theorem firstBad_pass (k : Nat) (rest : List (Nat × Bool)) : firstBad ((k, true) :: rest) = firstBad rest := rfl
theorem firstBad_fault (k : Nat) (rest : List (Nat × Bool)) : firstBad ((k, false) :: rest) = some k := rfl
theorem firstBad_nil : firstBad [] = none := rfl

theorem inRange_of {low high v : Int} (h1 : low ≤ v) (h2 : v ≤ high) : inRange low high v = true := by
  simp [inRange, h1, h2]

theorem not_inRange_of {low high v : Int} (h : v < low ∨ high < v) : inRange low high v = false := by
  simpa [inRange, imp_iff_not_or] using h

/-! ## The arguments of Read Records (R186, R187) -/

theorem newestOf_components (p : Part) : p.newestOf 0 = p.register.nextArchive - 1 := rfl
theorem newestOf_captures (p : Part) : p.newestOf 2 = p.capture.nextNumber - 1 := rfl

section
variable {p : Part} {area number frame count : Nat}

theorem recordChecks_area (ha : 2 < area) : firstBad (recordChecks p area number frame count) = some 0 := by
  rw [recordChecks, decide_eq_false (Nat.not_le.mpr ha), firstBad_fault]

theorem recordChecks_number (ha : area ≤ 2) (hn : number = 0 ∨ p.newestOf area < number) :
    firstBad (recordChecks p area number frame count) = some 1 := by
  have out : (decide (1 ≤ number) && decide (number ≤ p.newestOf area)) = false := by
    simp only [Bool.and_eq_false_iff, decide_eq_false_iff_not]
    omega
  rw [recordChecks, decide_eq_true ha, out, firstBad_pass, firstBad_fault]

section
variable (ha : area ≤ 2) (h1 : 1 ≤ number) (hn : number ≤ p.newestOf area)
include ha h1 hn

/-- With an area and a number in range the frame index and the count are left to check. -/
theorem recordChecks_numbered :
    firstBad (recordChecks p area number frame count) =
      firstBad [(2, area != 2 || (decide (frame ≤ 4079) && !beyondStored p number frame)),
        (3, inRange 1 (countLimit area) count)] := by
  rw [recordChecks, decide_eq_true ha, decide_eq_true h1, decide_eq_true hn, Bool.and_self, firstBad_pass, firstBad_pass]

theorem recordChecks_frame (hf : (area != 2 || (decide (frame ≤ 4079) && !beyondStored p number frame)) = false) :
    firstBad (recordChecks p area number frame count) = some 2 := by
  rw [recordChecks_numbered ha h1 hn, hf, firstBad_fault]

section
variable (hf : (area != 2 || (decide (frame ≤ 4079) && !beyondStored p number frame)) = true)
include hf

theorem recordChecks_count (hc : count < 1 ∨ countLimit area < count) :
    firstBad (recordChecks p area number frame count) = some 3 := by
  rw [recordChecks_numbered ha h1 hn, hf, not_inRange_of (by omega), firstBad_pass, firstBad_fault]

theorem recordChecks_none (hc : 1 ≤ count) (hmax : count ≤ countLimit area) :
    firstBad (recordChecks p area number frame count) = none := by
  rw [recordChecks_numbered ha h1 hn, hf, inRange_of (by omega) (by omega), firstBad_pass, firstBad_pass, firstBad_nil]

end

end

theorem beyondStored_gone (h : p.capture.entryOf number = none) : beyondStored p number frame = false := by
  simp only [beyondStored, h]
  rfl

theorem beyondStored_held {e : Nat} {x : CaptureEntry} (he : p.capture.entryOf number = some e)
    (hx : p.capture.entry e = some x) : beyondStored p number frame = (x.closed && decide (x.stored ≤ frame)) := by
  simp only [beyondStored, he, hx, Option.bind_some, Option.any_some]

end

theorem closed_iff (x : CaptureEntry) : x.closed = true ↔ x.state ≠ .opened := bne_iff_ne

/-! ## The arguments of Scan Archive (R188) -/

section
variable {start : Word32} {count : BitVec 16} {field sense : Byte} {value : Word32}

theorem scanChecks_start (h : start.toNat = 0) : firstBad (scanChecks start count field sense value) = some 0 := by
  rw [scanChecks, decide_eq_false (Nat.not_le.mpr (Nat.lt_one_iff.mpr h)), firstBad_fault]

section
variable (h1 : 1 ≤ start.toNat)
include h1

theorem scanChecks_count (hc : count.toNat < 1 ∨ 320 < count.toNat) :
    firstBad (scanChecks start count field sense value) = some 1 := by
  rw [scanChecks, decide_eq_true h1, not_inRange_of (by omega), firstBad_pass, firstBad_fault]

section
variable (hc : 1 ≤ count.toNat) (hmax : count.toNat ≤ 320)
include hc hmax

/-- With the start and the count in range the field, the sense and the value are left to check. -/
theorem scanChecks_counted :
    firstBad (scanChecks start count field sense value) =
      firstBad [(2, decide (field.toNat ≤ 2)), (3, decide (sense.toNat ≤ 1)),
        (4, field == 0 || decide (value.toNat ≤ 1))] := by
  rw [scanChecks, decide_eq_true h1, inRange_of (by omega) (by omega), firstBad_pass, firstBad_pass]

theorem scanChecks_field (hf : 2 < field.toNat) : firstBad (scanChecks start count field sense value) = some 2 := by
  rw [scanChecks_counted h1 hc hmax, decide_eq_false (Nat.not_le.mpr hf), firstBad_fault]

section
variable (hf : field.toNat ≤ 2)
include hf

theorem scanChecks_sense (hs : 1 < sense.toNat) : firstBad (scanChecks start count field sense value) = some 3 := by
  rw [scanChecks_counted h1 hc hmax, decide_eq_true hf, decide_eq_false (Nat.not_le.mpr hs), firstBad_pass, firstBad_fault]

section
variable (hs : sense.toNat ≤ 1)
include hs

theorem scanChecks_value (hn : 1 ≤ field.toNat) (hv : 1 < value.toNat) :
    firstBad (scanChecks start count field sense value) = some 4 := by
  have tested : (field == 0) = false := beq_eq_false_iff_ne.mpr (by rintro rfl; exact absurd hn (by decide))
  rw [scanChecks_counted h1 hc hmax, decide_eq_true hf, decide_eq_true hs, tested, decide_eq_false (Nat.not_le.mpr hv),
    firstBad_pass, firstBad_pass, Bool.or_self, firstBad_fault]

theorem scanChecks_none (hv : field = 0 ∨ value.toNat ≤ 1) :
    firstBad (scanChecks start count field sense value) = none := by
  have tested : (field == 0 || decide (value.toNat ≤ 1)) = true := by simpa using hv
  rw [scanChecks_counted h1 hc hmax, decide_eq_true hf, decide_eq_true hs, tested, firstBad_pass, firstBad_pass,
    firstBad_pass, firstBad_nil]

end

end

end

end

end

/-! ## The two requests from their admission on -/

theorem recordChecks_taken (src : Source) (p : Part) (area number frame count : Nat) :
    recordChecks (p.taken src) area number frame count = recordChecks p area number frame count := by
  cases src <;> rfl

theorem recordTask_taken (src : Source) (p : Part) (area number frame count : Nat) :
    recordTask (p.taken src) area number frame count = recordTask p area number frame count := by
  cases src <;> rfl

/-- A reader of a channel for a task stands at the arbiter, with nothing of its read done (R156). -/
def Part.StartedReader (ch : Channel) (task : ReaderTask) (p : Part) : Prop :=
  { ch, task, page := 0, buffer := [], spoiled := false } ∈ p.storage.readers

theorem startReader_done {src : Source} {p : Part} {task : ReaderTask} {m : List Byte}
    (h : p.readerNext task = .done m) (ch : Channel) :
    startReader ch task (p.taken src) = respond ch m (p.taken src) := by
  have next : (p.taken src).readerNext task = .done m :=
    (readerNext_congr (taken_register ..) (taken_hire ..) (taken_capture ..) task).trans h
  simp only [startReader, next]

section
variable {src : Source} {s : State} (h : Ready src s) (hp : permitted src = true)
include h hp

section
variable {area : Byte} {number : Word32} {frame count : BitVec 16}

theorem readRecords_bad {index : Nat}
    (hb : firstBad (recordChecks s.part area.toNat number.toNat frame.toNat count.toNat) = some index) :
    Answers (.readRecords src area number frame count) src s [0x40, 0x16, BitVec.ofNat 8 index] s.part :=
  badArgument_answers rfl h rfl rfl (refusal_none hp (by cases src <;> rfl) (mode_mem_all _) nofun)
    (by rw [recordChecks_taken]; exact hb)

section
variable (hb : firstBad (recordChecks s.part area.toNat number.toNat frame.toNat count.toNat) = none)
include hb

omit h in
theorem requestRecords_admitted :
    requestRecords (sourceChannel src) area number frame count (s.part.taken src) =
      startReader (sourceChannel src) (recordTask s.part area.toNat number.toNat frame.toNat count.toNat)
        (s.part.taken src) := by
  refine (admitRequest_anywhere hp 0x40 (by rw [recordChecks_taken]; exact hb) _ s.part).trans ?_
  rw [recordTask_taken]

theorem readRecords_answers {m : List Byte}
    (ht : s.part.readerNext (recordTask s.part area.toNat number.toNat frame.toNat count.toNat) = .done m) :
    Answers (.readRecords src area number frame count) src s m s.part :=
  read_answers rfl h rfl ((requestRecords_admitted hp hb).trans (startReader_done ht _))

theorem readRecords_reads {task : ReaderTask}
    (ht : s.part.readerNext (recordTask s.part area.toNat number.toNat frame.toNat count.toNat) = .read task) :
    Processes (.readRecords src area number frame count) src s s.part
      (Part.StartedReader (sourceChannel src) task) :=
  reading_processes rfl h rfl (requestRecords_admitted hp hb) ht

end

end

section
variable {start : Word32} {count : BitVec 16} {field sense : Byte} {value : Word32}

theorem scanArchive_bad {index : Nat} (hb : firstBad (scanChecks start count field sense value) = some index) :
    Answers (.scanArchive src start count field sense value) src s [0x41, 0x16, BitVec.ofNat 8 index] s.part :=
  badArgument_answers rfl h rfl rfl (refusal_none hp (by cases src <;> rfl) (mode_mem_all _) nofun) hb

section
variable (hb : firstBad (scanChecks start count field sense value) = none)
include hb

theorem scanArchive_answers {m : List Byte}
    (ht : s.part.readerNext (.scan start.toNat count.toNat field.toNat sense.toNat value.toNat 0 2000) = .done m) :
    Answers (.scanArchive src start count field sense value) src s m s.part :=
  read_answers rfl h rfl ((admitRequest_anywhere hp 0x41 hb _ s.part).trans (startReader_done ht _))

theorem scanArchive_reads {task : ReaderTask}
    (ht : s.part.readerNext (.scan start.toNat count.toNat field.toNat sense.toNat value.toNat 0 2000) = .read task) :
    Processes (.scanArchive src start count field sense value) src s s.part
      (Part.StartedReader (sourceChannel src) task) :=
  reading_processes rfl h rfl (admitRequest_anywhere hp 0x41 hb _ s.part) ht

end

end

end

/-! ## What needs no read (R186, R187) -/

/-- A run of one number that is no longer held is that number GONE (R186). -/
theorem runArchive_gone {newest capacity n : Nat} (task : Nat → Nat → List Byte → ReaderTask)
    (h : n + capacity ≤ newest) :
    runArchive newest capacity task 1 n [] =
      .done ([0x40, 0x00] ++ beBytes 4 (n + 1) ++ [0x00, 0x00, 0x02] ++ beBytes 4 n) := by
  have gone : goneBy capacity newest n = true := decide_eq_true h
  have fits : entryFits [] (goneEntry n) = true := by simp [entryFits, goneEntry, beBytes_length]
  simp only [runArchive, gone, fits, if_true, recordsResponse, List.nil_append, List.append_assoc]
  rfl

/-- The one entry of a capture's run that has returned nothing yet. -/
theorem closeRun_first {index remaining after : Nat} {entry : List Byte} (h : entry.length ≤ 1016) :
    closeRun index remaining after [] entry =
      .done ([0x40, 0x00] ++ beBytes 4 index ++ beBytes 2 after ++ entry) := by
  have fits : entryFits [] entry = true := decide_eq_true (by simpa using (by omega))
  simp only [closeRun, fits, if_true, recordsResponse, List.nil_append]

/-! ## The clauses of Read Records, by area (R186, R187) -/

section
variable {src : Source} {s : State} (h : Ready src s) (hp : permitted src = true) {number : Word32}
  {frame count : BitVec 16}
include h hp

/-- A number of an area out of range (R186). -/
theorem readRecords_badNumber {area : Byte} (ha : area.toNat ≤ 2)
    (hn : number.toNat = 0 ∨ s.part.newestOf area.toNat < number.toNat) :
    Answers (.readRecords src area number frame count) src s [0x40, 0x16, 0x01] s.part :=
  readRecords_bad h hp (recordChecks_number ha hn)

section
variable (h1 : 1 ≤ number.toNat)
include h1

section
variable (hn : number.toNat < s.part.register.nextArchive)
include hn

theorem readComponents_badCount (hc : count.toNat < 1 ∨ 64 < count.toNat) :
    Answers (.readRecords src 0x00 number frame count) src s [0x40, 0x16, 0x03] s.part :=
  readRecords_bad h hp (recordChecks_count (by decide) h1 (Nat.le_pred_of_lt hn) rfl hc)

theorem readComponents_reads (hg : s.part.register.nextArchive ≤ number.toNat + 64) (hc : 1 ≤ count.toNat)
    (hmax : count.toNat ≤ 64) :
    Processes (.readRecords src 0x00 number frame count) src s s.part
      (Part.StartedReader (sourceChannel src)
        (.components number.toNat (min count.toNat (s.part.register.nextArchive - number.toNat)) [])) := by
  have newest : s.part.register.newestArchive + 1 = s.part.register.nextArchive := by
    rw [Register.newestArchive]
    omega
  refine readRecords_reads (area := 0x00) h hp (recordChecks_none (by decide) h1 (Nat.le_pred_of_lt hn) rfl hc hmax) ?_
  rw [← newest]
  exact runArchive_held (show _ < _ + 64 by omega) (by omega)

end

section
variable (hn : number.toNat ≤ s.part.hire.newest)
include hn

theorem readHires_badCount (hc : count.toNat < 1 ∨ 320 < count.toNat) :
    Answers (.readRecords src 0x01 number frame count) src s [0x40, 0x16, 0x03] s.part :=
  readRecords_bad h hp (recordChecks_count (by decide) h1 hn rfl hc)

theorem readHires_reads (hg : s.part.hire.newest < number.toNat + 320) (hc : 1 ≤ count.toNat)
    (hmax : count.toNat ≤ 320) :
    Processes (.readRecords src 0x01 number frame count) src s s.part
      (Part.StartedReader (sourceChannel src)
        (.hires number.toNat (min count.toNat (s.part.hire.newest + 1 - number.toNat)) [])) :=
  readRecords_reads (area := 0x01) h hp (recordChecks_none (by decide) h1 hn rfl hc hmax) (runArchive_held hg (by omega))

end

/-- A single hire number that its archive no longer holds (R186). -/
theorem readHires_gone (hg : number.toNat + 320 ≤ s.part.hire.newest) (hc : count = 1) :
    Answers (.readRecords src 0x01 number frame count) src s
      ([0x40, 0x00] ++ beBytes 4 (number.toNat + 1) ++ [0x00, 0x00, 0x02] ++ beBytes 4 number.toNat) s.part := by
  subst hc
  have one : min (1 : BitVec 16).toNat (s.part.hire.newest + 1 - number.toNat) = 1 := Nat.min_eq_left (by simp; omega)
  refine readRecords_answers h hp (recordChecks_none (by decide) h1 (show _ ≤ s.part.hire.newest by omega) rfl
    (by decide) (by decide)) ?_
  refine Eq.trans ?_ (runArchive_gone .hires hg)
  exact congrArg (runArchive _ _ _ · _ _) one

section
variable (hn : number.toNat < s.part.capture.nextNumber)
include hn

theorem readCapture_badFrame (hf : 4079 < frame.toNat ∨ beyondStored s.part number.toNat frame.toNat = true) :
    Answers (.readRecords src 0x02 number frame count) src s [0x40, 0x16, 0x02] s.part := by
  refine readRecords_bad h hp (recordChecks_frame (by decide) h1 (Nat.le_pred_of_lt hn) ?_)
  rcases hf with high | beyond
  · simp [Nat.not_le.mpr high]
  · simp [beyond]

section
variable (hf : frame.toNat ≤ 4079) (hb : beyondStored s.part number.toNat frame.toNat = false)
include hf hb

theorem readCapture_badCount (hc : count.toNat < 1 ∨ 4080 < count.toNat) :
    Answers (.readRecords src 0x02 number frame count) src s [0x40, 0x16, 0x03] s.part :=
  readRecords_bad h hp (recordChecks_count (by decide) h1 (Nat.le_pred_of_lt hn) (by simp [hf, hb]) hc)

omit h hp in
theorem readCapture_checked (hc : 1 ≤ count.toNat) (hmax : count.toNat ≤ 4080) :
    firstBad (recordChecks s.part (0x02 : Byte).toNat number.toNat frame.toNat count.toNat) = none :=
  recordChecks_none (by decide) h1 (Nat.le_pred_of_lt hn) (by simp [hf, hb]) hc hmax

end

/-- No entry holds the capture's number any more (R187, log 12). -/
theorem readCapture_gone (hf : frame.toNat ≤ 4079) (he : s.part.capture.entryOf number.toNat = none)
    (hc : 1 ≤ count.toNat) (hmax : count.toNat ≤ 4080) :
    Answers (.readRecords src 0x02 number frame count) src s
      ([0x40, 0x00] ++ beBytes 4 frame.toNat ++ [0x00, 0x00, 0x02] ++ beBytes 2 frame.toNat) s.part := by
  refine readRecords_answers h hp (readCapture_checked h1 hn hf (beyondStored_gone he) hc hmax) ?_
  refine (runFrames_gone he).trans ((closeRun_first (by simp [beBytes_length])).trans ?_)
  simp only [List.append_assoc]
  rfl

section
variable {e : Nat} {x : CaptureEntry} (he : s.part.capture.entryOf number.toNat = some e)
  (hx : s.part.capture.entry e = some x) (hf : frame.toNat ≤ 4079) (hc : 1 ≤ count.toNat) (hmax : count.toNat ≤ 4080)
include he hx hf hc hmax

/-- A stored frame is read; a closed capture's count is cut at the frames stored (R187). -/
theorem readCapture_reads (hs : frame.toNat < x.stored) :
    Processes (.readRecords src 0x02 number frame count) src s s.part
      (Part.StartedReader (sourceChannel src)
        (.frames number.toNat frame.toNat
          (if x.state = .opened then count.toNat else min count.toNat (x.stored - frame.toNat)) [])) := by
  have within : beyondStored s.part number.toNat frame.toNat = false := by
    simp [beyondStored_held he hx, Nat.not_le.mpr hs]
  have cut : (if x.state = .opened then count.toNat else min count.toNat (x.stored - frame.toNat)) =
      if x.closed then min count.toNat (x.stored - frame.toNat) else count.toNat := by
    simp only [closed_iff, ite_not]
  rw [cut]
  exact readRecords_reads (area := 0x02) h hp (readCapture_checked h1 hn hf within hc hmax)
    (runFrames_stored he hx hc hs)

/-- A frame that an OPEN capture has not stored yet is NOT_READY (R187). -/
theorem readCapture_notReady (ho : x.state = .opened) (hs : x.stored ≤ frame.toNat) :
    Answers (.readRecords src 0x02 number frame count) src s
      ([0x40, 0x00] ++ beBytes 4 x.stored ++ beBytes 2 count.toNat ++ [0x03] ++ beBytes 2 x.stored) s.part := by
  have opened : x.closed = false := Bool.eq_false_iff.mpr (mt (closed_iff x).mp (not_not_intro ho))
  have within : beyondStored s.part number.toNat frame.toNat = false := by
    rw [beyondStored_held he hx, opened, Bool.false_and]
  refine readRecords_answers h hp (readCapture_checked h1 hn hf within hc hmax) ?_
  refine (runFrames_past he hx hc hs).trans ?_
  rw [opened, if_neg Bool.false_ne_true, closeRun_first (by simp [beBytes_length])]
  simp only [List.append_assoc]

end

end

end

end

/-! ## Scan Archive (R188) -/

/-- A scan above the newest number has skipped every number of its count (R188). -/
theorem scanNext_beyond {p : Part} {start : Nat} (h : p.hire.newest < start) (count field sense value : Nat) :
    p.readerNext (.scan start count field sense value 0 2000) =
      .done ([0x41, 0x00, 0x01] ++ beBytes 4 (start + count) ++ [0x00, 0x00] ++ beBytes 2 count) := by
  refine (runScan_beyond h).trans ?_
  rw [Nat.zero_add, scanCounts]
  simp only [List.append_assoc]
  rfl

/-- Settles O48: the first argument at fault of each request, and what its work asks for next. -/
theorem readersAreStarted : Obligations.ReadersAreStarted := by
  intro src number frame count field sense value s h hp p n reads read scan
  have components := newestOf_components p
  have captures := newestOf_captures p
  refine ⟨fun area ha => readRecords_bad h hp (recordChecks_area ha), fun hn => ?_, fun hn => ?_, fun hn => ?_,
    readComponents_badCount h hp, readHires_badCount h hp, readHires_reads h hp, readHires_gone h hp,
    readComponents_reads h hp, fun h1 hn => ⟨fun hf => ?_, fun he hf hc hmax => ?_⟩, fun e x he hx h1 hn hf =>
    ⟨fun closed past => ?_, fun within hc => ?_, fun hc hmax => ⟨fun stored => ?_, fun opened past => ?_⟩⟩,
    fun h0 => ?_, fun h1 hc => ?_, fun h1 hc hmax => ⟨fun hf => ?_, fun hf hs => ?_, fun tested hf hs hv => ?_,
    fun hf hs hv => ⟨fun held near => ?_, fun beyond => ?_⟩⟩⟩
  · exact readRecords_badNumber (area := 0x00) h hp (by decide) (show n = 0 ∨ p.newestOf 0 < n by omega)
  · exact readRecords_badNumber (area := 0x01) h hp (by decide) hn
  · exact readRecords_badNumber (area := 0x02) h hp (by decide) (show n = 0 ∨ p.newestOf 2 < n by omega)
  · exact readCapture_badFrame h hp h1 hn (.inl hf)
  · exact readCapture_gone h hp h1 hn hf he hc hmax
  · refine readCapture_badFrame h hp h1 hn (.inr ?_)
    rw [beyondStored_held he hx, (closed_iff x).mpr closed, decide_eq_true past, Bool.and_self]
  · refine readCapture_badCount h hp h1 hn hf ?_ hc
    rw [beyondStored_held he hx, Bool.and_eq_false_iff, decide_eq_false_iff_not, Nat.not_le, ← Bool.not_eq_true,
      closed_iff, not_not]
    exact within
  · exact readCapture_reads h hp h1 hn he hx hf hc hmax stored
  · exact readCapture_notReady h hp h1 hn he hx hf hc hmax opened past
  · exact scanArchive_bad h hp (scanChecks_start h0)
  · exact scanArchive_bad h hp (scanChecks_count h1 hc)
  · exact scanArchive_bad h hp (scanChecks_field h1 hc hmax hf)
  · exact scanArchive_bad h hp (scanChecks_sense h1 hc hmax hf hs)
  · exact scanArchive_bad h hp (scanChecks_value h1 hc hmax hf hs tested hv)
  · exact scanArchive_reads h hp (scanChecks_none h1 hc hmax hf hs hv) (runScan_held held near hc)
  · exact scanArchive_answers h hp (scanChecks_none h1 hc hmax hf hs hv) (scanNext_beyond beyond _ _ _ _)

end Sys2Proof.Machine
end

section
/-! The step on a queue that holds a command (log 2). -/

namespace Sys2Proof.Machine

/-- A step takes its command off the queue before the command acts (log 2). -/
theorem step_command {s : State} {c : Instr} {rest : List Instr} (h : s.pending = c :: rest) :
    step s = exec c { s with pending := rest } := by
  simp only [step, h]

/-- Settles O1: the command put at the front is the one taken, and what is left is the state it was put on. -/
theorem stepRunsFrontCommand : Obligations.StepRunsFrontCommand :=
  fun _ _ => step_command rfl

end Sys2Proof.Machine
end
